-- ==== Sys2Proof/Word.lean ====
section
/-! DEFINITION. The word types of the part: bytes, key sets, the local counter and the wrapping counts. -/

namespace Sys2Proof

/-- One byte of a line, a frame or the note memory (Section 11). -/
abbrev Byte := BitVec 8

/-- A sequence of bytes, the first sent or lowest addressed first. -/
abbrev Bytes := List Byte

/-- A set of the 23 keys: bit k is key k (paragraph 0.6.6). -/
abbrev Keys := BitVec 23

/-- A value of the local counter: 32 bits of microseconds, wrapping (R38). -/
abbrev LocalTime := BitVec 32

/-- A 32-bit count that wraps from 4,294,967,295 to 0 (R9, R21, R37, R52, ...). -/
abbrev Count := BitVec 32

/-- The largest value of a 32-bit field: timecodes are limited to it (R40, R41). -/
abbrev max32 : Nat := 4294967295

end Sys2Proof
end

