-- ==== Sys2Proof/Config.lean ====
section
/-! DEFINITION. The fixed limits of the part: capacities (paragraph 0.7) and fixed times. Times are in microseconds. -/

namespace Sys2Proof.Config

/-- Silence interval of a key link (R6). -/
abbrev silenceLimit : Nat := 500000
/-- A capture is EXPIRED when more than 500 ms have passed since its edge (R43). -/
abbrev captureLimit : Nat := 500000
/-- PREVIOUS-SYNC is INVALID when more than this has passed since its capture (R48). -/
abbrev previousSyncLimit : Nat := 10000000
/-- Holdover limit (R49). -/
abbrev holdoverLimit : Nat := 5000000
/-- The time since the anchor at which the mapping is re-based: 2^31 µs (R41). -/
abbrev rebaseLimit : Nat := 2147483648
/-- The divisor of the mapping: 1000 x 2^24 (R39). -/
abbrev rateUnit : Nat := 16777216000
/-- Nominal rate (R42). -/
abbrev rateNominal : Nat := 16777216
/-- Lower rate limit (R42). -/
abbrev rateMin : Nat := 16760439
/-- Upper rate limit (R42). -/
abbrev rateMax : Nat := 16793993
/-- Largest error that is slewed, in ms (R46). -/
abbrev stepThreshold : Nat := 250
/-- Capacity of a stroke queue (paragraph 2.1). -/
abbrev queueMax : Nat := 64
/-- Pages of the log buffer (R73). -/
abbrev bufferPages : Nat := 8
/-- Records of a log page (R73). -/
abbrev pageRecords : Nat := 16
/-- Staging list capacity (R89). -/
abbrev stagingMax : Nat := 32
/-- Chain limit of a bucket (R83). -/
abbrev chainMax : Nat := 64
/-- Longest outline and largest work list (R104, R109). -/
abbrev outlineMax : Nat := 8
/-- Longest unit or entry text (R91, R142). -/
abbrev textMax : Nat := 48
/-- Longest speaker label (R121). -/
abbrev labelMax : Nat := 16
/-- Note queue capacity (R123). -/
abbrev notesMax : Nat := 4
/-- Untranslate list capacity (R122). -/
abbrev untranslatesMax : Nat := 64
/-- Transcript capacity (R128). -/
abbrev unitsMax : Nat := 2048
/-- Largest lock range (R139). -/
abbrev lockMax : Nat := 256
/-- Most readback entries (R145). -/
abbrev readbackMax : Nat := 64
/-- Change list capacity (R159). -/
abbrev changesMax : Nat := 16
/-- Transmit window (R174). -/
abbrev windowMax : Nat := 4
/-- Reply queue capacity (R185). -/
abbrev repliesMax : Nat := 16
/-- Notice queue capacity (R188). -/
abbrev noticesMax : Nat := 32
/-- AGED-TO: the largest DELAY, 120 s (R154). -/
abbrev agedLimit : Nat := 120000000
/-- The hold timer's time stops rising here (R117). -/
abbrev holdTimerMax : Nat := 5000000
/-- The largest resume-interval (R69): the time since RESUME need not be measured beyond it. -/
abbrev resumeTimerMax : Nat := 10000
/-- Probe interval (R179). -/
abbrev probeInterval : Nat := 1000000
/-- Largest gap between two bytes of a display reply (R176). -/
abbrev replyGap : Nat := 5000
/-- Largest gap between two bytes of a host frame (R184). -/
abbrev hostGap : Nat := 2000
/-- Bytes of a flash page and of a flash block (R55). -/
abbrev pageBytes : Nat := 256
abbrev blockBytes : Nat := 65536
/-- Longest payload of a host frame (R184). -/
abbrev hostPayloadMax : Nat := 1024

end Sys2Proof.Config
end

