-- ==== Sys2Proof/Syntax.lean ====
section
/-! DEFINITION. The commands of the part: one constructor per row of spec/opcode_table.json.

A host request carries the tag and the payload of the frame the receiver has accepted (R184, R185); the payload
is decoded by Section 11 when the command is executed. A line event carries the characters that arrive. -/

namespace Sys2Proof

/-- A writer position, its key link and its stroke former: A or B (paragraph 0.6.5). -/
inductive Pos | a | b
deriving DecidableEq, Repr

/-- A display port, 1 to 4 (paragraph 0.6.5). -/
inductive PortId | p1 | p2 | p3 | p4
deriving DecidableEq, Repr

/-- A feed, 0 to 4; feed 0 is the host stream (paragraph 0.5.37). -/
inductive FeedId | f0 | f1 | f2 | f3 | f4
deriving DecidableEq, Repr

/-- What STATUS-READ shows of the operation in progress (R55): BUSY, or ended, with or without an error, and then
what the memory holds in the span of a failed operation. -/
inductive FlashStatus
  | busy
  | ended (error : Bool) (left : List Host.Cell)
deriving DecidableEq, Repr

/-- The commands of the part (spec/opcode_table.json). -/
inductive Instr
  /-- POWER_ON (R195): release of the reset input or application of power. -/
  | powerOn
  /-- KEY_REPORT (R3): the characters that complete a four-byte key report arrive on a key link: four from HUNT, the missing ones in COLLECT. -/
  | keyReport (link : Pos) (chars : Bytes)
  /-- ERRORED_BYTE (R1): a character with a framing error arrives on a key link. -/
  | erroredByte (link : Pos)
  /-- BREAK (R5): the key link line has stood at the spacing level for longer than one character time. -/
  | breakDetected (link : Pos)
  /-- SILENCE_INTERVAL_EXPIRY (R6): 500 ms pass on an UP key link without a valid report. -/
  | silenceIntervalExpiry (link : Pos)
  /-- STROKE_LIMIT_EXPIRY (R15): the open stroke of a position reaches stroke-limit. -/
  | strokeLimitExpiry (pos : Pos)
  /-- WRITER_ENABLE (R23): host request 09h. -/
  | writerEnable (tag : Byte) (payload : Bytes)
  /-- HANDOVER (R29): host request 0Ah. -/
  | handover (tag : Byte) (payload : Bytes)
  /-- FLOOR_WAIT_EXPIRY (R31): the floor-wait timer reaches floor-wait during PASSING. -/
  | floorWaitExpiry
  /-- SYNC_PULSE (R43): a rising edge on SYNC-IN. -/
  | syncPulse
  /-- CAPTURE_EXPIRY (R43): more than 500 ms have passed since the edge of a CURRENT capture. -/
  | captureExpiry
  /-- SYNC_MARK (R44): host request 0Bh. -/
  | syncMark (tag : Byte) (payload : Bytes)
  /-- REBASE (R41): the time since the anchor reaches 2^31 µs. -/
  | rebase
  /-- PREVIOUS_SYNC_EXPIRY (R48): more than 10,000,000 µs have passed since the capture of PREVIOUS-SYNC. -/
  | previousSyncExpiry
  /-- HOLDOVER_EXPIRY (R49): 5 s pass on the holdover timer. -/
  | holdoverExpiry
  /-- MEMORY_READY (R57): STATUS-READ shows the note memory not BUSY while UNMOUNTED; `left` is what the memory holds in the spans of operations a power-on left unfinished. -/
  | memoryReady (left : List Host.Cell)
  /-- READ_COMPLETE (R62): the read being made ends. -/
  | readComplete
  /-- SUSPEND_LATENCY_EXPIRY (R63): suspend-latency has passed since SUSPEND; `status` is what STATUS-READ shows. -/
  | suspendLatencyExpiry (status : FlashStatus)
  /-- RESUME_INTERVAL_EXPIRY (R63): resume-interval has passed since the last RESUME. -/
  | resumeIntervalExpiry
  /-- PAGE_PROGRAM_END (R65): STATUS-READ shows a page program no longer BUSY, with or without PROGRAM-ERROR; `left` is what a failed program left in its span. -/
  | pageProgramEnd (error : Bool) (left : List Host.Cell)
  /-- BLOCK_ERASE_END (R65): STATUS-READ shows a block erase no longer BUSY, with or without ERASE-ERROR; `left` is what a failed erase left in its block. -/
  | blockEraseEnd (error : Bool) (left : List Host.Cell)
  /-- OPERATION_TIMEOUT (R65): the operation in progress has run for longer than program-max or erase-max while still BUSY. -/
  | operationTimeout
  /-- TIMEOUT_STILL_BUSY (R65): the memory is still BUSY when the same limit has passed again after a timeout. -/
  | timeoutStillBusy
  /-- STORE_RECOVER (R68): host request 12h. -/
  | storeRecover (tag : Byte) (payload : Bytes)
  /-- FORMAT_STORE (R69): host request 11h. -/
  | formatStore (tag : Byte) (payload : Bytes)
  /-- ERASE_REGION (R71): host request 10h. -/
  | eraseRegion (tag : Byte) (payload : Bytes)
  /-- LOG_AGE_EXPIRY (R75): the oldest record of the OPEN page has been held for log-age. -/
  | logAgeExpiry
  /-- LOG_READ (R77): host request 13h. -/
  | logRead (tag : Byte) (payload : Bytes)
  /-- LOG_FLUSH (R78): host request 14h. -/
  | logFlush (tag : Byte) (payload : Bytes)
  /-- ENTRY_LOOKUP (R88): host request 0Fh. -/
  | entryLookup (tag : Byte) (payload : Bytes)
  /-- ENTRY_ADD (R91): host request 0Dh. -/
  | entryAdd (tag : Byte) (payload : Bytes)
  /-- ENTRY_DELETE (R92): host request 0Eh. -/
  | entryDelete (tag : Byte) (payload : Bytes)
  /-- STROKE_TAKE (R103): the translator takes the front stroke of the LIVE queue. -/
  | strokeTake
  /-- HOLD_TIMER_EXPIRY (R117): the hold timer reaches hold-time. -/
  | holdTimerExpiry
  /-- DEFINE_SPEAKER (R121): host request 0Ch. -/
  | defineSpeaker (tag : Byte) (payload : Bytes)
  /-- INSERT_NOTE (R123): host request 15h. -/
  | insertNote (tag : Byte) (payload : Bytes)
  /-- FIRM_TIME_EXPIRY (R132): the oldest COMMITTED unit reaches firm-time. -/
  | firmTimeExpiry
  /-- OPEN_SESSION (R135): host request 07h. -/
  | openSession (tag : Byte) (payload : Bytes)
  /-- CLOSE_SESSION (R136): host request 08h. -/
  | closeSession (tag : Byte) (payload : Bytes)
  /-- LOCK (R139): host request 16h. -/
  | lock (tag : Byte) (payload : Bytes)
  /-- UNLOCK (R140): host request 17h. -/
  | unlock (tag : Byte) (payload : Bytes)
  /-- LOCK_TIMEOUT (R140): LOCK-TIMER reaches lock-timeout. -/
  | lockTimeout
  /-- EDIT_UNIT (R142): host request 18h. -/
  | editUnit (tag : Byte) (payload : Bytes)
  /-- RECLASSIFY (R144): host request 19h. -/
  | reclassify (tag : Byte) (payload : Bytes)
  /-- READBACK (R145): host request 1Ah. -/
  | readback (tag : Byte) (payload : Bytes)
  /-- READBACK_VISIT (R146): the readback search visits one unit. -/
  | readbackVisit
  /-- RELEASE_TIMER_EXPIRY (R154): the release timer of a DELAYED feed expires. -/
  | releaseTimerExpiry (feed : FeedId)
  /-- AGED_TO_EXPIRY (R154): the oldest held unit above AGED-TO reaches an age of 120 s. -/
  | agedToExpiry
  /-- FEED_REPAINT (R164): host request 1Bh. -/
  | feedRepaint (tag : Byte) (payload : Bytes)
  /-- GRANT (R173): the feed formatter makes a grant. -/
  | grant
  /-- FRAME_SENT (R175): the last byte of a display frame leaves the line. -/
  | frameSent (port : PortId)
  /-- ACK (R177): a complete ACK reply arrives from a display. -/
  | ack (port : PortId) (seq : Byte)
  /-- RESYNC (R181): a complete RESYNC reply arrives from a display. -/
  | resync (port : PortId) (seq : Byte)
  /-- MALFORMED_REPLY (R176): the characters `chars`, and one with a framing error when `errored`, arrive on a display's return line and make the reply in progress malformed. -/
  | malformedReply (port : PortId) (chars : Bytes) (errored : Bool)
  /-- REPLY_GAP_TIMEOUT (R176): the characters `chars` arrive and then more than 5 ms pass. -/
  | replyGapTimeout (port : PortId) (chars : Bytes)
  /-- ACK_TIMEOUT (R178): the oldest SENT frame reaches feed-n-ack-timeout. -/
  | ackTimeout (port : PortId)
  /-- PROBE_TIMER_EXPIRY (R179): the probe timer of a STALLED port expires. -/
  | probeTimerExpiry (port : PortId)
  /-- HOST_FRAMING_ERROR (R184): the characters `chars` and then one with a framing error arrive on the host link. -/
  | hostFramingError (chars : Bytes)
  /-- HOST_GAP_TIMEOUT (R184): the characters `chars` arrive and then more than 2 ms pass. -/
  | hostGapTimeout (chars : Bytes)
  /-- FRAME_DISCARDED (R184): the characters `chars` of a host frame arrive, up to the byte at which its length or check is found bad. -/
  | frameDiscarded (chars : Bytes)
  /-- BAD_KIND (R185): a received host frame whose kind is not a request kind. -/
  | badKind (tag : Byte) (kind : Byte) (payload : Bytes)
  /-- HOST_FRAME_SENT (R187): the last byte of a host frame leaves the line. -/
  | hostFrameSent
  /-- CLEAR_CONDITION (R190): host request 05h. -/
  | clearCondition (tag : Byte) (payload : Bytes)
  /-- SET (R191): host request 02h. -/
  | setSetting (tag : Byte) (payload : Bytes)
  /-- GET (R191): host request 03h. -/
  | getSetting (tag : Byte) (payload : Bytes)
  /-- IDENTIFY (R192): host request 01h. -/
  | identify (tag : Byte) (payload : Bytes)
  /-- STATUS (R193): host request 04h. -/
  | status (tag : Byte) (payload : Bytes)
  /-- RESTART (R194): host request 06h. -/
  | restart (tag : Byte) (payload : Bytes)
  /-- BREAK_END (R5): the key link line returns to the marking level after a break. -/
  | breakEnd (link : Pos)
  /-- LEAD_BYTE (R2): a lead byte arrives on a key link and begins a report. -/
  | leadByte (link : Pos) (char : Byte)
deriving DecidableEq, Repr

/-- The request kinds a host frame may carry: codes 01h to 1Bh (paragraph 11.4). -/
def isRequestKind (kind : Byte) : Bool := decide (1 ≤ kind.toNat ∧ kind.toNat ≤ 27)

end Sys2Proof
end

