-- ==== Sys2Proof/Machine/State.lean ====
section
/-! DEFINITION. The state of the part: every register, queue, buffer, counter, mode and flag the spec names, block by
block, as plain data, and its value after power-on. -/

namespace Sys2Proof.Machine

/-! ### Small collections of fixed size -/

/-- One value for each writer position. -/
structure Two (α : Type) where
  a : α
  b : α
deriving DecidableEq, Repr

/-- One value for each display port. -/
structure Four (α : Type) where
  p1 : α
  p2 : α
  p3 : α
  p4 : α
deriving DecidableEq, Repr

/-- One value for each feed. -/
structure Five (α : Type) where
  f0 : α
  f1 : α
  f2 : α
  f3 : α
  f4 : α
deriving DecidableEq, Repr

/-! ### Section 1: key links and stroke formers -/

/-- Link state (paragraph 1.3). -/
inductive LinkState | up | down
deriving DecidableEq, Repr

/-- Assembly state of a key link receiver (R2): HUNT, or COLLECT with the bytes held. -/
inductive KeyRx
  | hunt
  | collect (held : Bytes)
deriving DecidableEq, Repr

/-- A key link receiver (R9). -/
structure KeyLink where
  rx : KeyRx
  /-- a break is detected and the line still stands at the spacing level (R1) -/
  inBreak : Bool
  link : LinkState
  /-- LAST-REPORT, none until a valid report (R3, R7) -/
  lastReport : Option Keys
  /-- the arrival from which the silence interval runs (R6) -/
  silenceFrom : Option LocalTime
  damagedReports : Count
  framingErrors : Count
  linkDowns : Count
deriving DecidableEq, Repr

/-- The open stroke (paragraph 1.4). -/
structure OpenStroke where
  keys : Keys
  openTime : LocalTime
  timecode : Nat
  damaged : Bool
  held : Bool
  inSession : Bool
deriving DecidableEq, Repr

/-- A stroke former (paragraph 1.4, R21). -/
structure Former where
  openStroke : Option OpenStroke
  latched : Keys
  closed : Count
  discarded : Count
  heldCloses : Count
  damagedCloses : Count
deriving DecidableEq, Repr

/-- A stroke record: a closed, numbered stroke (paragraph 1.4). -/
structure StrokeRec where
  pos : Pos
  keys : Keys
  openTime : LocalTime
  timecode : Nat
  seq : Count
  damaged : Bool
  held : Bool
  unlogged : Bool
deriving DecidableEq, Repr

/-! ### Section 2: positions and the floor -/

/-- STATE of a position (paragraph 2.1). -/
inductive PosState | off | down | shadow | requesting | live
deriving DecidableEq, Repr

/-- A position record (paragraph 2.1). TAKE is the setting take-outline-x. -/
structure PosRec where
  state : PosState
  queue : List StrokeRec
  pending : Option StrokeRec
  relayDrops : Count
  overflowDrops : Count
  strokesQueued : Count
deriving DecidableEq, Repr

/-- The floor state (R24). -/
inductive FloorState | vacant | held | passing
deriving DecidableEq, Repr

/-- The floor controller (R24, R37). -/
structure Floor where
  pos : Two PosRec
  state : FloorState
  /-- the moment PASSING began, from which floor-wait runs (R24) -/
  waitFrom : Option LocalTime
  cleanPasses : Count
  forcedPasses : Count
  cancelledPasses : Count
  floorLosses : Count
deriving DecidableEq, Repr

/-- CAUSE of a floor change, in the order of R36. -/
inductive FloorCause
  | sessionOpen | firstStroke | takeStroke | handover | cleanPass | forcedWait | forcedOverflow | cancel | liveLost | release
deriving DecidableEq, Repr

/-! ### Section 3: the time base -/

/-- The mark of CAPTURE (R43). -/
inductive CaptureMark | none | current | expired
deriving DecidableEq, Repr

/-- SYNC-STATE (paragraph 3.5). -/
inductive SyncState | unlocked | locked | holdover
deriving DecidableEq, Repr

/-- EVENT of a TIME notice (R51). -/
inductive TimeEvent | lock | step | holdover | recover
deriving DecidableEq, Repr

/-- The time base (paragraph 3.2, R52, R54). -/
structure TimeBase where
  now : LocalTime
  anchorAt : LocalTime
  anchorCode : Nat
  rate : Nat
  lastStamp : Nat
  prevAt : LocalTime
  prevCode : Nat
  prevValid : Bool
  captureAt : LocalTime
  capture : CaptureMark
  sync : SyncState
  holdoverFrom : Option LocalTime
  syncPulses : Count
  capturesReplaced : Count
  syncAccepted : Count
  syncLate : Count
  syncNoCapture : Count
  steps : Count
  rateUpdates : Count
  rateClamps : Count
  heldStamps : Count
  rebases : Count
deriving DecidableEq, Repr

/-! ### Section 4: the note memory, the store controller and the log writer -/

/-- A dictionary, which is also the name of its region (R80). -/
inductive Dict | j | pa | pb
deriving DecidableEq, Repr

/-- A program or erase as the memory performs it (R55): addresses count bytes from 0. -/
inductive FlashOp
  | program (addr : Nat) (data : Bytes)
  | erase (block : Nat)
deriving DecidableEq, Repr

/-- The note memory (R55). `cells` lists the bytes that are not erased, addresses strictly rising. -/
structure Flash where
  cells : List Host.Cell
  /-- MODEL: operations a power-on left unfinished; the memory settles their spans by itself -/
  orphans : List FlashOp
deriving DecidableEq, Repr

/-- The store state (R57). -/
inductive StoreState | unmounted | mounting | unformatted | ready | formatting | fault
deriving DecidableEq, Repr

/-- A region state (R58). -/
inductive RegionState | ready | erasing | blankNeeded
deriving DecidableEq, Repr

/-- The start block and the length in blocks of a region (R56). -/
structure Span where
  start : Nat
  len : Nat
deriving DecidableEq, Repr

/-- Capacity and region table of the store header (R56). -/
structure Header where
  capacity : Nat
  log : Span
  j : Span
  pa : Span
  pb : Span
deriving DecidableEq, Repr

/-- The four timing values of the header (R55): µs, ms, µs, µs. -/
structure Timing where
  programMax : Nat
  eraseMax : Nat
  suspendLatency : Nat
  resumeInterval : Nat
deriving DecidableEq, Repr

/-- A region's state and append point (R58): a byte offset for a dictionary, a page for LOG. -/
structure Region where
  state : RegionState
  append : Option Nat
deriving DecidableEq, Repr

/-- A dictionary record program (R95): its place in the region, its bytes, and the bucket it enters. -/
structure DictProg where
  dict : Dict
  offset : Nat
  data : Bytes
  bucket : Nat
  isPrefix : Bool
  /-- it has been relocated (R66) -/
  relocated : Bool
  /-- its operation has been discarded: its success is not entered (R95, R99, R101) -/
  discarded : Bool
deriving DecidableEq, Repr

/-- A step of a format or region erase (R70, R71). `again` steps erase the first block once more before the program
they lead to is retried (R68). -/
inductive JobStep
  | erase (block : Nat)
  | header
  | ready (d : Dict)
  | againHeader
  | againReady (d : Dict)
deriving DecidableEq, Repr

/-- What the erase continuation belongs to (R62): a format, with the header it will write, or a region erase. -/
inductive JobKind
  | format (h : Header) (t : Timing)
  | region (d : Dict)
deriving DecidableEq, Repr

/-- The erase continuation (R62 kind 4). -/
structure Job where
  kind : JobKind
  step : JobStep
deriving DecidableEq, Repr

/-- The block or work an operation was started for; `abandoned`: its end is not acted on, because a format waits for it
(R69) or because the store has already entered FAULT on it (R65). -/
inductive Work
  | logPage
  | dictRecord (p : DictProg)
  | job
  | abandoned
deriving DecidableEq, Repr

/-- An operation in progress or suspended: what the memory does, for whom, the time it has run unsuspended since it
began or since its timeout was counted, and whether the timeout has been counted (R65). -/
structure Running where
  op : FlashOp
  work : Work
  ran : Nat
  timedOut : Bool
deriving DecidableEq, Repr

/-- The work a FAULT keeps for STORE-RECOVER (R67). `noRoom`: its relocation could not be made for lack of a page. -/
inductive FailedWork
  | logPage (noRoom : Bool)
  | dictRecord (p : DictProg)
  | job
deriving DecidableEq, Repr

/-- The client of a dictionary lookup (R85): a run of the translator's work list in one dictionary, ENTRY-LOOKUP, or
the drain of an addition. -/
inductive Client
  | run (first last : Nat) (d : Dict)
  | request
  | drain
deriving DecidableEq, Repr

/-- The block a read of the note memory is made for (R62 kind 1); `dropped`: nobody waits for it any more. -/
inductive ReadFor
  | mount
  | lookup (c : Client)
  | logRead
  | dropped
deriving DecidableEq, Repr

/-- What mount reads next (R59 to R61). -/
inductive MountPhase
  | idle
  | header
  | dict (d : Dict)
  | log
deriving DecidableEq, Repr

/-- A LOG-READ in flight (R77): the first slot, how many slots it returns, and the slots taken so far. -/
structure LogReading where
  tag : Byte
  index : Nat
  count : Nat
  slots : List Bytes
deriving DecidableEq, Repr

/-- The store controller (R57, R58, R62, R72). -/
structure Store where
  state : StoreState
  header : Option Header
  timing : Option Timing
  log : Region
  j : Region
  pa : Region
  pb : Region
  inProgress : Option Running
  suspended : Option Running
  /-- SUSPEND has been issued at this time and suspend-latency has not passed (R63) -/
  suspendAt : Option LocalTime
  /-- µs since the last RESUME, up to the largest resume-interval; none before the first -/
  sinceResume : Option Nat
  reading : Option ReadFor
  waiting : List ReadFor
  /-- the first buffer page's relocation or retry waits or runs (R66, R68) -/
  logRelocated : Bool
  /-- the dictionary record programs that wait to be started, in order (R62 kind 3) -/
  dictWork : List DictProg
  job : Option Job
  failed : Option FailedWork
  /-- the work a STORE-RECOVER retries (R68) -/
  recovering : Option FailedWork
  mount : MountPhase
  formatTag : Option Byte
  eraseTag : Option Byte
  recoverTag : Option Byte
  logRead : Option LogReading
  reads : Count
  programs : Count
  erases : Count
  suspends : Count
  relocations : Count
  programFailures : Count
  eraseFailures : Count
  timeouts : Count
  tornRecords : Count
  tornPages : Count
deriving DecidableEq, Repr

/-- The state of an occupied log buffer page (R73); a FREE page is not listed. -/
inductive PageState | opened | waiting | programming
deriving DecidableEq, Repr

/-- An occupied log buffer page (R73). -/
structure BufPage where
  state : PageState
  /-- the assigned page, counted within the log region -/
  page : Nat
  /-- its records, 16 bytes each, in slot order -/
  records : List Bytes
  /-- the local counter when its first record was taken -/
  since : LocalTime
deriving DecidableEq, Repr

/-- The flush the log writer reports the end of (R75). -/
inductive Flush | none | close | restart
deriving DecidableEq, Repr

/-- The log writer (R73, R79). -/
structure LogWriter where
  /-- the occupied pages, oldest first -/
  pages : List BufPage
  unloggedCount : Count
  recordsRefused : Count
  /-- LOG-FLUSH awaiting its COMPLETION: its tag and how many pages must still leave the buffer (R78) -/
  flushTag : Option (Byte × Nat)
  flush : Flush
deriving DecidableEq, Repr

/-! ### Section 5: dictionaries -/

/-- A bucket that has records: HEAD and COUNT (R83). A bucket not listed has HEAD none and COUNT 0. -/
structure Bucket where
  index : Nat
  head : Nat
  count : Nat
deriving DecidableEq, Repr

/-- What a DRAINING operation programs or checks next (R89). -/
inductive DrainNext
  | pfx (len : Nat)
  | entry
  | tombstone
deriving DecidableEq, Repr

/-- A staged operation (R89). -/
structure StagedOp where
  dict : Dict
  /-- the text of an ADD; none for a DELETE -/
  text : Option Bytes
  outline : List Nat
  draining : Bool
  next : DrainNext
  /-- bucket and bytes reserved for each record still to be programmed (R90) -/
  reserves : List (Nat × Nat)
deriving DecidableEq, Repr

/-- A lookup in flight (R85, R86). -/
structure Lookup where
  client : Client
  dict : Dict
  outline : List Nat
  bucket : Nat
  /-- the text result once decided -/
  decided : Option (Option Bytes)
  /-- it was decided by the staging scan -/
  byStaging : Bool
  longer : Bool
  /-- the walk has met a PREFIX record for the outline (R96) -/
  prefixMet : Bool
  /-- the region offset of the record to be read next -/
  next : Nat
  reads : Nat
deriving DecidableEq, Repr

/-- One dictionary (R80). REGION-STATE, APPEND and END are the store controller's. -/
structure DictRec where
  directory : List Bucket
  stalled : Bool
deriving DecidableEq, Repr

/-- The dictionary block (R80, R101). -/
structure Dictionary where
  j : DictRec
  pa : DictRec
  pb : DictRec
  staging : List StagedOp
  lookups : List Lookup
  lookupTag : Option Byte
  lookupsDone : Count
  recordsRead : Count
  chainErrors : Count
  addsStaged : Count
  deletesStaged : Count
  recordsProgrammed : Count
  prefixesWritten : Count
  opsDrained : Count
  roomStalls : Count
  stagedCleared : Count
deriving DecidableEq, Repr

/-! ### Section 6: the translator -/

/-- A content class (paragraph 0.5.36). -/
inductive Cls | record | bench | sealed | offRecord
deriving DecidableEq, Repr

/-- The format state (paragraph 6.4). -/
structure Fmt where
  capNext : Bool
  lowerNext : Bool
  attachNext : Bool
  paraPending : Bool
  speaker : Nat
  cls : Cls
deriving DecidableEq, Repr

/-- The result of one lookup of a run of the work list (R104). -/
structure RunResult where
  first : Nat
  last : Nat
  dict : Dict
  text : Option Bytes
  longer : Bool
deriving DecidableEq, Repr

/-- The stroke in flight, its work list and the results gathered (R103, R104). -/
structure InFlight where
  stroke : StrokeRec
  work : List StrokeRec
  results : List RunResult
deriving DecidableEq, Repr

/-- A queued note (R123). -/
structure Note where
  tag : Byte
  text : Bytes
  cls : Cls
deriving DecidableEq, Repr

/-- The translator (paragraph 6.1, R125, R126). -/
structure Translator where
  inFlight : Option InFlight
  hold : List StrokeRec
  base : Fmt
  /-- the state left by the newest PROVISIONAL unit, BASE when there is none (R110) -/
  after : Fmt
  /-- the time run in µs; none when stopped (R117) -/
  timer : Option Nat
  expiryPending : Bool
  resolvePending : Bool
  /-- the labels of speakers 1 to 32 -/
  speakers : List Bytes
  /-- unit number and stroke value, oldest first (R122) -/
  untranslates : List (Nat × Nat)
  notes : List Note
  strokesTaken : Count
  lookupsAsked : Count
  recomputes : Count
  retractions : Count
  unitsCommitted : Count
  holdExpiries : Count
  forcedResolutions : Count
  undos : Count
  undosInHold : Count
  undosBlocked : Count
  numbers : Count
  untranslatesMade : Count
  badCommands : Count
  untranslatesDropped : Count
  notesInserted : Count
deriving DecidableEq, Repr

/-! ### Section 7: the transcript -/

/-- KIND of a unit (R127). -/
inductive UnitKind | word | untranslate | number | speakerLabel | command | note
deriving DecidableEq, Repr

/-- STATE of a unit (R127). -/
inductive UnitState | provisional | committed | firm
deriving DecidableEq, Repr

/-- SOURCE of a unit (R127). -/
inductive Source | j | pa | pb | number | none
deriving DecidableEq, Repr

/-- A unit of the transcript (R127). -/
structure TUnit where
  number : Nat
  kind : UnitKind
  state : UnitState
  /-- none for a NOTE -/
  pos : Option Pos
  firstSeq : Option Count
  outline : List Nat
  text : Bytes
  /-- JOIN; otherwise SPACE -/
  join : Bool
  paragraphStart : Bool
  cls : Cls
  speaker : Nat
  timecode : Nat
  commitTime : Option LocalTime
  snapshot : Fmt
  source : Source
  suspect : Bool
  unlogged : Bool
  edited : Bool
  globaled : Bool
deriving DecidableEq, Repr

/-- SESSION-STATE (R134). -/
inductive SessionState | closed | opened | closing
deriving DecidableEq, Repr

/-- The edit lock (R139): the range and the moment LOCK-TIMER last restarted. -/
structure EditLock where
  first : Nat
  last : Nat
  since : LocalTime
deriving DecidableEq, Repr

/-- The criterion of a READBACK (R145). -/
inductive Criterion
  | speaker (n : Nat)
  | word (w : Bytes)
deriving DecidableEq, Repr

/-- The readback search (R145): `start` none while in the SEARCH phase. -/
structure Search where
  tag : Byte
  criterion : Criterion
  before : Nat
  most : Nat
  collecting : Bool
  cursor : Nat
  start : Option Nat
  list : List Nat
deriving DecidableEq, Repr

/-- The transcript manager (R128, R134, R149). -/
structure Transcript where
  units : List TUnit
  nextNumber : Nat
  session : SessionState
  jobNumber : Option Nat
  sessionNumber : Option Nat
  epoch : Option Nat
  startingPos : Option Pos
  /-- the translator has reported the hold list resolved during CLOSING (R137) -/
  resolved : Bool
  closeTag : Option Byte
  lock : Option EditLock
  search : Option Search
  unitsCreated : Count
  unitsRetracted : Count
  unitsFirmed : Count
  unitsFreed : Count
  edits : Count
  unitsReclassified : Count
  locksGranted : Count
  lockTimeouts : Count
  locksBroken : Count
  readbacks : Count
deriving DecidableEq, Repr

/-! ### Sections 8 and 9: feeds, formatter and display ports -/

/-- TIER of a feed (R150). -/
inductive Tier | live | settled | delayed
deriving DecidableEq, Repr

/-- STATE of a feed (R151). -/
inductive FeedState | off | active | repaint | stalled
deriving DecidableEq, Repr

/-- A change note (R158). -/
inductive ChangeNote
  | retractFrom (n : Nat)
  | replace (n : Nat)
  | redact (n : Nat)
  | confirm (n : Nat)
deriving DecidableEq, Repr

/-- ENTRY-KIND of a SHOWN entry (R152). -/
inductive EntryKind | provisional | final | gap | redacted
deriving DecidableEq, Repr

/-- An entry of a SHOWN table (R152). -/
structure ShownEntry where
  number : Nat
  kind : EntryKind
  cls : Cls
deriving DecidableEq, Repr

/-- A feed record (R150). TIER, MASK, DELAY and DEPTH are the feed's settings. -/
structure Feed where
  state : FeedState
  /-- D, the delivered cursor -/
  cursor : Nat
  changes : List ChangeNote
  shown : List ShownEntry
  /-- GAP-OWED with the number of the unit that caused it -/
  gapOwed : Option (Cls × Nat)
  clearOwed : Bool
  beginOwed : Bool
  repaintTail : Option Nat
  addsSent : Count
  notesSent : Count
  gapsSent : Count
  repaints : Count
  laps : Count
  overflows : Count
  clears : Count
deriving DecidableEq, Repr

/-- A display frame by kind, with its contents (paragraphs 9.2 and 11.5). -/
inductive Frame
  | clear
  | add (number : Nat) (cls : Cls) (speaker : Nat) (join paragraphStart provisional suspect : Bool) (text : Bytes)
  | retractFrom (number : Nat)
  | replace (number : Nat) (cls : Cls) (join : Bool) (text : Bytes)
  | redact (number : Nat)
  | confirm (number : Nat)
  | gap (cls : Cls) (number : Nat)
  | repaintBegin (tail : Nat)
  | repaintEnd
  | probe
deriving DecidableEq, Repr

/-- The feed manager (R150, R154). -/
structure FeedManager where
  feeds : Five Feed
  agedTo : Nat
deriving DecidableEq, Repr

/-- A member of the HIGH list (R171). -/
inductive Member
  | feed (f : FeedId)
  | low
deriving DecidableEq, Repr

/-- The feed formatter (R171, R183). -/
structure Formatter where
  high : List Member
  low : List FeedId
  grants : Five Count
deriving DecidableEq, Repr

/-- PORT-STATE (R174). -/
inductive PortState | off | running | stalled
deriving DecidableEq, Repr

/-- A frame of a WINDOW: PENDING while `sentAt` is none, then SENT (R174). -/
structure WinFrame where
  seq : Byte
  frame : Frame
  sentAt : Option LocalTime
deriving DecidableEq, Repr

/-- The reply receiver of a port (R176). -/
inductive ReplyRx
  | hunt
  | collect (held : Bytes) (lastAt : LocalTime)
deriving DecidableEq, Repr

/-- The frame a port is transmitting; `inWindow` while the frame still stands in WINDOW (R175, R178). -/
structure Sending where
  seq : Byte
  frame : Frame
  inWindow : Bool
deriving DecidableEq, Repr

/-- A display port (R174, R183). -/
structure Port where
  state : PortState
  nextSeq : Byte
  window : List WinFrame
  probeSeq : Option Byte
  /-- the moment from which the probe timer runs -/
  probeFrom : Option LocalTime
  /-- sequence numbers of PROBEs formed and waiting for the line -/
  probesWaiting : List Byte
  sending : Option Sending
  rx : ReplyRx
  /-- the line rate in force (R175) -/
  rate : Nat
  framesSent : Count
  framesAcked : Count
  framesLost : Count
  strayAcks : Count
  badReplies : Count
  stalls : Count
  recoveries : Count
  probes : Count
  resyncs : Count
deriving DecidableEq, Repr

/-! ### Section 10: host link, settings and conditions -/

/-- The reasons of a refusal or a failure, in the order of R186. -/
inductive Reason
  | busy | badKind | badLength | badValue | notMounted | unformatted | sessionOpen | noSession | regionState | regionFull
  | bucketFull | stagingFull | tooLong | range | lockHeld | notLocked | released | noCapture | late | stillActive | storeFault
deriving DecidableEq, Repr

/-- The result of a reply (R186); the result data of DONE is encoded by R196. -/
inductive Result
  | done (data : Bytes)
  | accepted
  | refused (r : Reason)
deriving DecidableEq, Repr

/-- What the end of a reply's transmission brings about: nothing, a change of host-rate (R187), the taking of
RESTART (R194). -/
inductive AfterSent
  | nothing
  | rate (baud : Nat)
  | restart
deriving DecidableEq, Repr

/-- A formed reply (R186). -/
structure Reply where
  tag : Byte
  result : Result
  after : AfterSent
deriving DecidableEq, Repr

/-- The conditions, in table order (R189). -/
inductive Cond
  | keyLinkDown (p : Pos)
  | floorVacant | syncHoldover | syncUnlocked | logNearlyFull | logFull | unloggedStrokes | storeFault
  | feedStalled (p : PortId)
  | noticeOverflow | lockBroken
deriving DecidableEq, Repr

/-- An entry of the condition table (R189), with the RAISES count. -/
structure CondEntry where
  set : Bool
  cause : Bool
  reportOwed : Bool
  raises : Count
deriving DecidableEq, Repr

/-- The condition table (R189). -/
structure Conditions where
  keyLink : Two CondEntry
  floorVacant : CondEntry
  syncHoldover : CondEntry
  syncUnlocked : CondEntry
  logNearlyFull : CondEntry
  logFull : CondEntry
  unloggedStrokes : CondEntry
  storeFault : CondEntry
  feedStalled : Four CondEntry
  noticeOverflow : CondEntry
  lockBroken : CondEntry
deriving DecidableEq, Repr

/-- Why an undo is blocked (R120). -/
inductive UndoBlock | empty | firm | otherPosition | locked
deriving DecidableEq, Repr

/-- A notice (R188). -/
inductive Notice
  /-- request kind, DONE (none) or FAILED with a reason, part number, LAST, result data (R186) -/
  | completion (tag : Byte) (kind : Byte) (failed : Option Reason) (part : Nat) (last : Bool) (data : Bytes)
  /-- EVENT is RAISED, or CAUSE-ENDED (R189) -/
  | condition (c : Cond) (raised : Bool) (set cause : Bool) (stamp : Nat)
  /-- FLOOR, LIVE, REQUESTING, CAUSE, DROPPED, TIMECODE (R36) -/
  | floor (floor : FloorState) (live requesting : Option Pos) (cause : FloorCause) (dropped : Nat) (timecode : Nat)
  /-- EVENT, SYNC-STATE, ERROR, ANCHOR-TIMECODE, RATE, STEPS, TIMECODE (R51) -/
  | time (event : TimeEvent) (sync : SyncState) (error : Int) (anchorCode rate : Nat) (steps : Count) (timecode : Nat)
  /-- position, stroke sequence number, reason, newest unit, TIMECODE (R120) -/
  | undoBlocked (pos : Pos) (seq : Count) (reason : UndoBlock) (number : Option Nat) (timecode : Nat)
  /-- position, sequence number, stroke value, timecode, flags (R20) -/
  | stroke (pos : Pos) (seq : Option Count) (keys : Keys) (timecode : Nat) (damaged held unlogged : Bool)
deriving DecidableEq, Repr

/-- The frame the host transmitter is sending (R187). -/
inductive TxFrame
  | reply (r : Reply)
  | notice (n : Notice)
  | text (f : Frame)
deriving DecidableEq, Repr

/-- The receiver of the host link (R184): the bytes of the frame in progress, from its C3h, and when the last came. -/
inductive HostRx
  | hunt
  | frame (held : Bytes) (lastAt : LocalTime)
deriving DecidableEq, Repr

/-- The controller's state (R194): NORMAL; RESTARTING from the taking of the request; RESTARTING after its DONE has
been sent; RESTARTING after the flush has been reported. -/
inductive HostPhase | normal | restarting | windingDown | draining
deriving DecidableEq, Repr

/-- The settings of one feed (paragraph 10.4). Those of feed 0 other than enable and group are fixed (R150). -/
structure FeedSettings where
  enable : Bool
  tier : Tier
  /-- bit c set for each class c accepted -/
  mask : BitVec 4
  delay : Nat
  depth : Nat
  ackTimeout : Nat
  rate : Nat
  /-- HIGH; otherwise LOW -/
  high : Bool
deriving DecidableEq, Repr

/-- The settings (paragraph 10.4), in the units of the table. -/
structure Settings where
  holdTime : Nat
  undoDepth : Nat
  firmTime : Nat
  strokeLimit : Nat
  floorWait : Nat
  takeOutline : Two Nat
  lockTimeout : Nat
  logAge : Nat
  capAfterParagraph : Bool
  strokeEcho : Bool
  hostRate : Nat
  feed : Five FeedSettings
deriving DecidableEq, Repr

/-- The host link controller (R195). -/
structure HostLink where
  phase : HostPhase
  rx : HostRx
  /-- the line rate in force (R187) -/
  rate : Nat
  replies : List Reply
  notices : List Notice
  textPlace : Option Frame
  sending : Option TxFrame
  framesReceived : Count
  requestsTaken : Count
  discards : Count
  framingErrors : Count
  overruns : Count
  repliesSent : Count
  noticesSent : Count
  textSent : Count
  noticesDropped : Count
  sets : Count
deriving DecidableEq, Repr

/-! ### The whole part -/

/-- The state of the part and the queue of the commands that are waiting. -/
structure State where
  links : Two KeyLink
  formers : Two Former
  /-- the stroke sequence counter (R19) -/
  seqCounter : Count
  floor : Floor
  time : TimeBase
  flash : Flash
  store : Store
  log : LogWriter
  dict : Dictionary
  trans : Translator
  script : Transcript
  feeds : FeedManager
  fmt : Formatter
  ports : Four Port
  host : HostLink
  conds : Conditions
  settings : Settings
  /-- commands waiting, first in first out -/
  pending : List Instr
deriving DecidableEq, Repr

/-- Reasons the machine stops with a fault. No command of the part stops: the spec gives every event and request an
effect, so the type has no constructor. -/
inductive Fault
deriving DecidableEq, Repr

/-- Reasons a command is not run. -/
inductive Refusal
  /-- raised only by an arm of `exec` whose command has no meaning yet (none is left); safe -/
  | notModelled (mnemonic : String)
deriving DecidableEq, Repr

/-! ### Values after power-on -/

/-- R9. -/
def KeyLink.reset : KeyLink :=
  { rx := .hunt, inBreak := false, link := .down, lastReport := none, silenceFrom := none,
    damagedReports := 0, framingErrors := 0, linkDowns := 0 }

/-- R21. -/
def Former.reset : Former :=
  { openStroke := none, latched := 0, closed := 0, discarded := 0, heldCloses := 0, damagedCloses := 0 }

/-- R35. -/
def PosRec.reset : PosRec :=
  { state := .down, queue := [], pending := none, relayDrops := 0, overflowDrops := 0, strokesQueued := 0 }

/-- R35. -/
def Floor.reset : Floor :=
  { pos := ⟨.reset, .reset⟩, state := .vacant, waitFrom := none, cleanPasses := 0, forcedPasses := 0,
    cancelledPasses := 0, floorLosses := 0 }

/-- R54. The local time of a CAPTURE of mark NONE is not used: DESIGN CHOICE 0. -/
def TimeBase.reset : TimeBase :=
  { now := 0, anchorAt := 0, anchorCode := 0, rate := 16777216, lastStamp := 0, prevAt := 0, prevCode := 0,
    prevValid := false, captureAt := 0, capture := .none, sync := .unlocked, holdoverFrom := none, syncPulses := 0,
    capturesReplaced := 0, syncAccepted := 0, syncLate := 0, syncNoCapture := 0, steps := 0, rateUpdates := 0,
    rateClamps := 0, heldStamps := 0, rebases := 0 }

/-- R58, R72: BLANK-NEEDED, no append point. -/
def Region.blank : Region := { state := .blankNeeded, append := none }

/-- R72. -/
def Store.reset : Store :=
  { state := .unmounted, header := none, timing := none, log := .blank, j := .blank, pa := .blank, pb := .blank,
    inProgress := none, suspended := none, suspendAt := none, sinceResume := none, reading := none, waiting := [],
    logRelocated := false, dictWork := [], job := none, failed := none, recovering := none, mount := .idle,
    formatTag := none, eraseTag := none, recoverTag := none, logRead := none, reads := 0, programs := 0, erases := 0,
    suspends := 0, relocations := 0, programFailures := 0, eraseFailures := 0, timeouts := 0, tornRecords := 0,
    tornPages := 0 }

/-- R79. -/
def LogWriter.reset : LogWriter :=
  { pages := [], unloggedCount := 0, recordsRefused := 0, flushTag := none, flush := .none }

/-- R101. -/
def Dictionary.reset : Dictionary :=
  { j := ⟨[], false⟩, pa := ⟨[], false⟩, pb := ⟨[], false⟩, staging := [], lookups := [], lookupTag := none,
    lookupsDone := 0, recordsRead := 0, chainErrors := 0, addsStaged := 0, deletesStaged := 0, recordsProgrammed := 0,
    prefixesWritten := 0, opsDrained := 0, roomStalls := 0, stagedCleared := 0 }

/-- The format state of paragraph 6.4. -/
def Fmt.reset : Fmt :=
  { capNext := false, lowerNext := false, attachNext := false, paraPending := false, speaker := 0, cls := .record }

/-- R125. -/
def Translator.reset : Translator :=
  { inFlight := none, hold := [], base := .reset, after := .reset, timer := none, expiryPending := false,
    resolvePending := false, speakers := List.replicate 32 [], untranslates := [], notes := [], strokesTaken := 0,
    lookupsAsked := 0, recomputes := 0, retractions := 0, unitsCommitted := 0, holdExpiries := 0,
    forcedResolutions := 0, undos := 0, undosInHold := 0, undosBlocked := 0, numbers := 0, untranslatesMade := 0,
    badCommands := 0, untranslatesDropped := 0, notesInserted := 0 }

/-- R138. -/
def Transcript.reset : Transcript :=
  { units := [], nextNumber := 1, session := .closed, jobNumber := none, sessionNumber := none, epoch := none,
    startingPos := none, resolved := false, closeTag := none, lock := none, search := none, unitsCreated := 0,
    unitsRetracted := 0, unitsFirmed := 0, unitsFreed := 0, edits := 0, unitsReclassified := 0, locksGranted := 0,
    lockTimeouts := 0, locksBroken := 0, readbacks := 0 }

/-- R170: the record of a feed of the given STATE after power-on. -/
def Feed.reset (st : FeedState) : Feed :=
  { state := st, cursor := 0, changes := [], shown := [], gapOwed := none, clearOwed := false, beginOwed := false,
    repaintTail := none, addsSent := 0, notesSent := 0, gapsSent := 0, repaints := 0, laps := 0, overflows := 0,
    clears := 0 }

/-- R170. -/
def FeedManager.reset : FeedManager :=
  { feeds := ⟨.reset .active, .reset .off, .reset .off, .reset .off, .reset .off⟩, agedTo := 0 }

/-- R171, R183. -/
def Formatter.reset : Formatter :=
  { high := [.feed .f0, .feed .f1, .low], low := [.f2, .f3, .f4], grants := ⟨0, 0, 0, 0, 0⟩ }

/-- R183. -/
def Port.reset : Port :=
  { state := .off, nextSeq := 0, window := [], probeSeq := none, probeFrom := none, probesWaiting := [],
    sending := none, rx := .hunt, rate := 38400, framesSent := 0, framesAcked := 0, framesLost := 0, strayAcks := 0,
    badReplies := 0, stalls := 0, recoveries := 0, probes := 0, resyncs := 0 }

/-- R195: every flag no and RAISES 0. -/
def CondEntry.reset : CondEntry := { set := false, cause := false, reportOwed := false, raises := 0 }

/-- R195, before the causes present at power-on are reported. -/
def Conditions.reset : Conditions :=
  { keyLink := ⟨.reset, .reset⟩, floorVacant := .reset, syncHoldover := .reset, syncUnlocked := .reset,
    logNearlyFull := .reset, logFull := .reset, unloggedStrokes := .reset, storeFault := .reset,
    feedStalled := ⟨.reset, .reset, .reset, .reset⟩, noticeOverflow := .reset, lockBroken := .reset }

/-- The defaults of a display feed (paragraph 10.4). -/
def FeedSettings.default (tier : Tier) (high : Bool) : FeedSettings :=
  { enable := false, tier := tier, mask := 0b0001, delay := 10, depth := 64, ackTimeout := 250, rate := 38400,
    high := high }

/-- The defaults of paragraph 10.4; TIER LIVE, every class and DEPTH 2048 for feed 0 (R150). The DELAY of feed 0, which R150
leaves without a value, and the ack-timeout and rate that it does not have are 0 (DESIGN CHOICE, log entry 45). -/
def Settings.default : Settings :=
  { holdTime := 1500, undoDepth := 8, firmTime := 10, strokeLimit := 2000, floorWait := 3000, takeOutline := ⟨0, 0⟩,
    lockTimeout := 30, logAge := 2000, capAfterParagraph := true, strokeEcho := false, hostRate := 115200,
    feed := { f0 := { enable := true, tier := .live, mask := 0b1111, delay := 0, depth := 2048, ackTimeout := 0,
                      rate := 0, high := true },
              f1 := .default .live true, f2 := .default .settled false, f3 := .default .settled false,
              f4 := .default .settled false } }

/-- R195, before the causes present at power-on are reported. -/
def HostLink.reset : HostLink :=
  { phase := .normal, rx := .hunt, rate := 115200, replies := [], notices := [], textPlace := none, sending := none,
    framesReceived := 0, requestsTaken := 0, discards := 0, framingErrors := 0, overruns := 0, repliesSent := 0,
    noticesSent := 0, textSent := 0, noticesDropped := 0, sets := 0 }

/-- A condition raised at power-on: SET, CAUSE yes, one raise (R189, R195). -/
def CondEntry.raisedOnce : CondEntry := { set := true, cause := true, reportOwed := false, raises := 1 }

/-- The part right after power-on (R195): every block at its power-on values, KEYLINK-A-DOWN and KEYLINK-B-DOWN
raised, the first of their two CONDITION notices being transmitted and the second waiting. The note memory is erased
(DESIGN CHOICE, log entry 4) and no command waits. -/
def State.reset : State :=
  { links := ⟨.reset, .reset⟩, formers := ⟨.reset, .reset⟩, seqCounter := 1, floor := .reset, time := .reset,
    flash := { cells := [], orphans := [] }, store := .reset, log := .reset, dict := .reset, trans := .reset,
    script := .reset, feeds := .reset, fmt := .reset, ports := ⟨.reset, .reset, .reset, .reset⟩,
    host := { HostLink.reset with
      notices := [.condition (.keyLinkDown .b) true true true 0]
      sending := some (.notice (.condition (.keyLinkDown .a) true true true 0)) },
    conds := { Conditions.reset with keyLink := ⟨.raisedOnce, .raisedOnce⟩ },
    settings := .default, pending := [] }

end Sys2Proof.Machine
end

