-- ==== Sys2Proof/Machine/Access.lean ====
section
/-! DEFINITION. Access to the state: reading and changing one member of a fixed collection, and changing one block of
the state and nothing else. -/

namespace Sys2Proof.Machine

/-- The other writer position. -/
def otherPos : Pos → Pos
  | .a => .b
  | .b => .a

/-- Feed n for n from 1 to 4 uses display port n (paragraph 0.6.5). -/
def portFeed : PortId → FeedId
  | .p1 => .f1
  | .p2 => .f2
  | .p3 => .f3
  | .p4 => .f4

/-- The display port of a feed; feed 0 has none. -/
def feedPort : FeedId → Option PortId
  | .f0 => none
  | .f1 => some .p1
  | .f2 => some .p2
  | .f3 => some .p3
  | .f4 => some .p4

/-- The number of a feed. -/
def feedNum : FeedId → Nat
  | .f0 => 0
  | .f1 => 1
  | .f2 => 2
  | .f3 => 3
  | .f4 => 4

/-- The feed of a number, 0 to 4. -/
def feedOfNum : Nat → Option FeedId
  | 0 => some .f0
  | 1 => some .f1
  | 2 => some .f2
  | 3 => some .f3
  | 4 => some .f4
  | _ => none

def Two.get {α : Type} (t : Two α) : Pos → α
  | .a => t.a
  | .b => t.b

def Two.upd {α : Type} (t : Two α) (p : Pos) (f : α → α) : Two α :=
  match p with
  | .a => { t with a := f t.a }
  | .b => { t with b := f t.b }

def Four.get {α : Type} (t : Four α) : PortId → α
  | .p1 => t.p1
  | .p2 => t.p2
  | .p3 => t.p3
  | .p4 => t.p4

def Four.upd {α : Type} (t : Four α) (p : PortId) (f : α → α) : Four α :=
  match p with
  | .p1 => { t with p1 := f t.p1 }
  | .p2 => { t with p2 := f t.p2 }
  | .p3 => { t with p3 := f t.p3 }
  | .p4 => { t with p4 := f t.p4 }

def Five.get {α : Type} (t : Five α) : FeedId → α
  | .f0 => t.f0
  | .f1 => t.f1
  | .f2 => t.f2
  | .f3 => t.f3
  | .f4 => t.f4

def Five.upd {α : Type} (t : Five α) (p : FeedId) (f : α → α) : Five α :=
  match p with
  | .f0 => { t with f0 := f t.f0 }
  | .f1 => { t with f1 := f t.f1 }
  | .f2 => { t with f2 := f t.f2 }
  | .f3 => { t with f3 := f t.f3 }
  | .f4 => { t with f4 := f t.f4 }

/-- Each feed's value changed by its own function. -/
def Five.mapId {α β : Type} (t : Five α) (f : FeedId → α → β) : Five β :=
  ⟨f .f0 t.f0, f .f1 t.f1, f .f2 t.f2, f .f3 t.f3, f .f4 t.f4⟩

def State.onLinks (s : State) (f : Two KeyLink → Two KeyLink) : State := { s with links := f s.links }
def State.onFormers (s : State) (f : Two Former → Two Former) : State := { s with formers := f s.formers }
def State.onFloor (s : State) (f : Floor → Floor) : State := { s with floor := f s.floor }
def State.onTime (s : State) (f : TimeBase → TimeBase) : State := { s with time := f s.time }
def State.onFlash (s : State) (f : Flash → Flash) : State := { s with flash := f s.flash }
def State.onStore (s : State) (f : Store → Store) : State := { s with store := f s.store }
def State.onLog (s : State) (f : LogWriter → LogWriter) : State := { s with log := f s.log }
def State.onDict (s : State) (f : Dictionary → Dictionary) : State := { s with dict := f s.dict }
def State.onTrans (s : State) (f : Translator → Translator) : State := { s with trans := f s.trans }
def State.onScript (s : State) (f : Transcript → Transcript) : State := { s with script := f s.script }
def State.onFeeds (s : State) (f : FeedManager → FeedManager) : State := { s with feeds := f s.feeds }
def State.onFmt (s : State) (f : Formatter → Formatter) : State := { s with fmt := f s.fmt }
def State.onPorts (s : State) (f : Four Port → Four Port) : State := { s with ports := f s.ports }
def State.onHost (s : State) (f : HostLink → HostLink) : State := { s with host := f s.host }
def State.onConds (s : State) (f : Conditions → Conditions) : State := { s with conds := f s.conds }
def State.onSettings (s : State) (f : Settings → Settings) : State := { s with settings := f s.settings }

def State.onLink (s : State) (p : Pos) (f : KeyLink → KeyLink) : State := s.onLinks (fun l => l.upd p f)
def State.onFormer (s : State) (p : Pos) (f : Former → Former) : State := s.onFormers (fun l => l.upd p f)
def State.onPos (s : State) (p : Pos) (f : PosRec → PosRec) : State :=
  s.onFloor (fun fl => { fl with pos := fl.pos.upd p f })
def State.onPort (s : State) (p : PortId) (f : Port → Port) : State := s.onPorts (fun l => l.upd p f)
def State.onFeed (s : State) (i : FeedId) (f : Feed → Feed) : State :=
  s.onFeeds (fun m => { m with feeds := m.feeds.upd i f })

/-- The position record of a position (paragraph 2.1). -/
def State.posRec (s : State) (p : Pos) : PosRec := s.floor.pos.get p

/-- The region record of a dictionary (R58). -/
def Store.region (st : Store) : Dict → Region
  | .j => st.j
  | .pa => st.pa
  | .pb => st.pb

def Store.updRegion (st : Store) (d : Dict) (f : Region → Region) : Store :=
  match d with
  | .j => { st with j := f st.j }
  | .pa => { st with pa := f st.pa }
  | .pb => { st with pb := f st.pb }

/-- The place of a dictionary's region in the region table (R56). -/
def Header.span (h : Header) : Dict → Span
  | .j => h.j
  | .pa => h.pa
  | .pb => h.pb

def Dictionary.get (x : Dictionary) : Dict → DictRec
  | .j => x.j
  | .pa => x.pa
  | .pb => x.pb

def Dictionary.upd (x : Dictionary) (d : Dict) (f : DictRec → DictRec) : Dictionary :=
  match d with
  | .j => { x with j := f x.j }
  | .pa => { x with pa := f x.pa }
  | .pb => { x with pb := f x.pb }

/-- The personal dictionary of a position (paragraph 0.6.5). -/
def personal : Pos → Dict
  | .a => .pa
  | .b => .pb

/-- The position a personal dictionary belongs to. -/
def dictPos : Dict → Option Pos
  | .j => none
  | .pa => some .a
  | .pb => some .b

/-- The entry of a condition (R189). -/
def Conditions.get (c : Conditions) : Cond → CondEntry
  | .keyLinkDown p => c.keyLink.get p
  | .floorVacant => c.floorVacant
  | .syncHoldover => c.syncHoldover
  | .syncUnlocked => c.syncUnlocked
  | .logNearlyFull => c.logNearlyFull
  | .logFull => c.logFull
  | .unloggedStrokes => c.unloggedStrokes
  | .storeFault => c.storeFault
  | .feedStalled p => c.feedStalled.get p
  | .noticeOverflow => c.noticeOverflow
  | .lockBroken => c.lockBroken

def Conditions.upd (c : Conditions) (k : Cond) (f : CondEntry → CondEntry) : Conditions :=
  match k with
  | .keyLinkDown p => { c with keyLink := c.keyLink.upd p f }
  | .floorVacant => { c with floorVacant := f c.floorVacant }
  | .syncHoldover => { c with syncHoldover := f c.syncHoldover }
  | .syncUnlocked => { c with syncUnlocked := f c.syncUnlocked }
  | .logNearlyFull => { c with logNearlyFull := f c.logNearlyFull }
  | .logFull => { c with logFull := f c.logFull }
  | .unloggedStrokes => { c with unloggedStrokes := f c.unloggedStrokes }
  | .storeFault => { c with storeFault := f c.storeFault }
  | .feedStalled p => { c with feedStalled := c.feedStalled.upd p f }
  | .noticeOverflow => { c with noticeOverflow := f c.noticeOverflow }
  | .lockBroken => { c with lockBroken := f c.lockBroken }

/-- The conditions in table order (R189). -/
def condTable : List Cond :=
  [.keyLinkDown .a, .keyLinkDown .b, .floorVacant, .syncHoldover, .syncUnlocked, .logNearlyFull, .logFull,
   .unloggedStrokes, .storeFault, .feedStalled .p1, .feedStalled .p2, .feedStalled .p3, .feedStalled .p4,
   .noticeOverflow, .lockBroken]

/-- The latched conditions (R189). -/
def Cond.latched : Cond → Bool
  | .unloggedStrokes => true
  | .noticeOverflow => true
  | .lockBroken => true
  | _ => false

end Sys2Proof.Machine
end

