-- ==== Sys2Proof/Machine/Bytes.lean ====
section
/-! DEFINITION. Byte encodings (R196) and check computations (R197). -/

namespace Sys2Proof.Machine

/-- A number in `w` bytes, most significant byte first (R196). -/
def be : Nat → Nat → Bytes
  | 0, _ => []
  | w + 1, n => BitVec.ofNat 8 (n / 256 ^ w) :: be w n

/-- The number a sequence of bytes gives, most significant byte first (R196). -/
def ofBe : Bytes → Nat → Nat
  | [], acc => acc
  | b :: bs, acc => ofBe bs (acc * 256 + b.toNat)

/-- A 32-bit count or sequence number in four bytes (R196). -/
def be4 (c : BitVec 32) : Bytes := be 4 c.toNat

/-- A signed quantity in four bytes, two's complement (R196). Of an error outside the range of 32 bits, which R46 forms
exactly, the low 32 bits are sent (DESIGN CHOICE, log entry 36: the spec does not say what is). -/
def beSigned (e : Int) : Bytes := be 4 (BitVec.ofInt 32 e).toNat

/-- A Boolean field in one byte: off 0, on 1 (R196). -/
def beBool (b : Bool) : Byte := if b then 1 else 0

/-- A text or label: one length byte, then its bytes (R196). -/
def beText (t : Bytes) : Bytes := BitVec.ofNat 8 t.length :: t

/-- A field that may be absent: presence byte, then the field (R196). -/
def beOpt : Option Bytes → Bytes
  | none => [0]
  | some b => 1 :: b

/-- Stroke values of an outline, three bytes each (R196). -/
def beStrokes : List Nat → Bytes
  | [] => []
  | k :: ks => be 3 k ++ beStrokes ks

/-- The stroke values of three bytes each that `bs` holds (R196). -/
def ofStrokes : Nat → Bytes → List Nat
  | 0, _ => []
  | n + 1, bs => ofBe (bs.take 3) 0 :: ofStrokes n (bs.drop 3)

/-- A byte of flags, the first flag in bit 0. -/
def flagBits : List Bool → Nat
  | [] => 0
  | b :: bs => (if b then 1 else 0) + 2 * flagBits bs

/-- Flags as one byte, the first in bit 0. -/
def beFlags (bs : List Bool) : Byte := BitVec.ofNat 8 (flagBits bs)

/-- One shift of the CRC-16 register (R197). -/
def crc16Shift (r : BitVec 16) : BitVec 16 :=
  if r.msb then (r <<< 1) ^^^ 0x1021#16 else r <<< 1

/-- `n` shifts of the CRC-16 register. -/
def crc16Shifts : Nat → BitVec 16 → BitVec 16
  | 0, r => r
  | n + 1, r => crc16Shifts n (crc16Shift r)

/-- One byte into the CRC-16 register (R197). -/
def crc16Byte (r : BitVec 16) (b : Byte) : BitVec 16 :=
  crc16Shifts 8 (r ^^^ (b.setWidth 16 <<< 8))

/-- CRC-16 of host frames and of the store header (R197): the register starts at FFFFh. -/
def crc16 (bs : Bytes) : BitVec 16 := bs.foldl crc16Byte 0xFFFF#16

/-- One shift of the CRC-8 register (R197). -/
def crc8Shift (r : Byte) : Byte :=
  if r.msb then (r <<< 1) ^^^ 0x07#8 else r <<< 1

/-- `n` shifts of the CRC-8 register. -/
def crc8Shifts : Nat → Byte → Byte
  | 0, r => r
  | n + 1, r => crc8Shifts n (crc8Shift r)

/-- CRC-8 of display frames (R197): the register starts at 00h. -/
def crc8 (bs : Bytes) : Byte := bs.foldl (fun r b => crc8Shifts 8 (r ^^^ b)) 0

/-- The sum of bytes modulo 256, as log records, dictionary records and ready pages are checked (R197). -/
def sum8 (bs : Bytes) : Byte := bs.foldl (· + ·) 0

/-- The check byte that makes the bytes before and after it sum to 0 (R197). -/
def checkByte (bs : Bytes) : Byte := 0 - sum8 bs

/-- The number of keys set in a key field: bits 0 to `n - 1` (R3). -/
def countBits (k : Keys) : Nat → Nat
  | 0 => 0
  | n + 1 => (if k.getLsbD n then 1 else 0) + countBits k n

/-- The number of keys of a set (R3). -/
def keyCount (k : Keys) : Nat := countBits k 23

/-- A byte a to z made A to Z (R112). -/
def upperByte (b : Byte) : Byte := if 97 ≤ b.toNat ∧ b.toNat ≤ 122 then b - 32 else b

/-- A byte A to Z made a to z (R112, R146). -/
def lowerByte (b : Byte) : Byte := if 65 ≤ b.toNat ∧ b.toNat ≤ 90 then b + 32 else b

/-- A text with its first byte changed. -/
def mapFirst (f : Byte → Byte) : Bytes → Bytes
  | [] => []
  | b :: bs => f b :: bs

/-- The decimal digits of a number below 100, without a leading zero. -/
def decimal (n : Nat) : Bytes :=
  if n < 10 then [BitVec.ofNat 8 (48 + n)] else [BitVec.ofNat 8 (48 + n / 10), BitVec.ofNat 8 (48 + n % 10)]

end Sys2Proof.Machine
end

