-- ==== Sys2Proof/Machine/Ops.lean ====
section
/-! DEFINITION. Named operations over the note memory (R55), the passage of time (R38) and the stamp (R40). -/

namespace Sys2Proof.Machine

/-! ### The note memory -/

/-- What an unlisted address reads as: an erased byte (R55). -/
abbrev erasedByte : Byte := 0xFF#8

/-- The byte at an address (R55, READ). -/
def readByte : List Host.Cell → Nat → Byte
  | [], _ => erasedByte
  | (k, v) :: rest, a => if k = a then v else if a < k then erasedByte else readByte rest a

/-- The byte at an address changed, in the canonical form: addresses rising, no erased byte listed. -/
def writeByte : List Host.Cell → Nat → Byte → List Host.Cell
  | [], a, v => if v = erasedByte then [] else [(a, v)]
  | (k, w) :: rest, a, v =>
    if a < k then (if v = erasedByte then (k, w) :: rest else (a, v) :: (k, w) :: rest)
    else if a = k then (if v = erasedByte then rest else (k, v) :: rest)
    else (k, w) :: writeByte rest a v

/-- `n` bytes from an address (R55, READ). -/
def readBytes (m : List Host.Cell) : Nat → Nat → Bytes
  | _, 0 => []
  | a, n + 1 => readByte m a :: readBytes m (a + 1) n

/-- Bytes written from an address on (R55, PAGE-PROGRAM). -/
def writeBytes : List Host.Cell → Nat → Bytes → List Host.Cell
  | m, _, [] => m
  | m, a, b :: bs => writeBytes (writeByte m a b) (a + 1) bs

/-- Every byte of one block set to FFh (R55, BLOCK-ERASE). -/
def eraseBlock (m : List Host.Cell) (block : Nat) : List Host.Cell :=
  m.filter (fun c => decide (c.1 < block * 65536 ∨ (block + 1) * 65536 ≤ c.1))

/-- Whether an address lies in the span of an operation. -/
def FlashOp.covers : FlashOp → Nat → Bool
  | .program addr data, a => decide (addr ≤ a ∧ a < addr + data.length)
  | .erase block, a => decide (block * 65536 ≤ a ∧ a < (block + 1) * 65536)

/-- The effect of an operation that succeeds (R55). -/
def FlashOp.apply (m : List Host.Cell) : FlashOp → List Host.Cell
  | .program addr data => writeBytes m addr data
  | .erase block => eraseBlock m block

/-- What a failed or unfinished operation leaves: the bytes `left` names inside its span, every other byte as before
(log entry 4). -/
def FlashOp.leave (op : FlashOp) : List Host.Cell → List Host.Cell → List Host.Cell
  | m, [] => m
  | m, (a, v) :: rest => op.leave (if op.covers a then writeByte m a v else m) rest

/-- The canonical form: addresses strictly rising from `lo` on, no erased byte listed. -/
def cellsWf : Nat → List Host.Cell → Bool
  | _, [] => true
  | lo, (k, v) :: rest => decide (lo ≤ k) && decide (v ≠ erasedByte) && cellsWf (k + 1) rest

/-- The note memory is in its canonical form. -/
def Flash.wf (f : Flash) : Bool := cellsWf 0 f.cells

/-- The first byte address of a page of a region that starts at a block (R55). -/
def pageAddr (start page : Nat) : Nat := start * 65536 + page * 256

/-! ### Time -/

/-- `d` µs pass: the local counter advances (R38), and with it the hold timer (R117), the time since the last RESUME
(R63) and the run time of the operation in progress (R65). -/
def State.advance (d : Nat) (s : State) : State :=
  let s := s.onTime (fun t => { t with now := t.now + BitVec.ofNat 32 d })
  let s := s.onTrans (fun t => { t with timer := t.timer.map (fun e => min (e + d) Config.holdTimerMax) })
  s.onStore (fun st =>
    { st with
      sinceResume := st.sinceResume.map (fun e => min (e + d) Config.resumeTimerMax)
      inProgress := st.inProgress.map (fun r => { r with ran := r.ran + d }) })

/-- The modular difference of two local times (R38, paragraph 0.6.3). -/
def since (now t : LocalTime) : Nat := (now - t).toNat

/-- The time since a recorded local time (R38). -/
def State.age (s : State) (t : LocalTime) : Nat := since s.time.now t

/-- Time passes until `limit` µs have passed since `t`, if they have not yet (log entry 2). -/
def State.runTo (s : State) (t : LocalTime) (limit : Nat) : State :=
  if s.age t < limit then s.advance (limit - s.age t) else s

/-- The timecode of a local time by the anchor and rate in force (R39), exact and not reduced. -/
def TimeBase.tc (t : TimeBase) (at_ : LocalTime) : Nat :=
  t.anchorCode + since at_ t.anchorAt * t.rate / Config.rateUnit

/-- The timecode of now (R39). -/
def TimeBase.tcNow (t : TimeBase) : Nat := t.tc t.now

/-- The stamp the time base would issue now (R40). -/
def TimeBase.stamp (t : TimeBase) : Nat := min (max t.tcNow t.lastStamp) max32

/-- The time base after it has issued a stamp (R40): LAST-STAMP, and HELD-STAMPS when the stamp is held. -/
def TimeBase.stamped (t : TimeBase) : TimeBase :=
  { t with lastStamp := t.stamp, heldStamps := if t.tcNow < t.lastStamp then t.heldStamps + 1 else t.heldStamps }

/-- The stamp issued now (R40). -/
def State.stamp (s : State) : Nat := s.time.stamp

/-- The state after a stamp has been issued (R40). -/
def State.stamped (s : State) : State := s.onTime TimeBase.stamped

/-! ### Power-on -/

/-- The operations the memory may still be performing (log entry 5). -/
def Store.unfinished (st : Store) : List FlashOp :=
  (st.inProgress.map Running.op).toList ++ (st.suspended.map Running.op).toList

/-- Every block takes its power-on values (R195). The note memory keeps its bytes; an operation that was running or
suspended is left to the memory. The queue of commands is not the part's. -/
def State.powerOn (s : State) : State :=
  { State.reset with
    flash := { s.flash with orphans := s.flash.orphans ++ s.store.unfinished }
    pending := s.pending }

end Sys2Proof.Machine
end

