-- ==== Sys2Proof/Machine/Flags.lean ====
section
/-! DEFINITION. The condition flags (R189), the notice queue (R188), replies (R185, R186) and the host transmitter
(R187). -/

namespace Sys2Proof.Machine

/-- A change of one entry of the condition table. -/
def State.onCond (s : State) (c : Cond) (f : CondEntry → CondEntry) : State := s.onConds (fun t => t.upd c f)

/-- A notice put at the end of the notice queue. -/
def HostLink.push (h : HostLink) (n : Notice) : HostLink := { h with notices := h.notices ++ [n] }

/-- The notice queue has room (R188). -/
def HostLink.hasRoom (h : HostLink) : Bool := decide (h.notices.length < Config.noticesMax)

/-- A CONDITION notice is formed, with a stamp issued at the event, and offered; on a full queue the condition is marked
REPORT-OWED instead (R188, R189). -/
def offerCondition (c : Cond) (raised : Bool) (s : State) : State :=
  if s.host.hasRoom then
    s.stamped.onHost (fun h => h.push (.condition c raised (s.conds.get c).set (s.conds.get c).cause s.stamp))
  else s.stamped.onCond c (fun e => { e with reportOwed := true })

/-- The owning block reports a cause present (R189). -/
def causePresent (c : Cond) (s : State) : State :=
  if (s.conds.get c).set then s.onCond c (fun e => { e with cause := true })
  else offerCondition c true (s.onCond c (fun e => { e with set := true, cause := true, raises := e.raises + 1 }))

/-- The owning block reports a cause absent (R189). -/
def causeAbsent (c : Cond) (s : State) : State :=
  if (s.conds.get c).set then offerCondition c false (s.onCond c (fun e => { e with cause := false }))
  else s.onCond c (fun e => { e with cause := false })

/-- A cause is reported when it has changed (R189). -/
def setCause (c : Cond) (present : Bool) (s : State) : State :=
  if (s.conds.get c).cause = present then s else if present then causePresent c s else causeAbsent c s

/-- The cause of a latched condition occurs: present only in this step, absent again without a notice (R189). -/
def raiseLatched (c : Cond) (s : State) : State :=
  if (s.conds.get c).set then s.onCond c (fun e => { e with raises := e.raises + 1 })
  else
    (offerCondition c true
      (s.onCond c (fun e => { e with set := true, cause := true, raises := e.raises + 1 }))).onCond c
        (fun e => { e with cause := false })

/-- A notice other than a CONDITION notice is offered: it enters the queue, or is dropped and counted, with
NOTICE-OVERFLOW (R188). -/
def offerNotice (n : Notice) (s : State) : State :=
  if s.host.hasRoom then s.onHost (fun h => h.push n)
  else raiseLatched .noticeOverflow (s.onHost (fun h => { h with noticesDropped := h.noticesDropped + 1 }))

/-- The first condition marked REPORT-OWED, in table order (R188). -/
def firstOwed (t : Conditions) : Option Cond := condTable.find? (fun c => (t.get c).reportOwed)

/-- A place of the notice queue has been freed: one owed CONDITION notice enters it, with its flags and a stamp of this
moment (R188). -/
def enterOwed (s : State) : State :=
  match firstOwed s.conds with
  | none => s
  | some c =>
    let e := s.conds.get c
    let s' := s.stamped.onHost (fun h => h.push (.condition c (c.latched || e.cause) e.set e.cause s.stamp))
    s'.onCond c (fun e => { e with reportOwed := false })

/-- When the line is free the transmitter chooses the next frame: the oldest reply, else the oldest notice, else the
TEXT notice, which keeps the TEXT place until it has been sent (R187). -/
def chooseFrame (s : State) : State :=
  match s.host.sending with
  | some _ => s
  | none =>
    match s.host.replies with
    | r :: rs => s.onHost (fun h => { h with replies := rs, sending := some (.reply r) })
    | [] =>
      match s.host.notices with
      | n :: ns => enterOwed (s.onHost (fun h => { h with notices := ns, sending := some (.notice n) }))
      | [] =>
        match s.host.textPlace with
        | some f => s.onHost (fun h => { h with sending := some (.text f) })
        | none => s

/-- The store controller has ended what R72 steps 3 and 4 let end: nothing is in progress or suspended and no record
waits; in FAULT nothing is waited for. -/
def Store.restartEnded (st : Store) : Bool :=
  decide (st.state = .fault) || (st.inProgress.isNone && st.suspended.isNone && st.dictWork.isEmpty)

/-- The host transmitter at the end of a step (R187); after the RESTART flush has been reported the part does what
power-on does as soon as the reply queue is empty (R194) and the store controller has ended what it lets end (R72,
log entry 18). -/
def transmit (s : State) : State :=
  let s := chooseFrame s
  if s.host.phase = .draining ∧ s.host.replies = [] ∧ s.store.restartEnded = true then s.powerOn else s

/-- A reply is formed and enters the reply queue (R186). -/
def addReply (tag : Byte) (r : Result) (after : AfterSent) (s : State) : State :=
  s.onHost (fun h => { h with replies := h.replies ++ [{ tag := tag, result := r, after := after }] })

/-- A received host frame is counted and the receiver returns to HUNT (R184). -/
def HostLink.received (h : HostLink) : HostLink := { h with rx := .hunt, framesReceived := h.framesReceived + 1 }

/-- A received request frame (R185): dropped on a full reply queue, otherwise taken and answered. `lenOk` is the length
test of R198, `always` marks IDENTIFY, GET and STATUS, `handler` is the owning block's rule and `after` what the end of
the reply brings about. The request is counted as taken before the owning rule runs (DESIGN CHOICE, log entry 39). Once
the RESTART flush has been reported a frame is dropped without being counted (R194). -/
def takeRequest (tag : Byte) (lenOk always : Bool) (handler : State → State × Result) (after : Result → AfterSent)
    (s : State) : State :=
  if s.host.phase = .draining then s.onHost (fun h => { h with rx := .hunt })
  else
    let s := s.onHost HostLink.received
    if Config.repliesMax ≤ s.host.replies.length then s.onHost (fun h => { h with overruns := h.overruns + 1 })
    else
      let s := s.onHost (fun h => { h with requestsTaken := h.requestsTaken + 1 })
      if !lenOk then addReply tag (.refused .badLength) .nothing s
      else if decide (s.host.phase ≠ .normal) && !always then addReply tag (.refused .busy) .nothing s
      else
        let r := handler s
        addReply tag r.2 (after r.2) r.1

/-- No end of a reply brings anything about but for SET host-rate and RESTART. -/
def noAfter : Result → AfterSent := fun _ => .nothing

/-- A COMPLETION notice in one part (R186). -/
def complete (tag kind : Byte) (failed : Option Reason) (data : Bytes) (s : State) : State :=
  offerNotice (.completion tag kind failed 1 true data) s

/-- A COMPLETION notice for a request that still awaits one (R186). -/
def completeIf (tag : Option Byte) (kind : Byte) (failed : Option Reason) (data : Bytes) (s : State) : State :=
  match tag with
  | none => s
  | some t => complete t kind failed data s

end Sys2Proof.Machine
end

