-- ==== Sys2Proof/Machine/Formats.lean ====
section
/-! DEFINITION. The byte layouts of Section 11: host frames, replies, notices, display frames, log records, dictionary
records, ready pages and the store header. -/

namespace Sys2Proof.Machine

/-! ### Codes (R196): a state's place in the table that lists it, from 0. Where a table gives all the values of a field in
one row (the STATE of a position, the CAUSE of R36), the code is the place in that row (log entry 38). -/

def posCode : Pos → Nat
  | .a => 0
  | .b => 1

/-- Position, 2 for none (R196). -/
def optPosCode : Option Pos → Nat
  | some p => posCode p
  | none => 2

def clsCode : Cls → Nat
  | .record => 0
  | .bench => 1
  | .sealed => 2
  | .offRecord => 3

def clsOfCode : Nat → Option Cls
  | 0 => some .record
  | 1 => some .bench
  | 2 => some .sealed
  | 3 => some .offRecord
  | _ => none

/-- Region codes: 0 LOG, 1 J, 2 PA, 3 PB (R196). -/
def dictCode : Dict → Nat
  | .j => 1
  | .pa => 2
  | .pb => 3

def dictOfCode : Nat → Option Dict
  | 1 => some .j
  | 2 => some .pa
  | 3 => some .pb
  | _ => none

def posOfCode : Nat → Option Pos
  | 0 => some .a
  | 1 => some .b
  | _ => none

def tierCode : Tier → Nat
  | .live => 0
  | .settled => 1
  | .delayed => 2

def tierOfCode : Nat → Option Tier
  | 0 => some .live
  | 1 => some .settled
  | 2 => some .delayed
  | _ => none

def feedStateCode : FeedState → Nat
  | .off => 0
  | .active => 1
  | .repaint => 2
  | .stalled => 3

/-- The state of a key link: no table lists UP and DOWN, which paragraph 1.3 names in this order (DESIGN CHOICE, log
entry 38). -/
def linkCode : LinkState → Nat
  | .up => 0
  | .down => 1

def posStateCode : PosState → Nat
  | .off => 0
  | .down => 1
  | .shadow => 2
  | .requesting => 3
  | .live => 4

def floorCode : FloorState → Nat
  | .vacant => 0
  | .held => 1
  | .passing => 2

def floorCauseCode : FloorCause → Nat
  | .sessionOpen => 0
  | .firstStroke => 1
  | .takeStroke => 2
  | .handover => 3
  | .cleanPass => 4
  | .forcedWait => 5
  | .forcedOverflow => 6
  | .cancel => 7
  | .liveLost => 8
  | .release => 9

/-- The CAPTURE mark, in the order of paragraph 3.2; the table of R44 lists them in another (DESIGN CHOICE, log entry
38). -/
def captureCode : CaptureMark → Nat
  | .none => 0
  | .current => 1
  | .expired => 2

def syncCode : SyncState → Nat
  | .unlocked => 0
  | .locked => 1
  | .holdover => 2

def timeEventCode : TimeEvent → Nat
  | .lock => 0
  | .step => 1
  | .holdover => 2
  | .recover => 3

def storeCode : StoreState → Nat
  | .unmounted => 0
  | .mounting => 1
  | .unformatted => 2
  | .ready => 3
  | .formatting => 4
  | .fault => 5

def regionCode : RegionState → Nat
  | .ready => 0
  | .erasing => 1
  | .blankNeeded => 2

/-- FREE is 0 (R73). -/
def pageCode : PageState → Nat
  | .opened => 1
  | .waiting => 2
  | .programming => 3

/-- The KIND of a unit, in the order of the unit's table in paragraph 7.1 (log entry 38). -/
def unitKindCode : UnitKind → Nat
  | .word => 0
  | .untranslate => 1
  | .number => 2
  | .speakerLabel => 3
  | .command => 4
  | .note => 5

def unitStateCode : UnitState → Nat
  | .provisional => 0
  | .committed => 1
  | .firm => 2

def sessionCode : SessionState → Nat
  | .closed => 0
  | .opened => 1
  | .closing => 2

def portStateCode : PortState → Nat
  | .off => 0
  | .running => 1
  | .stalled => 2

/-- The reason of an UNDO-BLOCKED notice, in the order of R120 (log entry 38). -/
def undoBlockCode : UndoBlock → Nat
  | .empty => 0
  | .firm => 1
  | .otherPosition => 2
  | .locked => 3

/-- Conditions are numbered 1 to 15 in table order (paragraph 11.4). -/
def condCode : Cond → Nat
  | .keyLinkDown .a => 1
  | .keyLinkDown .b => 2
  | .floorVacant => 3
  | .syncHoldover => 4
  | .syncUnlocked => 5
  | .logNearlyFull => 6
  | .logFull => 7
  | .unloggedStrokes => 8
  | .storeFault => 9
  | .feedStalled .p1 => 10
  | .feedStalled .p2 => 11
  | .feedStalled .p3 => 12
  | .feedStalled .p4 => 13
  | .noticeOverflow => 14
  | .lockBroken => 15

def condOfCode : Nat → Option Cond
  | 1 => some (.keyLinkDown .a)
  | 2 => some (.keyLinkDown .b)
  | 3 => some .floorVacant
  | 4 => some .syncHoldover
  | 5 => some .syncUnlocked
  | 6 => some .logNearlyFull
  | 7 => some .logFull
  | 8 => some .unloggedStrokes
  | 9 => some .storeFault
  | 10 => some (.feedStalled .p1)
  | 11 => some (.feedStalled .p2)
  | 12 => some (.feedStalled .p3)
  | 13 => some (.feedStalled .p4)
  | 14 => some .noticeOverflow
  | 15 => some .lockBroken
  | _ => none

/-- Reasons are numbered from 01h in the order of R186 (paragraph 11.3). -/
def reasonCode : Reason → Nat
  | .busy => 1
  | .badKind => 2
  | .badLength => 3
  | .badValue => 4
  | .notMounted => 5
  | .unformatted => 6
  | .sessionOpen => 7
  | .noSession => 8
  | .regionState => 9
  | .regionFull => 10
  | .bucketFull => 11
  | .stagingFull => 12
  | .tooLong => 13
  | .range => 14
  | .lockHeld => 15
  | .notLocked => 16
  | .released => 17
  | .noCapture => 18
  | .late => 19
  | .stillActive => 20
  | .storeFault => 21

/-- One byte of a code. -/
def byte (n : Nat) : Byte := BitVec.ofNat 8 n

/-! ### Display frames (paragraph 11.5) -/

def Frame.code : Frame → Byte
  | .clear => 1
  | .add .. => 2
  | .retractFrom _ => 3
  | .replace .. => 4
  | .redact _ => 5
  | .confirm _ => 6
  | .gap .. => 7
  | .repaintBegin _ => 8
  | .repaintEnd => 9
  | .probe => 10

def Frame.payload : Frame → Bytes
  | .clear => []
  | .add n c sp join par prov susp t =>
    be 4 n ++ [byte (clsCode c), byte sp, beFlags [join, par, prov, susp]] ++ beText t
  | .retractFrom n => be 4 n
  | .replace n c join t => be 4 n ++ [byte (clsCode c), beFlags [join]] ++ beText t
  | .redact n => be 4 n
  | .confirm n => be 4 n
  | .gap c n => byte (clsCode c) :: be 4 n
  | .repaintBegin n => be 4 n
  | .repaintEnd => []
  | .probe => []

/-- The bytes of a display frame on the line (paragraph 11.5, R175). -/
def Frame.onLine (f : Frame) (seq : Byte) : Bytes :=
  let body := seq :: f.code :: byte f.payload.length :: f.payload
  0x5A#8 :: body ++ [crc8 body]

/-! ### Host frames (paragraph 11.3) -/

/-- The bytes of a host frame on the line. -/
def hostFrame (kind tag : Byte) (payload : Bytes) : Bytes :=
  let body := be 2 (payload.length + 2) ++ kind :: tag :: payload
  0xC3#8 :: body ++ be 2 (crc16 body).toNat

/-- The payload of a reply (paragraph 11.3). -/
def Result.payload : Result → Bytes
  | .done data => 0 :: data
  | .accepted => [1]
  | .refused r => [2, byte (reasonCode r)]

/-- The kind byte of a notice (paragraph 11.3). -/
def Notice.code : Notice → Byte
  | .completion .. => 0x82
  | .condition .. => 0x83
  | .floor .. => 0x84
  | .time .. => 0x85
  | .undoBlocked .. => 0x86
  | .stroke .. => 0x87

/-- The tag of a notice: the request's for a COMPLETION, 0 otherwise (R188). -/
def Notice.tag : Notice → Byte
  | .completion tag .. => tag
  | _ => 0

/-- The payload of a notice: its fields in the order of the owning rule (R196, paragraph 11.3). EVENT of a CONDITION notice
is 0 for RAISED and 1 for CAUSE-ENDED, the order in which R189 names them (DESIGN CHOICE, log entry 38: no table lists
them). The part number of a COMPLETION is one byte and DROPPED of a FLOOR notice four (DESIGN CHOICE, log entry 15: neither
R196 nor paragraph 11.3 gives them a width). -/
def Notice.payload : Notice → Bytes
  | .completion _ kind failed part last data =>
    kind :: (match failed with
      | none => [0, 0]
      | some r => [3, byte (reasonCode r)]) ++ [byte part, beBool last] ++ data
  | .condition c raised set cause n =>
    [byte (condCode c), (if raised then 0 else 1), beBool set, beBool cause] ++ be 4 n
  | .floor fl live req cause dropped n =>
    [byte (floorCode fl), byte (optPosCode live), byte (optPosCode req), byte (floorCauseCode cause)] ++ be 4 dropped ++
      be 4 n
  | .time ev sync e code rate steps n =>
    [byte (timeEventCode ev), byte (syncCode sync)] ++ beSigned e ++ be 4 code ++ be 4 rate ++ be4 steps ++ be 4 n
  | .undoBlocked p seq reason number n =>
    byte (posCode p) :: be4 seq ++ [byte (undoBlockCode reason)] ++ beOpt (number.map (be 4)) ++ be 4 n
  | .stroke p seq keys n damaged held unlogged =>
    byte (posCode p) :: beOpt (seq.map be4) ++ be 3 keys.toNat ++ be 4 n ++ [beFlags [damaged, held, unlogged]]

/-- The bytes of the frame the host transmitter sends (paragraph 11.3). -/
def TxFrame.onLine : TxFrame → Bytes
  | .reply r => hostFrame 0x80 r.tag r.result.payload
  | .notice n => hostFrame n.code n.tag n.payload
  | .text f => hostFrame 0x81 0 (f.code :: f.payload)

/-! ### Records of the note memory (paragraphs 11.6 and 11.7) -/

/-- The position and flags byte of a log record (paragraph 11.6). -/
def logFlags (p : Option Pos) (live damaged held undo aborted : Bool) : Byte :=
  byte (optPosCode p + 4 * flagBits [live, damaged, held, undo, aborted])

/-- A log record of 16 bytes with its check (paragraph 11.6, R197). -/
def logRecord (value : Nat) (flags : Byte) (timecode : Nat) (seq : Nat) (session : Nat) (kind : Byte) : Bytes :=
  let body := be 3 value ++ [flags] ++ be 4 timecode ++ be 4 seq ++ be 2 session ++ [kind]
  body ++ [checkByte body]

/-- A log slot passes its check: 16 bytes that sum to 0 (R197). -/
def slotPasses (slot : Bytes) : Bool := sum8 slot = 0

/-- A log slot is empty: all FFh (R56). -/
def slotEmpty (slot : Bytes) : Bool := slot.all (· = erasedByte)

/-- A dictionary record (paragraph 11.7); kinds 1 ENTRY, 2 TOMBSTONE, 3 PREFIX. -/
def dictRecord (kind : Byte) (outline : List Nat) (text : Bytes) (link : Nat) : Bytes :=
  let head := [kind, byte outline.length, byte text.length]
  let rest := be 4 link ++ beStrokes outline ++ text
  head ++ checkByte (head ++ rest) :: rest

/-- The mark of a ready page with its check (paragraph 11.7): "CALWIXDR", the region byte. -/
def readyMark (d : Dict) : Bytes :=
  let mark := [0x43#8, 0x41#8, 0x4C#8, 0x57#8, 0x49#8, 0x58#8, 0x44#8, 0x52#8, byte (dictCode d)]
  mark ++ [checkByte mark]

/-- The mark of the store header: "CALWIXNM" (paragraph 11.7). -/
def headerMark : Bytes := [0x43#8, 0x41#8, 0x4C#8, 0x57#8, 0x49#8, 0x58#8, 0x4E#8, 0x4D#8]

/-- A start block and a length, two bytes each. -/
def Span.bytes (r : Span) : Bytes := be 2 r.start ++ be 2 r.len

/-- The region table as bytes. -/
def Header.table (h : Header) : Bytes := h.log.bytes ++ h.j.bytes ++ h.pa.bytes ++ h.pb.bytes

/-- The four timing values as bytes. -/
def Timing.bytes (t : Timing) : Bytes :=
  be 2 t.programMax ++ be 2 t.eraseMax ++ be 2 t.suspendLatency ++ be 2 t.resumeInterval

/-- The store header (paragraph 11.7). -/
def headerBytes (h : Header) (t : Timing) : Bytes :=
  let body := headerMark ++ [1] ++ be 2 h.capacity ++ h.table ++ t.bytes
  body ++ be 2 (crc16 body).toNat

/-- The timing values FORMAT-STORE accepts (R69). -/
def Timing.valid (t : Timing) : Bool :=
  decide (100 ≤ t.programMax ∧ t.programMax ≤ 10000 ∧ 10 ≤ t.eraseMax ∧ t.eraseMax ≤ 10000 ∧
    1 ≤ t.suspendLatency ∧ t.suspendLatency ≤ 1000 ∧ t.resumeInterval ≤ 10000)

/-- A region lies within blocks 1 to capacity - 1 (R56). -/
def Span.within (r : Span) (capacity : Nat) : Bool := decide (1 ≤ r.start ∧ r.start + r.len ≤ capacity)

/-- Two regions share no block (R56). -/
def Span.apart (r q : Span) : Bool := decide (r.start + r.len ≤ q.start ∨ q.start + q.len ≤ r.start)

/-- The contents test of a valid header (R56). -/
def Header.valid (h : Header) : Bool :=
  decide (256 ≤ h.capacity ∧ h.capacity ≤ 4096) &&
  h.log.within h.capacity && h.j.within h.capacity && h.pa.within h.capacity && h.pb.within h.capacity &&
  h.log.apart h.j && h.log.apart h.pa && h.log.apart h.pb && h.j.apart h.pa && h.j.apart h.pb && h.pa.apart h.pb &&
  decide (16 ≤ h.log.len ∧ 4 ≤ h.j.len ∧ 4 ≤ h.pa.len ∧ 4 ≤ h.pb.len)

/-- The number in two bytes at an offset. -/
def be2At (bs : Bytes) (off : Nat) : Nat := ofBe ((bs.drop off).take 2) 0

/-- The number in four bytes at an offset. -/
def be4At (bs : Bytes) (off : Nat) : Nat := ofBe ((bs.drop off).take 4) 0

/-- The number in one byte at an offset. -/
def byteAt (bs : Bytes) (off : Nat) : Nat := (bs.getD off 0).toNat

/-- The span at an offset. -/
def spanAt (bs : Bytes) (off : Nat) : Span := ⟨be2At bs off, be2At bs (off + 2)⟩

/-- The header that the 37 bytes of a header page hold, when it is valid (R56): mark, version, check and contents. -/
def parseHeader (bs : Bytes) : Option (Header × Timing) :=
  let h : Header :=
    { capacity := be2At bs 9, log := spanAt bs 11, j := spanAt bs 15, pa := spanAt bs 19, pb := spanAt bs 23 }
  let t : Timing :=
    { programMax := be2At bs 27, eraseMax := be2At bs 29, suspendLatency := be2At bs 31, resumeInterval := be2At bs 33 }
  if bs.take 8 = headerMark ∧ byteAt bs 8 = 1 ∧ (crc16 (bs.take 35)).toNat = be2At bs 35 ∧ h.valid = true ∧
      t.valid = true then some (h, t) else none

end Sys2Proof.Machine
end

