-- ==== Sys2Proof/Machine/Feeds.lean ====
section
/-! DEFINITION. The feed manager (Section 8): eligibility, settling, owed frames, change notes, laps, repaints, and what
the transcript manager's reports do to each feed. -/

namespace Sys2Proof.Machine

/-! ### What a feed is judged by -/

/-- The part of the state a feed record is settled against: its settings, the units held, the local counter, AGED-TO and
NEXT-NUMBER (R150). -/
structure FeedView where
  cfg : FeedSettings
  units : List TUnit
  now : LocalTime
  agedTo : Nat
  nextNumber : Nat

/-- The view of a feed in a state. -/
def State.view (s : State) (i : FeedId) : FeedView :=
  { cfg := s.settings.feed.get i, units := s.script.units, now := s.time.now, agedTo := s.feeds.agedTo,
    nextNumber := s.script.nextNumber }

/-- A class is accepted by a feed when its MASK holds the class (R150). -/
def FeedView.accepts (v : FeedView) (c : Cls) : Bool := v.cfg.mask.getLsbD (clsCode c)

/-- A unit is showable for a feed: an accepted CLASS and TEXT that is not empty (R150). -/
def FeedView.showable (v : FeedView) (u : TUnit) : Bool := v.accepts u.cls && !u.text.isEmpty

/-- The age of a unit since its COMMIT-TIME has reached a time in µs (R132, R154). -/
def TUnit.aged (u : TUnit) (now : LocalTime) (limit : Nat) : Bool :=
  match u.commitTime with
  | none => false
  | some t => decide (limit ≤ since now t)

/-- A FIRM unit is released for a DELAYED feed (R153, R154). -/
def FeedView.released (v : FeedView) (u : TUnit) : Bool :=
  decide (u.number ≤ v.agedTo) || u.aged v.now (v.cfg.delay * 1000000)

/-- A unit is eligible for a feed by its TIER (R153). -/
def FeedView.eligible (v : FeedView) (u : TUnit) : Bool :=
  match v.cfg.tier with
  | .live => true
  | .settled => decide (u.state ≠ .provisional)
  | .delayed => decide (u.state = .firm) && v.released u

/-- The held units above a cursor, in order. -/
def FeedView.above (v : FeedView) (d : Nat) : List TUnit := v.units.filter (fun u => decide (d < u.number))

/-- LAST-SHOWN: the class of the SHOWN entry with the highest unit number (R152). -/
def Feed.lastShown (f : Feed) : Option Cls := (f.shown.getLast?).map ShownEntry.cls

/-- The feed is delivering: STATE ACTIVE or REPAINT. -/
def Feed.delivering (f : Feed) : Bool := decide (f.state = .active ∨ f.state = .repaint)

/-- A unit lies above REPAINT-TAIL while STATE is REPAINT (R155, R162). -/
def Feed.beyondTail (f : Feed) (u : TUnit) : Bool :=
  decide (f.state = .repaint) && (match f.repaintTail with
    | none => false
    | some t => decide (t < u.number))

/-! ### Settling (R155) -/

/-- The cases of R155 along the held units above D. -/
def settleAlong (v : FeedView) : List TUnit → Feed → Feed
  | [], f => f
  | u :: us, f =>
    if !v.eligible u then f
    else if f.beyondTail u then f
    else if f.gapOwed.isSome then f
    else if v.showable u then f
    else if u.text.isEmpty then settleAlong v us { f with cursor := u.number }
    else
      match f.lastShown with
      | some c =>
        if v.accepts c then { f with gapOwed := some (u.cls, u.number) }
        else settleAlong v us { f with cursor := u.number }
      | none => settleAlong v us { f with cursor := u.number }

/-- The feed is settled (R155). -/
def settle (v : FeedView) (f : Feed) : Feed :=
  if f.delivering then settleAlong v (v.above f.cursor) f else f

/-! ### Repaint (R161) -/

/-- The cursor a repaint starts from (R161 step 2). -/
def repaintCursor (v : FeedView) : Nat :=
  let shown := (v.units.filter (fun u => v.eligible u && v.showable u)).reverse
  match shown[v.cfg.depth - 1]? with
  | some u => u.number - 1
  | none =>
    match v.units with
    | u :: _ => u.number - 1
    | [] => v.nextNumber - 1

/-- The number a repaint ends at (R161 step 3). -/
def repaintEndsAt (v : FeedView) : Nat :=
  match (v.units.filter v.eligible).getLast? with
  | some u => u.number
  | none => repaintCursor v

/-- The beginning of a repaint (R161). -/
def beginRepaint (v : FeedView) (f : Feed) : Feed :=
  settle v
    { f with changes := [], shown := [], gapOwed := none, cursor := repaintCursor v,
             repaintTail := some (repaintEndsAt v), state := .repaint, beginOwed := true, repaints := f.repaints + 1 }

/-! ### Change notes (R157 to R159) -/

/-- The number a change note names (R158). -/
def ChangeNote.number : ChangeNote → Nat
  | .retractFrom n => n
  | .replace n => n
  | .redact n => n
  | .confirm n => n

/-- What raising RETRACT-FROM(n) does to one queued note (R158). -/
def retractMerge (n : Nat) : ChangeNote → Option ChangeNote
  | .confirm m => if n ≤ m then (if n = 1 then none else some (.confirm (n - 1))) else some (.confirm m)
  | note => if n ≤ note.number then none else some note

/-- A raised note merged into the queued ones: the notes kept, and whether the new note is appended (R158). -/
def mergeNote (note : ChangeNote) (queued : List ChangeNote) : List ChangeNote × Bool :=
  match note with
  | .retractFrom n => (queued.filterMap (retractMerge n), true)
  | .replace n => (queued, !queued.contains (.replace n))
  | .redact n => (queued.filter (fun q => decide (q ≠ .replace n)), true)
  | .confirm _ => (queued.filter (fun q => match q with
      | .confirm _ => false
      | _ => true), true)

/-- A change note is raised for a feed: merged, then appended, or the feed overflows into a repaint (R158, R159). -/
def raiseNote (v : FeedView) (note : ChangeNote) (f : Feed) : Feed :=
  let m := mergeNote note f.changes
  if !m.2 then { f with changes := m.1 }
  else if Config.changesMax ≤ m.1.length then beginRepaint v { f with overflows := f.overflows + 1 }
  else { f with changes := m.1 ++ [note] }

/-! ### Reports of the transcript manager (R129) -/

/-- A report of a change of the transcript (R129). RECLASSIFIED carries the class the unit had, which no feed compares
with: R157 goes by the new one. FREED and CLEARED act by R160 and R163. -/
inductive Report
  | added (n : Nat)
  | committed (n : Nat)
  | firmed (n : Nat)
  | retractedFrom (n : Nat)
  | replaced (n : Nat)
  | reclassified (n : Nat) (old : Cls)
  | freed (n : Nat)
  | cleared
deriving DecidableEq, Repr

/-- The SHOWN entry of a unit, if it is PROVISIONAL or FINAL (R157). -/
def Feed.textEntry (f : Feed) (n : Nat) : Bool :=
  f.shown.any (fun e => decide (e.number = n ∧ (e.kind = .provisional ∨ e.kind = .final)))

/-- A PROVISIONAL entry numbered n or below becomes FINAL (R157, COMMITTED). -/
def confirmEntry (n : Nat) (e : ShownEntry) : ShownEntry :=
  if e.number ≤ n ∧ e.kind = .provisional then { e with kind := .final } else e

/-- COMMITTED n on a LIVE feed (R157). -/
def onCommitted (v : FeedView) (n : Nat) (f : Feed) : Feed :=
  if decide (v.cfg.tier = .live) && f.shown.any (fun e => decide (e.number ≤ n ∧ e.kind = .provisional)) then
    raiseNote v (.confirm n) { f with shown := f.shown.map (confirmEntry n) }
  else f

/-- RETRACTED-FROM n on a LIVE or SETTLED feed (R157). -/
def onRetracted (v : FeedView) (n : Nat) (f : Feed) : Feed :=
  if v.cfg.tier = .delayed then f
  else
    let g := if n ≤ f.cursor then { f with cursor := n - 1 } else f
    if f.shown.any (fun e => decide (n ≤ e.number)) then
      raiseNote v (.retractFrom n) { g with shown := g.shown.filter (fun e => decide (e.number < n)) }
    else g

/-- REPLACED n on a LIVE or SETTLED feed (R157). -/
def onReplaced (v : FeedView) (n : Nat) (f : Feed) : Feed :=
  if decide (v.cfg.tier ≠ .delayed) && f.textEntry n then raiseNote v (.replace n) f else f

/-- A SHOWN entry given a new class and kind after a reclassification (R157). -/
def reclassEntry (n : Nat) (c : Cls) (redacted : Bool) (e : ShownEntry) : ShownEntry :=
  if e.number = n then { e with cls := c, kind := if redacted then .redacted else e.kind } else e

/-- RECLASSIFIED n on a LIVE or SETTLED feed, the unit now of class `c` (R157). -/
def onReclassified (v : FeedView) (n : Nat) (c : Cls) (f : Feed) : Feed :=
  if decide (v.cfg.tier ≠ .delayed) && f.textEntry n then
    if v.accepts c then raiseNote v (.replace n) { f with shown := f.shown.map (reclassEntry n c false) }
    else raiseNote v (.redact n) { f with shown := f.shown.map (reclassEntry n c true) }
  else f

/-- FREED n (R160): a feed past the unit forgets it; a feed that has not passed it is lapped, and repaints while it is
delivering. -/
def onFreed (v : FeedView) (n : Nat) (f : Feed) : Feed :=
  let shown := f.shown.filter (fun e => decide (e.number ≠ n))
  if n ≤ f.cursor then
    settle v { f with shown := shown,
                      changes := f.changes.filter (fun q => decide (q ≠ .replace n ∧ q ≠ .redact n)) }
  else
    let g := { f with cursor := n, laps := f.laps + 1, shown := shown }
    if f.delivering then beginRepaint v g else g

/-- CLEARED (R163). -/
def onCleared (f : Feed) : Feed :=
  let g := { f with changes := [], shown := [], gapOwed := none, beginOwed := false, repaintTail := none, cursor := 0 }
  if f.delivering then { g with state := .active, clearOwed := true, clears := f.clears + 1 }
  else { g with clearOwed := false }

/-- The class of a held unit. -/
def clsOf (units : List TUnit) (n : Nat) : Option Cls := (units.find? (fun u => decide (u.number = n))).map TUnit.cls

/-- A report acts on a STALLED feed by R167: its cursor is kept right, by R157, R160 and R163. -/
def onReportStalled (v : FeedView) (f : Feed) : Report → Feed
  | .retractedFrom n => if n ≤ f.cursor then { f with cursor := n - 1 } else f
  | .freed n => onFreed v n f
  | .cleared => onCleared f
  | .added _ | .committed _ | .firmed _ | .replaced _ | .reclassified _ _ => f

/-- A report acts on a delivering feed by R157, R160 and R163, followed by settling. -/
def onReportDelivering (v : FeedView) (f : Feed) : Report → Feed
  | .added _ => settle v f
  | .committed n => settle v (onCommitted v n f)
  | .firmed _ => settle v f
  | .retractedFrom n => settle v (onRetracted v n f)
  | .replaced n => settle v (onReplaced v n f)
  | .reclassified n _ =>
    match clsOf v.units n with
    | some c => settle v (onReclassified v n c f)
    | none => settle v f
  | .freed n => onFreed v n f
  | .cleared => settle v (onCleared f)

/-- A report acts on one feed record: nothing while OFF (R151). -/
def onReport (v : FeedView) (r : Report) (f : Feed) : Feed :=
  match f.state with
  | .off => f
  | .stalled => onReportStalled v f r
  | .active | .repaint => onReportDelivering v f r

/-- The transcript manager reports a change to every feed (R129). -/
def report (r : Report) (s : State) : State :=
  s.onFeeds (fun m => { m with feeds := m.feeds.mapId (fun i f => onReport (s.view i) r f) })

/-- Every feed is settled (R155). -/
def settleAll (s : State) : State :=
  s.onFeeds (fun m => { m with feeds := m.feeds.mapId (fun i f => settle (s.view i) f) })

/-- A repaint of one feed begins (R161). -/
def repaintFeed (i : FeedId) (s : State) : State := s.onFeed i (beginRepaint (s.view i))

/-- One feed is settled (R155). -/
def settleFeed (i : FeedId) (s : State) : State := s.onFeed i (settle (s.view i))

/-! ### Owed frames (R156) -/

/-- REPAINT-END is owed: STATE REPAINT and the first held unit above D absent or above REPAINT-TAIL (R156, R162). -/
def repaintDone (v : FeedView) (f : Feed) : Bool :=
  decide (f.state = .repaint) && (match v.above f.cursor with
    | [] => true
    | u :: _ => f.beyondTail u)

/-- The unit an ADD is owed for: settling has stopped at a showable unit (R155, R156). -/
def addOwed (v : FeedView) (f : Feed) : Option TUnit :=
  match v.above f.cursor with
  | [] => none
  | u :: _ => if v.eligible u && !f.beyondTail u && f.gapOwed.isNone && v.showable u then some u else none

/-- The frame a change note makes of the unit as it stands (R156, R157). A REPLACE of a unit no longer held cannot stand
in a CHANGE-LIST (R157, R160). -/
def noteFrame (units : List TUnit) : ChangeNote → Frame
  | .retractFrom n => .retractFrom n
  | .redact n => .redact n
  | .confirm n => .confirm n
  | .replace n =>
    match units.find? (fun u => decide (u.number = n)) with
    | some u => .replace n u.cls u.join u.text
    | none => .redact n

/-- The ADD frame of a unit (R156). -/
def addFrame (u : TUnit) : Frame :=
  .add u.number u.cls u.speaker u.join u.paragraphStart (decide (u.state = .provisional)) u.suspect u.text

/-- The SHOWN entry of a unit just sent (R152). -/
def addEntry (u : TUnit) : ShownEntry :=
  { number := u.number, kind := if u.state = .provisional then .provisional else .final, cls := u.cls }

/-- The frame a delivering feed owes and its record once the frame is formed, before settling (R156). -/
def owedFrame (v : FeedView) (f : Feed) : Option (Frame × Feed) :=
  if !f.delivering then none
  else if f.clearOwed then some (.clear, { f with clearOwed := false })
  else if f.beginOwed then some (.repaintBegin (f.repaintTail.getD 0), { f with beginOwed := false })
  else
    match f.changes with
    | note :: rest => some (noteFrame v.units note, { f with changes := rest, notesSent := f.notesSent + 1 })
    | [] =>
      match f.gapOwed with
      | some (c, n) =>
        some (.gap c n, { f with cursor := n, shown := f.shown ++ [{ number := n, kind := .gap, cls := c }],
                                 gapOwed := none, gapsSent := f.gapsSent + 1 })
      | none =>
        if repaintDone v f then some (.repaintEnd, { f with state := .active, repaintTail := none })
        else
          match addOwed v f with
          | some u => some (addFrame u, { f with cursor := u.number, shown := f.shown ++ [addEntry u],
                                                 addsSent := f.addsSent + 1 })
          | none => none

/-- The feed owes a frame (R151, R156). -/
def owes (v : FeedView) (f : Feed) : Bool := (owedFrame v f).isSome

/-! ### Stall, recovery, enable and disable -/

/-- The port of the feed reports a stall (R167). -/
def feedStall (f : Feed) : Feed :=
  if f.delivering then
    { f with state := .stalled, changes := [], shown := [], gapOwed := none, beginOwed := false, repaintTail := none }
  else f

/-- The port of the feed reports a recovery (R167). -/
def feedRecover (v : FeedView) (f : Feed) : Feed := if f.state = .stalled then beginRepaint v f else f

/-- The enabling of a feed (R165). -/
def feedEnable (v : FeedView) (f : Feed) : Feed := beginRepaint v { f with clearOwed := false }

/-- The disabling of a feed (R165). -/
def feedDisable (f : Feed) : Feed :=
  { f with state := .off, changes := [], shown := [], gapOwed := none, clearOwed := false, beginOwed := false,
           repaintTail := none, cursor := 0 }

/-- A change of TIER or MASK (R166): a delivering feed repaints; OFF and STALLED feeds take the value as it is. -/
def feedReview (v : FeedView) (f : Feed) : Feed := if f.delivering then beginRepaint v f else f

/-! ### Release (R154) -/

/-- The unit the release timer of a feed runs on: the first held unit above D of a delivering DELAYED feed, while it is
FIRM and above AGED-TO (R154): one at or below AGED-TO is released, and its age is measured no longer. Where the age of the
unit has reached DELAY already, the expiry is overdue and acts at once (log entry 2); the settling of a feed that has been
settled since changes nothing (R155). -/
def releaseUnit (v : FeedView) (f : Feed) : Option TUnit :=
  match v.above f.cursor with
  | [] => none
  | u :: _ =>
    if f.delivering && decide (v.cfg.tier = .delayed ∧ u.state = .firm ∧ v.agedTo < u.number) then some u else none

/-- The oldest held unit above AGED-TO that has a COMMIT-TIME, and that time (R154). -/
def agingUnit (s : State) : Option LocalTime :=
  (s.script.units.filter (fun u => decide (s.feeds.agedTo < u.number))).findSome? TUnit.commitTime

/-- The highest held unit whose age has reached 120 s, or AGED-TO (R154). -/
def agedHighest (s : State) : Nat :=
  match (s.script.units.filter (fun u =>
      decide (s.feeds.agedTo < u.number) && u.aged s.time.now Config.agedLimit)).getLast? with
  | some u => u.number
  | none => s.feeds.agedTo

end Sys2Proof.Machine
end

