-- ==== Sys2Proof/Machine/Ports.lean ====
section
/-! DEFINITION. Display ports (Section 9): transmission, acknowledgement, stall, probing and recovery; the feed
formatter's grant order (R171 to R173); and the commands of the display lines. -/

namespace Sys2Proof.Machine

/-! ### Transmission (R175) -/

/-- The first PENDING frame of a window. -/
def firstPending (w : List WinFrame) : Option WinFrame := w.find? (fun x => x.sentAt.isNone)

/-- When its line is free a port takes a changed rate and begins the next frame: a PROBE that waits, else the first
PENDING frame of WINDOW (R175, R179). -/
def Port.begin (rate : Nat) (p : Port) : Port :=
  match p.sending with
  | some _ => p
  | none =>
    let p := { p with rate := rate }
    match p.probesWaiting with
    | q :: qs => { p with probesWaiting := qs, sending := some { seq := q, frame := .probe, inWindow := false } }
    | [] =>
      match firstPending p.window with
      | some x => { p with sending := some { seq := x.seq, frame := x.frame, inWindow := true } }
      | none => p

/-- The line of one port at the end of a step (R175). -/
def portKick (i : PortId) (s : State) : State :=
  s.onPort i (fun p => p.begin (s.settings.feed.get (portFeed i)).rate)

/-- The first PENDING frame of a window becomes SENT (R175). -/
def markSent (t : LocalTime) : List WinFrame → List WinFrame
  | [] => []
  | x :: xs => if x.sentAt.isNone then { x with sentAt := some t } :: xs else x :: markSent t xs

/-- The last byte of the frame under way leaves the line (R175). -/
def Port.sent (t : LocalTime) (p : Port) : Port :=
  match p.sending with
  | none => p
  | some x =>
    { p with sending := none, framesSent := p.framesSent + 1,
             window := if x.inWindow then markSent t p.window else p.window }

/-- A frame enters WINDOW with NEXT-SEQ (R175). -/
def Port.enter (f : Frame) (p : Port) : Port :=
  { p with window := p.window ++ [{ seq := p.nextSeq, frame := f, sentAt := none }], nextSeq := p.nextSeq + 1 }

/-- Every frame of WINDOW is discarded and counted; a frame under way is sent to its end (R174, R178, R181). -/
def Port.discardWindow (p : Port) : Port :=
  { p with window := [], framesLost := p.framesLost + BitVec.ofNat 32 p.window.length,
           sending := p.sending.map (fun x => { x with inWindow := false }) }

/-! ### Stall and recovery -/

/-- The port stalls (R178): the feed becomes STALLED by R167 and FEED-n-STALLED is set (R182). -/
def portStall (i : PortId) (s : State) : State :=
  let s := s.onPort i (fun p =>
    { p.discardWindow with state := .stalled, stalls := p.stalls + 1, probeFrom := some s.time.now, probeSeq := none })
  let s := s.onFeed (portFeed i) feedStall
  setCause (.feedStalled i) true s

/-- The port recovers (R180): RUNNING with an empty WINDOW; the feed begins a repaint by R167 and the cause of
FEED-n-STALLED becomes absent (R182). -/
def portRecover (i : PortId) (s : State) : State :=
  let s := s.onPort i (fun p =>
    { p with state := .running, window := [], probeSeq := none, probeFrom := none, recoveries := p.recoveries + 1 })
  let s := s.onFeed (portFeed i) (feedRecover (s.view (portFeed i)))
  setCause (.feedStalled i) false s

/-- The enabling of the port's feed (R174). -/
def Port.enable (p : Port) : Port := { p with state := .running, window := [] }

/-- The disabling of the port's feed (R174). A reply in progress is dropped without being counted (DESIGN CHOICE, log
entry 34: R174 says only that the receiver then discards every byte). -/
def Port.disable (p : Port) : Port :=
  { p.discardWindow with state := .off, probeSeq := none, probeFrom := none, probesWaiting := [], rx := .hunt }

/-- The acknowledgement timeout of a port in µs (R178). -/
def ackLimit (s : State) (i : PortId) : Nat := (s.settings.feed.get (portFeed i)).ackTimeout * 1000

/-- SENT-AT of the timed frame: the oldest of WINDOW, once SENT, while the port is RUNNING (R178). -/
def Port.timed (p : Port) : Option LocalTime :=
  if p.state = .running then
    match p.window with
    | x :: _ => x.sentAt
    | [] => none
  else none

/-- The timeout in force has been reached (R178). -/
def ackOverdue (s : State) (i : PortId) : Bool :=
  match (s.ports.get i).timed with
  | some t => decide (ackLimit s i ≤ s.age t)
  | none => false

/-! ### Replies (R176, R177, R180, R181) -/

/-- Whether WINDOW holds a SENT frame of a sequence number (R177). -/
def sentFrame (q : Byte) (w : List WinFrame) : Bool := w.any (fun x => decide (x.seq = q) && x.sentAt.isSome)

/-- WINDOW without the frames up to the SENT frame of a sequence number (R177). -/
def ackWindow (q : Byte) : List WinFrame → List WinFrame
  | [] => []
  | x :: xs => if x.seq = q ∧ x.sentAt.isSome then xs else ackWindow q xs

/-- An ACK of a RUNNING port (R177). -/
def Port.acked (q : Byte) (p : Port) : Port :=
  if sentFrame q p.window then
    let w := ackWindow q p.window
    { p with window := w, framesAcked := p.framesAcked + BitVec.ofNat 32 (p.window.length - w.length) }
  else { p with strayAcks := p.strayAcks + 1 }

/-- A complete ACK reply acts by R177 or R180; an OFF port discards it (R176). -/
def takeAck (i : PortId) (q : Byte) (s : State) : State :=
  match (s.ports.get i).state with
  | .off => s
  | .running => s.onPort i (Port.acked q)
  | .stalled =>
    if (s.ports.get i).probeSeq = some q then portRecover i s
    else s.onPort i (fun p => { p with strayAcks := p.strayAcks + 1 })

/-- A complete RESYNC reply acts by R181 or R180; an OFF port discards it (R176). -/
def takeResync (i : PortId) (s : State) : State :=
  match (s.ports.get i).state with
  | .off => s
  | .running =>
    let s := s.onPort i (fun p => { p.discardWindow with resyncs := p.resyncs + 1 })
    let s := s.onFeed (portFeed i) feedStall
    s.onFeed (portFeed i) (feedRecover (s.view (portFeed i)))
  | .stalled => portRecover i (s.onPort i (fun p => { p with resyncs := p.resyncs + 1 }))

/-- What a character does to the reply receiver (R176): it goes on collecting, or it has a reply's kind and sequence
number complete. -/
def replyChar (t : LocalTime) (c : Byte) : ReplyRx → ReplyRx × Option (Byte × Byte)
  | .hunt => if c = 0xA5#8 then (.collect [c] t, none) else (.hunt, none)
  | .collect held _ =>
    match held with
    | [_, k] => (.hunt, some (k, c))
    | _ => (.collect (held ++ [c]) t, none)

/-- The receiver after characters, and the number of malformed replies: those of the `n` before and each one that the
characters complete with an unknown kind (R176). A complete ACK or RESYNC among them only returns the receiver to HUNT:
what it does is a command of its own (log entry 7). -/
def replyChars (t : LocalTime) : Bytes → ReplyRx → Nat → ReplyRx × Nat
  | [], rx, n => (rx, n)
  | c :: cs, rx, n =>
    match replyChar t c rx with
    | (rx', none) => replyChars t cs rx' n
    | (rx', some (k, _)) => replyChars t cs rx' (if k ≠ 1 ∧ k ≠ 2 then n + 1 else n)

/-- A reply is in progress. -/
def ReplyRx.busy : ReplyRx → Bool
  | .hunt => false
  | .collect .. => true

/-- A malformed reply: BAD-REPLIES rises and the receiver hunts (R176). -/
def Port.malformed (p : Port) : Port := { p with rx := .hunt, badReplies := p.badReplies + 1 }

/-- Characters and then perhaps a character with a framing error (R176); an OFF port discards every byte. -/
def Port.badReply (t : LocalTime) (chars : Bytes) (errored : Bool) (p : Port) : Port :=
  if p.state = .off then p
  else
    let r := replyChars t chars p.rx 0
    let p := { p with rx := r.1, badReplies := p.badReplies + BitVec.ofNat 32 r.2 }
    if errored && r.1.busy then p.malformed else p

/-! ### The formatter (R171 to R173) -/

/-- A feed requests a grant (R172). -/
def requests (s : State) (i : FeedId) : Bool :=
  owes (s.view i) (s.feeds.feeds.get i) &&
    (match feedPort i with
      | none => s.host.textPlace.isNone
      | some p => decide ((s.ports.get p).state = .running ∧ (s.ports.get p).window.length < Config.windowMax))

/-- A member of the HIGH list requests: a feed as R172 gives, the LOW member while any LOW feed does. -/
def memberRequests (s : State) : Member → Bool
  | .feed i => requests s i
  | .low => s.fmt.low.any (requests s)

/-- The feed the next grant goes to, with the member of the HIGH list it goes through (R173 step 1). -/
def nextGrant (s : State) : Option (FeedId × Member) :=
  match s.fmt.high.find? (memberRequests s) with
  | some (.feed i) => some (i, .feed i)
  | some .low => (s.fmt.low.find? (requests s)).map (fun i => (i, .low))
  | none => none

/-- A member moves to the end of a list (R173). -/
def toEnd {α : Type} [DecidableEq α] (x : α) (l : List α) : List α := l.filter (fun y => decide (y ≠ x)) ++ [x]

/-- The grant order after a grant (R173 step 1) and GRANTS (step 4). -/
def Formatter.granted (i : FeedId) (m : Member) (f : Formatter) : Formatter :=
  { high := toEnd m f.high,
    low := (match m with
      | .low => toEnd i f.low
      | .feed _ => f.low),
    grants := f.grants.upd i (· + 1) }

/-- The frame of a grant is handed on (R173 step 3): to the window of the feed's port, or to the TEXT place. -/
def handOn (i : FeedId) (f : Frame) (s : State) : State :=
  match feedPort i with
  | none => s.onHost (fun h => { h with textPlace := some f })
  | some p => portKick p (s.onPort p (Port.enter f))

/-- A grant to a feed (R173). -/
def grantTo (i : FeedId) (m : Member) (s : State) : State :=
  match owedFrame (s.view i) (s.feeds.feeds.get i) with
  | none => s
  | some (f, feed') =>
    let s := s.onFmt (Formatter.granted i m)
    handOn i f (s.onFeed i (fun _ => settle (s.view i) feed'))

/-- A change of feed-n-group (R171). -/
def Formatter.regroup (i : FeedId) (high : Bool) (f : Formatter) : Formatter :=
  if high then
    let low := f.low.filter (fun x => decide (x ≠ i))
    let hs := if low.isEmpty then f.high.filter (fun m => decide (m ≠ .low)) else f.high
    { f with low := low, high := hs ++ [.feed i] }
  else
    let hs := f.high.filter (fun m => decide (m ≠ .feed i))
    { f with high := if f.low.isEmpty then hs ++ [.low] else hs, low := f.low ++ [i] }

/-! ### Commands -/

/-- GRANT (R173). While no feed requests there is no grant. -/
def execGrant (s : State) : Host.Outcome State Fault Refusal :=
  match nextGrant s with
  | none => .next s
  | some (i, m) => .next (transmit (grantTo i m s))

/-- FRAME_SENT (R175). -/
def execFrameSent (port : PortId) (s : State) : Host.Outcome State Fault Refusal :=
  .next (portKick port (s.onPort port (Port.sent s.time.now)))

/-- ACK (R177, R180). -/
def execAck (port : PortId) (seq : Byte) (s : State) : Host.Outcome State Fault Refusal :=
  .next (transmit (takeAck port seq (s.onPort port (fun p => { p with rx := .hunt }))))

/-- RESYNC (R180, R181). -/
def execResync (port : PortId) (_seq : Byte) (s : State) : Host.Outcome State Fault Refusal :=
  .next (transmit (takeResync port (s.onPort port (fun p => { p with rx := .hunt }))))

/-- MALFORMED_REPLY (R176). -/
def execMalformedReply (port : PortId) (chars : Bytes) (errored : Bool) (s : State) :
    Host.Outcome State Fault Refusal :=
  .next (s.onPort port (Port.badReply s.time.now chars errored))

/-- REPLY_GAP_TIMEOUT (R176): more than 5 ms pass after the last byte of a reply in progress. -/
def execReplyGapTimeout (port : PortId) (chars : Bytes) (s : State) : Host.Outcome State Fault Refusal :=
  let s := s.onPort port (Port.badReply s.time.now chars false)
  match (s.ports.get port).rx with
  | .hunt => .next s
  | .collect _ t => .next ((s.runTo t (Config.replyGap + 1)).onPort port Port.malformed)

/-- ACK_TIMEOUT (R178): the timed frame reaches feed-n-ack-timeout. While no frame is timed there is no timeout. -/
def execAckTimeout (port : PortId) (s : State) : Host.Outcome State Fault Refusal :=
  match (s.ports.get port).timed with
  | none => .next s
  | some t => .next (transmit (portStall port (s.runTo t (ackLimit s port))))

/-- The PROBE of a probe timer expiry (R179). -/
def Port.probe (t : LocalTime) (p : Port) : Port :=
  { p with probeSeq := some p.nextSeq, probesWaiting := p.probesWaiting ++ [p.nextSeq], nextSeq := p.nextSeq + 1,
           probes := p.probes + 1, probeFrom := some t }

/-- PROBE_TIMER_EXPIRY (R179): 1 s after the stall and every 1 s after that. -/
def execProbeTimerExpiry (port : PortId) (s : State) : Host.Outcome State Fault Refusal :=
  match (s.ports.get port).probeFrom with
  | none => .next s
  | some t =>
    let s := s.runTo t Config.probeInterval
    .next (portKick port (s.onPort port (Port.probe (t + BitVec.ofNat 32 Config.probeInterval))))

/-- RELEASE_TIMER_EXPIRY (R154): the unit the release timer runs on reaches DELAY and the feed is settled. -/
def execReleaseTimerExpiry (feed : FeedId) (s : State) : Host.Outcome State Fault Refusal :=
  match (releaseUnit (s.view feed) (s.feeds.feeds.get feed)).bind TUnit.commitTime with
  | none => .next s
  | some t => .next (settleFeed feed (s.runTo t ((s.settings.feed.get feed).delay * 1000000)))

/-- AGED_TO_EXPIRY (R154): the oldest held unit above AGED-TO that has a COMMIT-TIME reaches 120 s. -/
def execAgedToExpiry (s : State) : Host.Outcome State Fault Refusal :=
  match agingUnit s with
  | none => .next s
  | some t =>
    let s := s.runTo t Config.agedLimit
    .next (settleAll (s.onFeeds (fun m => { m with agedTo := agedHighest s })))

/-- FEED-REPAINT, the owning rule (R164). -/
def feedRepaintRule (payload : Bytes) (s : State) : State × Result :=
  match feedOfNum (byteAt payload 0) with
  | none => (s, .refused .badValue)
  | some i =>
    match (s.feeds.feeds.get i).state with
    | .off => (s, .refused .regionState)
    | .stalled => (s, .refused .busy)
    | _ => (repaintFeed i s, .done [])

/-- FEED_REPAINT (R164). -/
def execFeedRepaint (tag : Byte) (payload : Bytes) (s : State) : Host.Outcome State Fault Refusal :=
  .next (transmit (takeRequest tag (decide (payload.length = 1)) false (feedRepaintRule payload) noAfter s))

end Sys2Proof.Machine
end

