-- ==== Sys2Proof/Machine/Operands.lean ====
section
/-! DEFINITION. The operands of the host requests (paragraph 11.4, R196, R198): length tests, the fields a payload
carries, and the settings a code and index name. -/

namespace Sys2Proof.Machine

/-! ### Length tests (R198) -/

/-- A payload of a fixed length. -/
def lenIs (n : Nat) (p : Bytes) : Bool := decide (p.length = n)

/-- DEFINE-SPEAKER and INSERT-NOTE: one byte, then a text. -/
def lenText1 (p : Bytes) : Bool := lenIs (2 + byteAt p 1) p

/-- ENTRY-ADD: dictionary, options, stroke count, text length, strokes, text. -/
def lenEntryAdd (p : Bytes) : Bool := lenIs (4 + 3 * byteAt p 2 + byteAt p 3) p

/-- ENTRY-DELETE and ENTRY-LOOKUP: dictionary, outline. -/
def lenOutline (p : Bytes) : Bool := lenIs (2 + 3 * byteAt p 1) p

/-- EDIT-UNIT: unit number, join, text. -/
def lenEdit (p : Bytes) : Bool := lenIs (6 + byteAt p 5) p

/-- READBACK: criterion, BEFORE, MAX, argument. -/
def lenReadback (p : Bytes) : Bool := lenIs (7 + byteAt p 6) p

/-! ### Outlines -/

/-- The highest stroke value: bit 23 is 0 in a valid one (R196). -/
abbrev strokeMax : Nat := 8388607

/-- A stroke value a dictionary request accepts (R88, R91). -/
def strokeOk (k : Nat) : Bool := decide (1 ≤ k ∧ k ≤ strokeMax)

/-! ### Settings (paragraphs 10.4 and 11.4) -/

/-- The settings by name. -/
inductive Setting
  | holdTime | undoDepth | firmTime | strokeLimit | floorWait
  | takeOutline (p : Pos)
  | lockTimeout | logAge | capAfterParagraph | strokeEcho | hostRate
  | feedEnable (i : FeedId)
  | tier (p : PortId)
  | mask (p : PortId)
  | delay (p : PortId)
  | depth (p : PortId)
  | ackTimeout (p : PortId)
  | rate (p : PortId)
  | group (i : FeedId)
deriving DecidableEq, Repr

/-- The display port of an index 1 to 4. -/
def portOfNum : Nat → Option PortId
  | 1 => some .p1
  | 2 => some .p2
  | 3 => some .p3
  | 4 => some .p4
  | _ => none

/-- A setting whose code takes index 0. -/
def plainSetting (x : Setting) (index : Nat) : Option Setting := if index = 0 then some x else none

/-- The setting a code and an index name; none when they name no setting (paragraph 11.4, R191: tier, mask, delay,
depth, ack-timeout and rate name nothing for feed 0). -/
def settingOf (code index : Nat) : Option Setting :=
  match code with
  | 1 => plainSetting .holdTime index
  | 2 => plainSetting .undoDepth index
  | 3 => plainSetting .firmTime index
  | 4 => plainSetting .strokeLimit index
  | 5 => plainSetting .floorWait index
  | 6 => (posOfCode index).map .takeOutline
  | 7 => plainSetting .lockTimeout index
  | 8 => plainSetting .logAge index
  | 9 => plainSetting .capAfterParagraph index
  | 10 => plainSetting .strokeEcho index
  | 11 => plainSetting .hostRate index
  | 12 => (feedOfNum index).map .feedEnable
  | 13 => (portOfNum index).map .tier
  | 14 => (portOfNum index).map .mask
  | 15 => (portOfNum index).map .delay
  | 16 => (portOfNum index).map .depth
  | 17 => (portOfNum index).map .ackTimeout
  | 18 => (portOfNum index).map .rate
  | 19 => (feedOfNum index).map .group
  | _ => none

/-- A value replaced by the nearest limit of its range (R191). -/
def clamp (lo hi v : Nat) : Nat := max lo (min v hi)

/-- A value of a listed set; any other is refused (R191). -/
def listed (l : List Nat) (v : Nat) : Option Nat := if l.contains v then some v else none

/-- The value SET puts in force: none when it is refused with BAD-VALUE, otherwise clamped (R191, paragraph 10.4). -/
def Setting.accept (x : Setting) (v : Nat) : Option Nat :=
  match x with
  | .holdTime => some (if v = 0 then 0 else clamp 300 5000 v)
  | .undoDepth => some (clamp 1 16 v)
  | .firmTime => some (clamp 2 60 v)
  | .strokeLimit => some (clamp 500 4000 v)
  | .floorWait => some (clamp 500 10000 v)
  | .takeOutline _ => if v ≤ strokeMax then some v else none
  | .lockTimeout => some (clamp 5 300 v)
  | .logAge => some (clamp 500 10000 v)
  | .capAfterParagraph => listed [0, 1] v
  | .strokeEcho => listed [0, 1] v
  | .hostRate => listed [115200, 230400, 460800, 921600] v
  | .feedEnable _ => listed [0, 1] v
  | .tier _ => listed [0, 1, 2] v
  | .mask _ => if v < 16 then some v else none
  | .delay _ => some (clamp 1 120 v)
  | .depth _ => some (clamp 8 256 v)
  | .ackTimeout _ => some (clamp 50 2000 v)
  | .rate _ => listed [9600, 19200, 38400, 57600, 115200] v
  | .group _ => listed [0, 1] v

/-- The number of an on/off value. -/
def boolNum (b : Bool) : Nat := if b then 1 else 0

/-- The value of a setting in force (R191, GET). -/
def Setting.value (x : Setting) (g : Settings) : Nat :=
  match x with
  | .holdTime => g.holdTime
  | .undoDepth => g.undoDepth
  | .firmTime => g.firmTime
  | .strokeLimit => g.strokeLimit
  | .floorWait => g.floorWait
  | .takeOutline p => g.takeOutline.get p
  | .lockTimeout => g.lockTimeout
  | .logAge => g.logAge
  | .capAfterParagraph => boolNum g.capAfterParagraph
  | .strokeEcho => boolNum g.strokeEcho
  | .hostRate => g.hostRate
  | .feedEnable i => boolNum (g.feed.get i).enable
  | .tier p => tierCode (g.feed.get (portFeed p)).tier
  | .mask p => (g.feed.get (portFeed p)).mask.toNat
  | .delay p => (g.feed.get (portFeed p)).delay
  | .depth p => (g.feed.get (portFeed p)).depth
  | .ackTimeout p => (g.feed.get (portFeed p)).ackTimeout
  | .rate p => (g.feed.get (portFeed p)).rate
  | .group i => boolNum (!(g.feed.get i).high)

/-- A change of the settings of one feed. -/
def Settings.onFeed (g : Settings) (i : FeedId) (f : FeedSettings → FeedSettings) : Settings :=
  { g with feed := g.feed.upd i f }

/-- The settings with an accepted value in force (R191). -/
def Setting.put (x : Setting) (v : Nat) (g : Settings) : Settings :=
  match x with
  | .holdTime => { g with holdTime := v }
  | .undoDepth => { g with undoDepth := v }
  | .firmTime => { g with firmTime := v }
  | .strokeLimit => { g with strokeLimit := v }
  | .floorWait => { g with floorWait := v }
  | .takeOutline p => { g with takeOutline := g.takeOutline.upd p (fun _ => v) }
  | .lockTimeout => { g with lockTimeout := v }
  | .logAge => { g with logAge := v }
  | .capAfterParagraph => { g with capAfterParagraph := decide (v = 1) }
  | .strokeEcho => { g with strokeEcho := decide (v = 1) }
  | .hostRate => { g with hostRate := v }
  | .feedEnable i => g.onFeed i (fun f => { f with enable := decide (v = 1) })
  | .tier p => g.onFeed (portFeed p) (fun f => { f with tier := (tierOfCode v).getD f.tier })
  | .mask p => g.onFeed (portFeed p) (fun f => { f with mask := BitVec.ofNat 4 v })
  | .delay p => g.onFeed (portFeed p) (fun f => { f with delay := v })
  | .depth p => g.onFeed (portFeed p) (fun f => { f with depth := v })
  | .ackTimeout p => g.onFeed (portFeed p) (fun f => { f with ackTimeout := v })
  | .rate p => g.onFeed (portFeed p) (fun f => { f with rate := v })
  | .group i => g.onFeed i (fun f => { f with high := decide (v = 0) })

end Sys2Proof.Machine
end

