-- ==== Sys2Proof/Machine/Transcript.lean ====
section
/-! DEFINITION. The transcript manager's shared operations (Section 7): hand-overs, firmness, retention, the lock and
the readback result. -/

namespace Sys2Proof.Machine

/-! ### Units -/

/-- One held unit changed, by its number. -/
def changeUnit (n : Nat) (f : TUnit → TUnit) (us : List TUnit) : List TUnit :=
  us.map (fun u => if u.number = n then f u else u)

/-- A unit is COMMITTED. -/
def TUnit.isCommitted (u : TUnit) : Bool := decide (u.state = .committed)

/-- A unit is PROVISIONAL. -/
def TUnit.isProvisional (u : TUnit) : Bool := decide (u.state = .provisional)

/-- The oldest COMMITTED unit held. -/
def Transcript.oldestCommitted (t : Transcript) : Option TUnit := t.units.find? TUnit.isCommitted

/-- The number of COMMITTED units held. -/
def Transcript.committedCount (t : Transcript) : Nat := t.units.countP TUnit.isCommitted

/-- A number is the number of a unit held. -/
def Transcript.holds (t : Transcript) (n : Nat) : Bool := t.units.any (fun u => decide (u.number = n))

/-- The unit of a number. -/
def Transcript.unit? (t : Transcript) (n : Nat) : Option TUnit := t.units.find? (fun u => decide (u.number = n))

/-- The units held from FIRST to LAST: the range of a request (R139, R143). -/
def Transcript.range (t : Transcript) (first last : Nat) : List TUnit :=
  t.units.filter (fun u => decide (first ≤ u.number ∧ u.number ≤ last))

/-- A number lies in the lock (R139). -/
def Transcript.inLock (t : Transcript) (n : Nat) : Bool :=
  match t.lock with
  | none => false
  | some l => decide (l.first ≤ n ∧ n ≤ l.last)

/-! ### Firmness (R130 to R132) -/

/-- A unit becomes FIRM, with its FIRMED report (R131). -/
def firmUnit (n : Nat) (s : State) : State :=
  report (.firmed n) (s.onScript (fun t =>
    { t with units := changeUnit n (fun u => { u with state := .firm }) t.units, unitsFirmed := t.unitsFirmed + 1 }))

/-- The `k` oldest COMMITTED units become FIRM, oldest first (R130). -/
def firmOldest : Nat → State → State
  | 0, s => s
  | k + 1, s =>
    match s.script.oldestCommitted with
    | none => s
    | some u => firmOldest k (firmUnit u.number s)

/-- Firmness by count (R131): while more than undo-depth units are COMMITTED the oldest becomes FIRM. -/
def firmByCount (s : State) : State := firmOldest (s.script.committedCount - s.settings.undoDepth) s

/-- The COMMITTED units that have reached firm-time (R132). -/
def firmDue (s : State) : Nat :=
  s.script.units.countP (fun u => u.isCommitted && u.aged s.time.now (s.settings.firmTime * 1000000))

/-- Firmness by time (R132). -/
def firmByTime (s : State) : State := firmOldest (firmDue s) s

/-! ### Retention (R133, R141) and the hand-overs (R128) -/

/-- The lock is released (R140). -/
def releaseLock (s : State) : State := s.onScript (fun t => { t with lock := none })

/-- The lock is broken when a freed unit lies in it (R141). -/
def breakLock (n : Nat) (s : State) : State :=
  if s.script.inLock n then
    raiseLatched .lockBroken (s.onScript (fun t => { t with lock := none, locksBroken := t.locksBroken + 1 }))
  else s

/-- A unit leaves the untranslate list (R122). -/
def dropUntranslate (n : Nat) (s : State) : State :=
  s.onTrans (fun t => { t with untranslates := t.untranslates.filter (fun e => decide (e.1 ≠ n)) })

/-- The head unit is freed (R133). -/
def freeHead (s : State) : State :=
  match s.script.units with
  | [] => s
  | u :: us =>
    let s := s.onScript (fun t => { t with units := us, unitsFreed := t.unitsFreed + 1 })
    breakLock u.number (report (.freed u.number) (dropUntranslate u.number s))

/-- CREATE (R128): the unit is appended with the next number; on a full transcript the head is freed first; a unit
created COMMITTED takes COMMIT-TIME and firmness by count is applied. -/
def createUnit (u : TUnit) (s : State) : State :=
  let s := if Config.unitsMax ≤ s.script.units.length then freeHead s else s
  let n := s.script.nextNumber
  let u' := { u with number := n, commitTime := if u.isCommitted then some s.time.now else none }
  let s := s.onScript (fun t =>
    { t with units := t.units ++ [u'], nextNumber := n + 1, unitsCreated := t.unitsCreated + 1 })
  let s := report (.added n) s
  if u.isCommitted then firmByCount s else s

/-- PROMOTE (R128): the PROVISIONAL unit becomes COMMITTED now and firmness by count is applied. -/
def promoteUnit (n : Nat) (s : State) : State :=
  firmByCount (report (.committed n) (s.onScript (fun t =>
    { t with units := changeUnit n (fun u => { u with state := .committed, commitTime := some s.time.now }) t.units })))

/-- RETRACT-FROM (R128): every unit numbered n or above leaves the transcript. -/
def retractFrom (n : Nat) (s : State) : State :=
  let kept := s.script.units.filter (fun u => decide (u.number < n))
  report (.retractedFrom n) (s.onScript (fun t =>
    { t with units := kept,
             unitsRetracted := t.unitsRetracted + BitVec.ofNat 32 (t.units.length - kept.length) }))

/-- REPLACE (R128) and the replacement of EDIT-UNIT (R142). -/
def replaceUnit (n : Nat) (f : TUnit → TUnit) (s : State) : State :=
  report (.replaced n) (s.onScript (fun t => { t with units := changeUnit n f t.units }))

/-! ### Readback (R145 to R148) -/

/-- A text taken as lower case (R146). -/
def lowered (t : Bytes) : Bytes := t.map lowerByte

/-- The test of a criterion (R146). -/
def Criterion.passes (c : Criterion) (u : TUnit) : Bool :=
  match c with
  | .speaker n => decide (u.kind = .speakerLabel ∧ u.speaker = n)
  | .word w => decide (lowered u.text = lowered w)

/-- An entry of a readback result (R148, paragraph 11.3). -/
def readbackEntry (t : Transcript) (n : Nat) : Bytes :=
  match t.unit? n with
  | none => be 4 n ++ [0xFF#8]
  | some u =>
    be 4 n ++ [byte (unitStateCode u.state), byte (unitKindCode u.kind), byte (clsCode u.cls), byte u.speaker,
      beFlags [u.join, u.paragraphStart, u.suspect, u.unlogged, u.edited, u.globaled]] ++
      be 4 u.timecode ++ beOpt (u.firstSeq.map be4) ++ beText u.text

/-- The entries divided into parts of whole entries, as many as fit in `room` bytes each (R148): `acc` is the part being
filled, entries and bytes. -/
def splitParts (room : Nat) : List Bytes → Nat → Bytes → List (Nat × Bytes)
  | [], k, acc => [(k, acc)]
  | e :: es, k, acc =>
    if acc.length + e.length ≤ room then splitParts room es (k + 1) (acc ++ e)
    else (k, acc) :: splitParts room es 1 e

/-- The COMPLETION notices of the parts, in part order (R148). -/
def readbackParts (tag : Byte) (head : Bytes) : Nat → List (Nat × Bytes) → State → State
  | _, [], s => s
  | i, (k, bytes) :: rest, s =>
    readbackParts tag head (i + 1) rest
      (offerNotice (.completion tag 0x1A none i rest.isEmpty (head ++ byte k :: bytes)) s)

/-- The search completes (R148): FOUND, START and the entries of LIST as they stand, in as many parts as they need. A
COMPLETION's payload is 1024 bytes, of which five are its own fields (paragraph 11.3): five, because the part number is
taken as one byte (DESIGN CHOICE, log entry 15). -/
def completeReadback (q : Search) (s : State) : State :=
  let head := beBool q.start.isSome :: beOpt (q.start.map (be 4))
  let entries := q.list.map (readbackEntry s.script)
  let parts := splitParts (Config.hostPayloadMax - 5 - head.length - 1) entries 0 []
  readbackParts q.tag head 1 parts (s.onScript (fun t => { t with search := none }))

/-- A search in flight completes at OPEN-SESSION (R135, R148). -/
def completeSearch (s : State) : State :=
  match s.script.search with
  | none => s
  | some q => completeReadback q s

end Sys2Proof.Machine
end

