-- ==== Sys2Proof/Machine/LogWriter.lean ====
section
/-! DEFINITION. The log writer's shared operations (R73 to R76): offering a record, closing the OPEN page, the causes of
its conditions. -/

namespace Sys2Proof.Machine

/-- The pages of the log region (R56): 256 for each of its blocks. -/
def Store.logPages (st : Store) : Nat :=
  match st.header with
  | none => 0
  | some h => h.log.len * 256

/-- The cause of LOG-NEARLY-FULL (R76). -/
def Store.logNearlyFull (st : Store) : Bool :=
  match st.log.append with
  | none => false
  | some a => decide (st.logPages * 9 ≤ a * 10)

/-- The cause of LOG-FULL (R76): LOG-APPEND is past the last page. -/
def Store.logFull (st : Store) : Bool :=
  match st.log.append with
  | none => false
  | some a => decide (st.logPages ≤ a)

/-- The causes of LOG-NEARLY-FULL and LOG-FULL are evaluated (R61, R70, R76), in this order (DESIGN CHOICE, log entry
11). -/
def logCauses (s : State) : State :=
  setCause .logFull s.store.logFull (setCause .logNearlyFull s.store.logNearlyFull s)

/-- The OPEN page, the newest of the occupied pages (R73). -/
def LogWriter.openPage (w : LogWriter) : Option BufPage := w.pages.find? (fun p => decide (p.state = .opened))

/-- A record enters the OPEN page, which closes with its sixteenth (R73, R75). -/
def BufPage.take (rec : Bytes) (p : BufPage) : BufPage :=
  if p.state = .opened then
    { p with records := p.records ++ [rec],
             state := if Config.pageRecords ≤ p.records.length + 1 then .waiting else .opened }
  else p

/-- A new page can be opened: a FREE page exists and LOG-APPEND is a page of the region (R74). -/
def State.newPage (s : State) : Option Nat :=
  if s.log.pages.length < Config.bufferPages && !s.store.logFull then s.store.log.append else none

/-- The log writer takes records: the store is READY or FAULT (R79). -/
def State.logTakes (s : State) : Bool := decide (s.store.state = .ready ∨ s.store.state = .fault)

/-- A record is offered to the log writer: the state after it, and whether it was taken (R74). -/
def offerRecord (rec : Bytes) (s : State) : State × Bool :=
  if !s.logTakes then (s, false)
  else
    match s.log.openPage with
    | some _ => (s.onLog (fun w => { w with pages := w.pages.map (BufPage.take rec) }), true)
    | none =>
      match s.newPage with
      | none => (s, false)
      | some a =>
        let s := s.onLog (fun w =>
          { w with pages := w.pages ++ [{ state := .opened, page := a, records := [rec], since := s.time.now }] })
        (logCauses (s.onStore (fun st => { st with log := { st.log with append := some (a + 1) } })), true)

/-- The session number of a log record: that of the session, or 0 before the first (R74). -/
def State.logSession (s : State) : Nat := s.script.sessionNumber.getD 0

/-- The undo stroke (paragraph 0.5.16). -/
abbrev undoValue : Keys := 1024#23

/-- A record of another kind than STROKE is offered; a refusal adds one to RECORDS-REFUSED (R74). -/
def offerOther (rec : Bytes) (s : State) : State :=
  let r := offerRecord rec s
  if r.2 then r.1 else r.1.onLog (fun w => { w with recordsRefused := w.recordsRefused + 1 })

/-- The STROKE record of a stroke (R74, paragraph 11.6). -/
def strokeRecord (s : State) (r : StrokeRec) : Bytes :=
  logRecord r.keys.toNat
    (logFlags (some r.pos) (decide ((s.posRec r.pos).state = .live)) r.damaged r.held (decide (r.keys = undoValue)) false)
    r.timecode r.seq.toNat s.logSession 1

/-- A stroke is offered to the log writer: a refusal adds one to UNLOGGED-COUNT and raises UNLOGGED-STROKES (R74). -/
def offerStroke (r : StrokeRec) (s : State) : State × Bool :=
  let o := offerRecord (strokeRecord s r) s
  if o.2 then o
  else (raiseLatched .unloggedStrokes (o.1.onLog (fun w => { w with unloggedCount := w.unloggedCount + 1 })), false)

/-- The FLOOR record of a floor change (R36, paragraph 11.6). -/
def floorRecord (s : State) (cause : FloorCause) (live : Option Pos) (timecode : Nat) : Bytes :=
  logRecord (floorCauseCode cause) (logFlags live false false false false false) timecode s.seqCounter.toNat
    s.logSession 4

/-- The NOTE-MARK record of a note (R124, paragraph 11.6). -/
def noteRecord (s : State) (number timecode : Nat) : Bytes :=
  logRecord 0 (logFlags none false false false false false) timecode number s.logSession 5

/-- The SESSION-OPEN record (R135, paragraph 11.6). -/
def openRecord (s : State) (timecode : Nat) : Bytes :=
  logRecord (min (s.script.epoch.getD 0 / 1000) 16777215)
    (logFlags s.script.startingPos false false false false false) timecode (s.script.jobNumber.getD 0) s.logSession 2

/-- The SESSION-CLOSE record (R137, R138, paragraph 11.6). -/
def closeRecord (s : State) (timecode : Nat) (aborted : Bool) : Bytes :=
  logRecord 0 (logFlags none false false false false aborted) timecode s.seqCounter.toNat s.logSession 3

/-- The OPEN page closes and waits for the store controller (R75). -/
def LogWriter.closePage (w : LogWriter) : LogWriter :=
  { w with pages := w.pages.map (fun p => if p.state = .opened then { p with state := .waiting } else p) }

/-- The OPEN page has reached log-age (R75). -/
def logAgeDue (s : State) : Bool :=
  match s.log.openPage with
  | none => false
  | some p => decide (s.settings.logAge * 1000 ≤ s.age p.since)

/-- The log writer is asked for the flush of CLOSE-SESSION or of RESTART (R75). -/
def beginFlush (f : Flush) (s : State) : State := s.onLog (fun w => { w.closePage with flush := f })

end Sys2Proof.Machine
end

