-- ==== Sys2Proof/Machine/Parse.lean ====
section
/-! DEFINITION. The parse of a work list (R104, R106 to R109) and the forming of units from entries and the format state
(paragraph 6.4, R110 to R114, R116). -/

namespace Sys2Proof.Machine

/-! ### Combined results (R104) -/

/-- The result of one lookup of a run. -/
def resultFor (rs : List RunResult) (i j : Nat) (d : Dict) : Option RunResult :=
  rs.find? (fun r => decide (r.first = i ∧ r.last = j ∧ r.dict = d))

/-- The combined text of a run and its source: J's text, else the personal dictionary's (R104). -/
def combinedText (rs : List RunResult) (p : Pos) (i j : Nat) : Option (Bytes × Dict) :=
  match (resultFor rs i j .j).bind RunResult.text with
  | some t => some (t, .j)
  | none => ((resultFor rs i j (personal p)).bind RunResult.text).map (fun t => (t, personal p))

/-- The combined longer flag of a run (R104). -/
def combinedLonger (rs : List RunResult) (p : Pos) (i j : Nat) : Bool :=
  ((resultFor rs i j .j).map RunResult.longer).getD false ||
    ((resultFor rs i j (personal p)).map RunResult.longer).getD false

/-! ### Strokes as text (R107, R108, paragraph 0.6.7) -/

/-- The digit keys with their digits, in index order (paragraph 0.5.17). -/
def digitKeys : List (Nat × Byte) :=
  [(1, 0x31#8), (2, 0x32#8), (4, 0x33#8), (6, 0x34#8), (8, 0x35#8), (9, 0x30#8), (13, 0x36#8), (15, 0x37#8),
   (17, 0x38#8), (19, 0x39#8)]

/-- The keys a number stroke may hold: #, E, U and the digit keys (paragraph 0.5.17). -/
def numberKeys : Keys := 0x0ABB57#23

/-- The digit keys as a set. -/
def digitSet : Keys := 0x0AA356#23

/-- A number stroke (R107). -/
def isNumberStroke (k : Keys) : Bool :=
  k.getLsbD 0 && decide (k &&& digitSet ≠ 0#23) && decide (k &&& ~~~numberKeys = 0#23)

/-- The digits of a stroke in index order. -/
def strokeDigits (k : Keys) : Bytes := (digitKeys.filter (fun d => k.getLsbD d.1)).map Prod.snd

/-- The text of a NUMBER unit (R107). -/
def numberText (k : Keys) : Bytes :=
  if k.getLsbD 11 || k.getLsbD 12 then (strokeDigits k).reverse else strokeDigits k

/-- The letters of the keys by index (paragraph 0.6.7): # STKPWHR AO*EU FRPBLGTSDZ. -/
def keyLetters : List (Nat × Byte) :=
  [(0, 0x23#8), (1, 0x53#8), (2, 0x54#8), (3, 0x4B#8), (4, 0x50#8), (5, 0x57#8), (6, 0x48#8), (7, 0x52#8),
   (8, 0x41#8), (9, 0x4F#8), (10, 0x2A#8), (11, 0x45#8), (12, 0x55#8),
   (13, 0x46#8), (14, 0x52#8), (15, 0x50#8), (16, 0x42#8), (17, 0x4C#8), (18, 0x47#8), (19, 0x54#8), (20, 0x53#8),
   (21, 0x44#8), (22, 0x5A#8)]

/-- The letters of a stroke's keys from one index to another. -/
def lettersOf (k : Keys) (lo hi : Nat) : Bytes :=
  (keyLetters.filter (fun d => decide (lo ≤ d.1 ∧ d.1 ≤ hi) && k.getLsbD d.1)).map Prod.snd

/-- A stroke in steno notation (paragraph 0.6.7). -/
def stenoText (k : Keys) : Bytes :=
  let middle := lettersOf k 8 12
  let right := lettersOf k 13 22
  let hyphen : Bytes := if middle.isEmpty && !right.isEmpty then [0x2D#8] else []
  lettersOf k 0 7 ++ middle ++ hyphen ++ right

/-! ### The parse (R106) -/

/-- What a unit of the parse is made from. -/
inductive Entry
  | word (text : Bytes) (src : Dict)
  | number
  | untranslate
deriving DecidableEq, Repr

/-- A unit of the parse: its first stroke's place in the work list, its strokes and its entry. -/
structure ParseUnit where
  start : Nat
  strokes : List StrokeRec
  entry : Entry
deriving DecidableEq, Repr

/-- The longest run from `i` of at most `len` strokes that has a combined text: its length, text and source (R106). -/
def longestRun (rs : List RunResult) (p : Pos) (i : Nat) : Nat → Option (Nat × Bytes × Dict)
  | 0 => none
  | len + 1 =>
    match combinedText rs p i (i + len) with
    | some (t, d) => some (len + 1, t, d)
    | none => longestRun rs p i len

/-- The unit that starts at place `i`, where the strokes left are `s :: rest` (R106). -/
def parseOne (rs : List RunResult) (p : Pos) (i : Nat) (s : StrokeRec) (rest : List StrokeRec) : ParseUnit :=
  match longestRun rs p i (min Config.outlineMax (rest.length + 1)) with
  | some (len, t, d) => { start := i, strokes := (s :: rest).take len, entry := .word t d }
  | none => { start := i, strokes := [s], entry := if isNumberStroke s.keys then .number else .untranslate }

/-- The parse of the strokes left from place `i` on; `fuel` bounds their number (R106). -/
def parseFrom (rs : List RunResult) (p : Pos) : Nat → Nat → List StrokeRec → List ParseUnit
  | 0, _, _ => []
  | _ + 1, _, [] => []
  | fuel + 1, i, s :: rest =>
    let u := parseOne rs p i s rest
    u :: parseFrom rs p fuel (i + u.strokes.length) ((s :: rest).drop u.strokes.length)

/-- The open test of the remainder that starts at place `i` of a work list of `k` strokes (R109). -/
def remainderOpen (rs : List RunResult) (p : Pos) (k i : Nat) : Bool :=
  combinedLonger rs p i (k - 1) && decide (k - i < Config.outlineMax)

/-- The units marked: COMMITTED until the remainder is open, PROVISIONAL from then on (R109). -/
def markUnits (rs : List RunResult) (p : Pos) (k : Nat) : List ParseUnit → List (ParseUnit × Bool)
  | [] => []
  | u :: us =>
    if remainderOpen rs p k u.start then (u :: us).map (fun x => (x, false)) else (u, true) :: markUnits rs p k us

/-! ### Entry commands (R111, paragraph 11.8) -/

/-- An entry command. -/
inductive Cmd
  | capNext | lowerNext | attachLeft | attachRight | paragraph
  | speaker (n : Nat)
  | cls (c : Cls)
deriving DecidableEq, Repr

/-- A piece of an entry text: a literal byte, a command, or a malformed command that is removed. -/
inductive Piece
  | lit (b : Byte)
  | cmd (c : Cmd)
  | bad
deriving DecidableEq, Repr

/-- The escape byte (paragraph 11.8). -/
abbrev escByte : Byte := 0x1B#8

/-- The command of a code that takes no argument (paragraph 11.8). -/
def simpleCmd (b : Byte) : Option Cmd :=
  match b.toNat with
  | 0x43 => some .capNext
  | 0x4C => some .lowerNext
  | 0x3C => some .attachLeft
  | 0x3E => some .attachRight
  | 0x50 => some .paragraph
  | _ => none

/-- A command with its argument, malformed when the argument is out of range (R111). -/
def argCmd (code a : Byte) : Piece :=
  if code = 0x53#8 then (if 1 ≤ a.toNat ∧ a.toNat ≤ 32 then .cmd (.speaker a.toNat) else .bad)
  else match clsOfCode a.toNat with
    | some c => .cmd (.cls c)
    | none => .bad

/-- SPEAKER and CLASS take an argument byte. -/
def takesArg (code : Byte) : Bool := decide (code = 0x53#8 ∨ code = 0x4B#8)

/-- An entry text divided into literal bytes and commands (R111); `fuel` bounds its length. -/
def divideText : Nat → Bytes → List Piece
  | 0, _ => []
  | _ + 1, [] => []
  | fuel + 1, b :: rest =>
    if b ≠ escByte then .lit b :: divideText fuel rest
    else
      match rest with
      | [] => [.bad]
      | c :: rest =>
        match simpleCmd c with
        | some k => .cmd k :: divideText fuel rest
        | none =>
          if takesArg c then
            match rest with
            | [] => [.bad]
            | a :: rest => argCmd c a :: divideText fuel rest
          else .bad :: divideText fuel rest

/-- The pieces of an entry text (R111). -/
def pieces (t : Bytes) : List Piece := divideText (t.length + 1) t

/-- The literal bytes of an entry, in order. -/
def literals (ps : List Piece) : Bytes := ps.filterMap (fun x => match x with
  | .lit b => some b
  | _ => none)

/-- The commands of an entry, in order. -/
def commands (ps : List Piece) : List Cmd := ps.filterMap (fun x => match x with
  | .cmd c => some c
  | _ => none)

/-- A piece is a literal byte. -/
def Piece.isLit : Piece → Bool
  | .lit _ => true
  | _ => false

/-- The leading commands: those before the first literal byte (R111). -/
def leadingCmds (ps : List Piece) : List Cmd := commands (ps.takeWhile (fun x => !x.isLit))

/-- The trailing commands (R111). -/
def trailingCmds (ps : List Piece) : List Cmd := commands (ps.dropWhile (fun x => !x.isLit))

/-- The malformed commands removed (R111). -/
def badCount (ps : List Piece) : Nat := ps.countP (fun x => decide (x = .bad))

/-- The speaker of an entry: the last SPEAKER command (R113). -/
def speakerOf (cs : List Cmd) : Option Nat := (cs.filterMap (fun c => match c with
  | .speaker n => some n
  | _ => none)).getLast?

/-! ### The format state (R112 to R114) -/

/-- A command with its leading effect on the working state (R112, R113); `capPara` is cap-after-paragraph. -/
def Fmt.lead (capPara : Bool) (f : Fmt) (c : Cmd) : Fmt :=
  match c with
  | .capNext => { f with capNext := true, lowerNext := false }
  | .lowerNext => { f with lowerNext := true, capNext := false }
  | .attachLeft => f
  | .attachRight => f
  | .paragraph =>
    if capPara then { f with paraPending := true, capNext := true, lowerNext := false }
    else { f with paraPending := true }
  | .speaker n => { f with speaker := n }
  | .cls c => { f with cls := c }

/-- A command with its trailing effect: as when leading, but ATTACH-LEFT sets ATTACH-NEXT on (R112). -/
def Fmt.trail (capPara : Bool) (f : Fmt) (c : Cmd) : Fmt :=
  if c = .attachLeft then { f with attachNext := true } else f.lead capPara c

/-- The pending flags are consumed (R112). -/
def Fmt.consume (f : Fmt) : Fmt :=
  { f with capNext := false, lowerNext := false, attachNext := false, paraPending := false }

/-- ATTACH-NEXT is set on after the unit when the entry holds an ATTACH-RIGHT (R112 to R114). -/
def Fmt.attachAfter (cs : List Cmd) (f : Fmt) : Fmt := if cs.contains .attachRight then { f with attachNext := true } else f

/-- The casing of a WORD unit's text (R112). -/
def Fmt.caseText (f : Fmt) (t : Bytes) : Bytes :=
  if f.capNext then mapFirst upperByte t else if f.lowerNext then mapFirst lowerByte t else t

/-- The text of a speaker label: its label, or "(Speaker n)" (R113). -/
def labelText (labels : List Bytes) (n : Nat) : Bytes :=
  match labels.getD (n - 1) [] with
  | [] => [0x28#8, 0x53#8, 0x70#8, 0x65#8, 0x61#8, 0x6B#8, 0x65#8, 0x72#8, 0x20#8] ++ decimal n ++ [0x29#8]
  | l => l

/-- The source of a dictionary's text. -/
def dictSource : Dict → Source
  | .j => .j
  | .pa => .pa
  | .pb => .pb

/-- The formed fields of a unit and the state it leaves. -/
structure Formed where
  kind : UnitKind
  text : Bytes
  join : Bool
  paragraphStart : Bool
  cls : Cls
  speaker : Nat
  source : Source
  after : Fmt
deriving DecidableEq, Repr

/-- A text unit (R112): `lead` and `trail` are its commands, `cased` marks a WORD. -/
def formText (capPara : Bool) (kind : UnitKind) (src : Source) (cased : Bool) (lits : Bytes) (lead trail : List Cmd)
    (w : Fmt) : Formed :=
  let f := lead.foldl (Fmt.lead capPara) w
  { kind := kind, text := if cased then f.caseText lits else lits, join := f.attachNext || lead.contains .attachLeft,
    paragraphStart := f.paraPending, cls := f.cls, speaker := f.speaker, source := src,
    after := Fmt.attachAfter (lead ++ trail) (trail.foldl (Fmt.trail capPara) f.consume) }

/-- A SPEAKER-LABEL unit (R113). -/
def formLabel (capPara : Bool) (labels : List Bytes) (src : Source) (cs : List Cmd) (n : Nat) (w : Fmt) : Formed :=
  let f := cs.foldl (Fmt.lead capPara) w
  { kind := .speakerLabel, text := labelText labels n, join := false, paragraphStart := true, cls := f.cls, speaker := n,
    source := src, after := Fmt.attachAfter cs { f.consume with capNext := true } }

/-- A COMMAND unit (R114). -/
def formCommand (capPara : Bool) (src : Source) (cs : List Cmd) (w : Fmt) : Formed :=
  let f := cs.foldl (Fmt.lead capPara) w
  { kind := .command, text := [], join := false, paragraphStart := false, cls := f.cls, speaker := f.speaker,
    source := src, after := Fmt.attachAfter cs f }

/-- A WORD, SPEAKER-LABEL or COMMAND unit of an entry (R111 to R114). -/
def formWord (capPara : Bool) (labels : List Bytes) (text : Bytes) (src : Source) (w : Fmt) : Formed :=
  let ps := pieces text
  match speakerOf (commands ps) with
  | some n => formLabel capPara labels src (commands ps) n w
  | none =>
    if (literals ps).isEmpty then formCommand capPara src (commands ps) w
    else formText capPara .word src true (literals ps) (leadingCmds ps) (trailingCmds ps) w

/-- The formed fields of a unit of the parse (R106 to R108, R110). -/
def formUnit (capPara : Bool) (labels : List Bytes) (w : Fmt) (u : ParseUnit) : Formed :=
  match u.entry with
  | .word t d => formWord capPara labels t (dictSource d) w
  | .number =>
    formText capPara .number .number false (numberText ((u.strokes.head?.map StrokeRec.keys).getD 0)) [] [] w
  | .untranslate =>
    formText capPara .untranslate .none false (stenoText ((u.strokes.head?.map StrokeRec.keys).getD 0)) [] [] w

/-- The malformed commands a unit of the parse removes (R111). -/
def ParseUnit.bads (u : ParseUnit) : Nat :=
  match u.entry with
  | .word t _ => badCount (pieces t)
  | _ => 0

/-- The unit record of a formed unit (R116); the number and the commit time are given at its creation. -/
def buildUnit (w : Fmt) (p : Pos) (f : Formed) (committed : Bool) (strokes : List StrokeRec) : TUnit :=
  { number := 0, kind := f.kind, state := if committed then .committed else .provisional, pos := some p,
    firstSeq := strokes.head?.map StrokeRec.seq, outline := strokes.map (fun s => s.keys.toNat), text := f.text,
    join := f.join, paragraphStart := f.paragraphStart, cls := f.cls, speaker := f.speaker,
    timecode := (strokes.head?.map StrokeRec.timecode).getD 0, commitTime := none, snapshot := w, source := f.source,
    suspect := strokes.any (fun s => s.damaged || s.held), unlogged := strokes.any StrokeRec.unlogged,
    edited := false, globaled := false }

/-- A unit of the parse formed, with its mark, its strokes and the state it leaves. -/
structure NewUnit where
  unit : TUnit
  committed : Bool
  strokes : List StrokeRec
  after : Fmt
deriving DecidableEq, Repr

/-- The units of a parse formed one after another from the working state (R110). -/
def formAll (capPara : Bool) (labels : List Bytes) (p : Pos) : Fmt → List (ParseUnit × Bool) → List NewUnit
  | _, [] => []
  | w, (u, c) :: rest =>
    let f := formUnit capPara labels w u
    { unit := buildUnit w p f c u.strokes, committed := c, strokes := u.strokes, after := f.after } ::
      formAll capPara labels p f.after rest

/-- Two units are equal for reconciliation: every field but number, state and commit time (R115). -/
def sameUnit (old new : TUnit) : Bool :=
  decide ({ old with number := new.number, state := new.state, commitTime := new.commitTime } = new)

/-- How many units from the first are kept: equal in their places (R115). -/
def keptCount : List TUnit → List NewUnit → Nat
  | o :: os, n :: ns => if sameUnit o n.unit then keptCount os ns + 1 else 0
  | _, _ => 0

end Sys2Proof.Machine
end

