-- ==== Sys2Proof/Machine/Translator.lean ====
section
/-! DEFINITION. The translator's shared operations (Section 6): commits and the untranslate list, reconciliation,
resolution, note insertion, and the requests it owns. -/

namespace Sys2Proof.Machine

/-! ### Commits (R107, R108, R115, R122) -/

/-- An UNTRANSLATE unit joins the untranslate list; on a full list the oldest entry is dropped (R122). -/
def Translator.joinUntranslate (n k : Nat) (t : Translator) : Translator :=
  if Config.untranslatesMax ≤ t.untranslates.length then
    { t with untranslates := t.untranslates.drop 1 ++ [(n, k)], untranslatesDropped := t.untranslatesDropped + 1 }
  else { t with untranslates := t.untranslates ++ [(n, k)] }

/-- The translator's counts and untranslate list at the commit of a unit (R107, R108, R122, R126). -/
def Translator.committed (n : Nat) (kind : UnitKind) (outline : List Nat) (t : Translator) : Translator :=
  let t := { t with unitsCommitted := t.unitsCommitted + 1 }
  match kind with
  | .number => { t with numbers := t.numbers + 1 }
  | .untranslate =>
    ({ t with untranslatesMade := t.untranslatesMade + 1 } : Translator).joinUntranslate n (outline.headD 0)
  | _ => t

/-- PROMOTE of a unit, with what its commit does in the translator (R115, R118). -/
def commitUnit (u : TUnit) (s : State) : State :=
  (promoteUnit u.number s).onTrans (Translator.committed u.number u.kind u.outline)

/-- CREATE of a unit, with what its commit does in the translator when it is created COMMITTED (R115). -/
def createFormed (n : NewUnit) (s : State) : State :=
  let number := s.script.nextNumber
  let s := createUnit n.unit s
  if n.committed then s.onTrans (Translator.committed number n.unit.kind n.unit.outline) else s

/-- PROMOTE for each kept unit that the new list marks COMMITTED, in order (R115 step 2). -/
def promoteKept : List TUnit → List NewUnit → State → State
  | o :: os, n :: ns, s => promoteKept os ns (if n.committed then commitUnit o s else s)
  | _, _, s => s

/-- The PROVISIONAL units of the transcript, in order. -/
def Transcript.provisionals (t : Transcript) : List TUnit := t.units.filter TUnit.isProvisional

/-- Reconciliation of the new unit list with the PROVISIONAL units (R115). -/
def reconcile (new : List NewUnit) (s : State) : State :=
  let old := s.script.provisionals
  let k := keptCount old new
  let s :=
    match old.drop k with
    | [] => s
    | u :: _ => (retractFrom u.number s).onTrans (fun t => { t with retractions := t.retractions + 1 })
  let s := promoteKept (old.take k) (new.take k) s
  (new.drop k).foldl (fun s n => createFormed n s) s

/-! ### Resolution (R118) -/

/-- The translator is AT-REST (R102). -/
def Translator.atRest (t : Translator) : Bool := t.inFlight.isNone && t.hold.isEmpty

/-- The hold list is resolved: every PROVISIONAL unit is promoted, BASE becomes the state the newest left, the hold list
becomes empty and the timer stops (R118). -/
def resolveHold (s : State) : State :=
  let s := s.script.provisionals.foldl (fun s u => commitUnit u s) s
  s.onTrans (fun t => { t with base := t.after, hold := [], timer := none })

/-! ### Notes (R124) -/

/-- The unit of a note (R124 step 1). -/
def noteUnit (n : Note) (base : Fmt) (timecode : Nat) : TUnit :=
  { number := 0, kind := .note, state := .committed, pos := none, firstSeq := none, outline := [], text := n.text,
    join := false, paragraphStart := true, cls := n.cls, speaker := base.speaker, timecode := timecode,
    commitTime := none, snapshot := base, source := .none, suspect := false, unlogged := false, edited := false,
    globaled := false }

/-- One note is inserted: its unit, its NOTE-MARK record and its count (R124). -/
def insertNote (n : Note) (s : State) : State :=
  let number := s.script.nextNumber
  let timecode := s.stamp
  let s := createUnit (noteUnit n s.trans.base timecode) s.stamped
  let s := offerOther (noteRecord s number timecode) s
  s.onTrans (fun t => { t with notesInserted := t.notesInserted + 1 })

/-- A queued note is inserted and its COMPLETION sent with the unit number (R123, R124). -/
def insertQueued (n : Note) (s : State) : State :=
  let number := s.script.nextNumber
  complete n.tag 0x15 none (be 4 number) (insertNote n s)

/-- All queued notes are inserted, oldest first, when the translator is AT-REST (R124). -/
def insertNotes (s : State) : State :=
  if s.trans.atRest then
    (s.trans.notes.foldl (fun s n => insertQueued n s) s).onTrans (fun t => { t with notes := [] })
  else s

/-! ### The resolve order (R118) -/

/-- A resolve order: carried out at once, or RESOLVE-PENDING while a stroke is in flight (R118); queued notes follow a
resolution (R124). -/
def resolveOrder (s : State) : State :=
  match s.trans.inFlight with
  | some _ => s.onTrans (fun t => { t with resolvePending := true })
  | none =>
    if s.trans.hold.isEmpty then s
    else insertNotes ((resolveHold s).onTrans (fun t => { t with forcedResolutions := t.forcedResolutions + 1 }))

/-! ### Requests -/

/-- DEFINE-SPEAKER, the owning rule (R121). A number outside 1 to 32 is BAD-VALUE before a long label is TOO-LONG (DESIGN
CHOICE, log entry 42: R121 gives no order of the tests). -/
def defineSpeakerRule (payload : Bytes) (s : State) : State × Result :=
  let n := byteAt payload 0
  let label := payload.drop 2
  if n < 1 ∨ 32 < n then (s, .refused .badValue)
  else if Config.labelMax < label.length then (s, .refused .tooLong)
  else (s.onTrans (fun t => { t with speakers := t.speakers.set (n - 1) label }), .done [])

/-- DEFINE_SPEAKER (R121). -/
def execDefineSpeaker (tag : Byte) (payload : Bytes) (s : State) : Host.Outcome State Fault Refusal :=
  .next (transmit (takeRequest tag (lenText1 payload) false (defineSpeakerRule payload) noAfter s))

/-- INSERT-NOTE, the owning rule (R123). -/
def insertNoteRule (tag : Byte) (payload : Bytes) (s : State) : State × Result :=
  let text := payload.drop 2
  match clsOfCode (byteAt payload 0) with
  | none => (s, .refused .badValue)
  | some c =>
    if Config.textMax < text.length then (s, .refused .tooLong)
    else if s.script.session ≠ .opened then (s, .refused .noSession)
    else if Config.notesMax ≤ s.trans.notes.length then (s, .refused .busy)
    else
      let n : Note := { tag := tag, text := text, cls := c }
      if s.trans.atRest && s.trans.notes.isEmpty then (insertNote n s, .done (be 4 s.script.nextNumber))
      else (s.onTrans (fun t => { t with notes := t.notes ++ [n] }), .accepted)

end Sys2Proof.Machine
end

