-- ==== Sys2Proof/Machine/FloorOps.lean ====
section
/-! DEFINITION. The floor controller's shared operations (Section 2): floor changes, takes, passes, cancels, losses, the
release, and the disposition of offered strokes. -/

namespace Sys2Proof.Machine

/-! ### The floor and its changes -/

/-- The LIVE position (R24). -/
def Floor.live (f : Floor) : Option Pos :=
  if f.pos.a.state = .live then some .a else if f.pos.b.state = .live then some .b else none

/-- The REQUESTING position (R24). -/
def Floor.requesting (f : Floor) : Option Pos :=
  if f.pos.a.state = .requesting then some .a else if f.pos.b.state = .requesting then some .b else none

/-- The session is OPEN. -/
def State.sessionOpen (s : State) : Bool := decide (s.script.session = .opened)

/-- The cause of FLOOR-VACANT as the session and the floor stand (R24). -/
def floorVacantCause (s : State) : State :=
  setCause .floorVacant (s.sessionOpen && decide (s.floor.state = .vacant)) s

/-- A floor change is reported and logged: one stamp, the FLOOR notice, the FLOOR record (R36). -/
def announceFloor (cause : FloorCause) (dropped : Nat) (s : State) : State :=
  let t := s.stamp
  let s := s.stamped
  let s := offerNotice (.floor s.floor.state s.floor.live s.floor.requesting cause dropped t) s
  offerOther (floorRecord s cause s.floor.live t) s

/-- What follows a floor change: the notice and the record while a session is OPEN or at the release, and the cause of
FLOOR-VACANT (R24, R36); the FLOOR notice, what the record moves of the log's conditions, then FLOOR-VACANT (DESIGN CHOICE,
log entry 11). -/
def floorChanged (cause : FloorCause) (dropped : Nat) (s : State) : State :=
  floorVacantCause (if s.sessionOpen || decide (cause = .release) then announceFloor cause dropped s else s)

/-- The number of strokes a position would lose: QUEUE and PENDING. -/
def PosRec.held (r : PosRec) : Nat := r.queue.length + r.pending.toList.length

/-- QUEUE and PENDING discarded, each stroke a relay drop (R31, R33, R34, R35). -/
def PosRec.discard (r : PosRec) : PosRec :=
  { r with queue := [], pending := none, relayDrops := r.relayDrops + BitVec.ofNat 32 r.held }

/-- A position's STATE. -/
def PosRec.become (st : PosState) (r : PosRec) : PosRec := { r with state := st }

/-- A stroke appended to QUEUE (R25). -/
def PosRec.enqueue (x : StrokeRec) (r : PosRec) : PosRec :=
  { r with queue := r.queue ++ [x], strokesQueued := r.strokesQueued + 1 }

/-- SHADOW or DOWN as the link stands (R23, R35). -/
def State.linkedState (s : State) (p : Pos) : PosState := if (s.links.get p).link = .up then .shadow else .down

/-- The floor becomes HELD and the floor-wait timer stops. -/
def Floor.hold (f : Floor) : Floor := { f with state := .held, waitFrom := none }

/-! ### Taking, passing, cancelling, losing -/

/-- A SHADOW position takes a VACANT floor (R27). -/
def takeFloor (p : Pos) (cause : FloorCause) (s : State) : State :=
  floorChanged cause 0 ((s.onPos p (PosRec.become .live)).onFloor Floor.hold)

/-- A pass completes cleanly (R30). -/
def cleanPass (off on : Pos) (s : State) : State :=
  floorChanged .cleanPass 0
    (((s.onPos off (PosRec.become .shadow)).onPos on (PosRec.become .live)).onFloor
      (fun f => { f.hold with cleanPasses := f.cleanPasses + 1 }))

/-- The test of the clean boundary (R30). -/
def cleanTest (s : State) : State :=
  match s.floor.state, s.floor.live, s.floor.requesting with
  | .passing, some off, some on =>
    if s.trans.atRest && (s.posRec off).queue.isEmpty then cleanPass off on s else s
  | _, _, _ => s

/-- A pass begins (R28), and the clean boundary is tested at once. -/
def beginPass (p : Pos) (cause : FloorCause) (s : State) : State :=
  let s := s.onPos p (fun r => { r with state := .requesting, queue := [] })
  cleanTest (floorChanged cause 0 (s.onFloor (fun f => { f with state := .passing, waitFrom := some s.time.now })))

/-- A pass is forced (R31, R32): the resolve order, the relay drops, the change of positions. -/
def forcePass (off on : Pos) (cause : FloorCause) (s : State) : State :=
  let s := resolveOrder s
  let dropped := (s.posRec off).held
  let s := (s.onPos off (fun r => { r.discard with state := .shadow })).onPos on (PosRec.become .live)
  floorChanged cause dropped (s.onFloor (fun f => { f.hold with forcedPasses := f.forcedPasses + 1 }))

/-- A pass is cancelled (R33): the incoming position becomes `st`. -/
def cancelPass (incoming : Pos) (st : PosState) (s : State) : State :=
  let dropped := (s.posRec incoming).held
  let s := s.onPos incoming (fun r => { r.discard with state := st })
  floorChanged .cancel dropped (s.onFloor (fun f => { f.hold with cancelledPasses := f.cancelledPasses + 1 }))

/-- The floor after the loss of the LIVE position (R34 step 4): the REQUESTING position becomes LIVE, or the floor
VACANT. -/
def floorAfterLoss (other : Pos) (s : State) : State :=
  if (s.posRec other).state = .requesting then (s.onPos other (PosRec.become .live)).onFloor Floor.hold
  else s.onFloor (fun f => { f with state := .vacant, waitFrom := none })

/-- The LIVE position is lost and becomes `st` (R34). -/
def losePos (p : Pos) (st : PosState) (s : State) : State :=
  let s := resolveOrder s
  let dropped := (s.posRec p).held
  let s := floorAfterLoss (otherPos p) (s.onPos p (fun r => { r.discard with state := st }))
  floorChanged .liveLost dropped (s.onFloor (fun f => { f with floorLosses := f.floorLosses + 1 }))

/-- A position withdrawn to DOWN by its link or OFF by a disable: R34 when LIVE, R33 when REQUESTING (R22, R23). -/
def withdraw (p : Pos) (st : PosState) (s : State) : State :=
  match (s.posRec p).state with
  | .live => losePos p st s
  | .requesting => cancelPass p st s
  | _ => s.onPos p (PosRec.become st)

/-- What the release of R35 does to one position. -/
def releasePos (p : Pos) (s : State) : State :=
  s.onPos p (fun r =>
    { r.discard with state := if r.state = .live ∨ r.state = .requesting then s.linkedState p else r.state })

/-- The floor is released (R35). -/
def releaseFloor (s : State) : State :=
  let dropped := (s.posRec .a).held + (s.posRec .b).held
  floorChanged .release dropped
    ((releasePos .b (releasePos .a s)).onFloor (fun f => { f with state := .vacant, waitFrom := none }))

/-- The floor-wait timer has reached floor-wait (R31). -/
def floorWaitDue (s : State) : Bool :=
  match s.floor.waitFrom with
  | none => false
  | some t => decide (s.settings.floorWait * 1000 ≤ s.age t)

/-- The pass is forced by floor-wait (R31). -/
def forceByWait (s : State) : State :=
  match s.floor.state, s.floor.live, s.floor.requesting with
  | .passing, some off, some on => forcePass off on .forcedWait s
  | _, _, _ => s

/-! ### The disposition of offered strokes (R25) -/

/-- The stroke's value equals TAKE of its position (R25). -/
def State.isTake (s : State) (x : StrokeRec) : Bool :=
  decide (x.keys.toNat ≠ 0 ∧ x.keys.toNat = s.settings.takeOutline.get x.pos)

/-- A stroke of a SHADOW position (R25, first two rows). -/
def disposeShadow (x : StrokeRec) (s : State) : State :=
  match s.floor.state with
  | .vacant =>
    if s.isTake x then takeFloor x.pos .takeStroke s
    else (takeFloor x.pos .firstStroke s).onPos x.pos (PosRec.enqueue x)
  | .held => if s.isTake x then beginPass x.pos .takeStroke s else s
  | .passing => s

/-- A stroke of the REQUESTING position (R25, R32). -/
def disposeRequesting (x : StrokeRec) (s : State) : State :=
  if s.isTake x then s
  else if Config.queueMax ≤ (s.posRec x.pos).queue.length then
    (forcePass (otherPos x.pos) x.pos .forcedOverflow s).onPos x.pos (fun r => { r with pending := some x })
  else s.onPos x.pos (PosRec.enqueue x)

/-- A stroke of the LIVE position (R25). -/
def disposeLive (x : StrokeRec) (s : State) : State :=
  s.onPos x.pos (fun r =>
    if Config.queueMax ≤ r.queue.length ∨ r.pending.isSome = true then { r with overflowDrops := r.overflowDrops + 1 }
    else r.enqueue x)

/-- A numbered stroke is offered to the floor controller (R25). -/
def dispose (x : StrokeRec) (s : State) : State :=
  match (s.posRec x.pos).state with
  | .shadow => disposeShadow x s
  | .requesting => disposeRequesting x s
  | .live => disposeLive x s
  | .off => s
  | .down => s

/-- The stroke that the loss of its link closed is offered (R25, last paragraph). -/
def disposeLost (x : StrokeRec) (s : State) : State :=
  s.onPos x.pos (fun r =>
    if r.state = .live ∨ r.state = .requesting then { r with relayDrops := r.relayDrops + 1 } else r)

/-- The front stroke of a QUEUE is taken; the PENDING stroke joins QUEUE at the same take (R26, R32). -/
def PosRec.takeFront (r : PosRec) : PosRec :=
  match r.pending with
  | none => { r with queue := r.queue.drop 1 }
  | some x => ({ r with queue := r.queue.drop 1, pending := none } : PosRec).enqueue x

/-! ### The link of a position (R22) -/

/-- The link of a position has come UP (R8, R22). -/
def floorLinkUp (p : Pos) (s : State) : State :=
  if (s.posRec p).state = .down then s.onPos p (PosRec.become .shadow) else s

/-- The link of a position has gone DOWN (R7, R22). -/
def floorLinkDown (p : Pos) (s : State) : State :=
  match (s.posRec p).state with
  | .off => s
  | _ => withdraw p .down s

end Sys2Proof.Machine
end

