-- ==== Sys2Proof/Machine/Finish.lean ====
section
/-! DEFINITION. The finish of a stroke (R105, R119), the undo at an empty hold list (R120), the hold timer's expiry (R117)
and what the transcript manager does when the hold list is reported resolved (R137, R138). -/

namespace Sys2Proof.Machine

/-! ### The close of a session after the resolution -/

/-- RESTART has been taken by the blocks (R194). -/
def State.windingDown (s : State) : Bool := decide (s.host.phase = .windingDown ∨ s.host.phase = .draining)

/-- Every COMMITTED unit becomes FIRM, oldest first (R137 step 1). -/
def firmAll (s : State) : State := firmOldest s.script.committedCount s

/-- The SESSION-CLOSE record is offered with a stamp (R137 step 3, R138). -/
def offerClose (aborted : Bool) (s : State) : State :=
  offerOther (closeRecord s.stamped s.stamp aborted) s.stamped

/-- The hold list is reported resolved during CLOSING (R137, R138): FIRM units, floor release, SESSION-CLOSE, flush. -/
def holdResolved (s : State) : State :=
  let s := s.onScript (fun t => { t with resolved := true })
  beginFlush (if s.windingDown then .restart else .close) (offerClose s.windingDown (releaseFloor (firmAll s)))

/-- The translator AT-REST during CLOSING reports the hold list resolved, once (R125). -/
def reportResolved (s : State) : State :=
  if s.trans.atRest && decide (s.script.session = .closing) && !s.script.resolved then holdResolved s else s

/-- What follows a finish or a resolution: the notes (R124), then the report of the close (R125). -/
def afterRest (s : State) : State := reportResolved (insertNotes s)

/-! ### The finish (R105) -/

/-- The new unit list of a finish (R105 steps 1 and 2): parse, open test, and the fields formed from BASE. -/
def newUnits (s : State) (fl : InFlight) : List NewUnit :=
  let k := fl.work.length
  let parsed := parseFrom fl.results fl.stroke.pos k 0 fl.work
  formAll s.settings.capAfterParagraph s.trans.speakers fl.stroke.pos s.trans.base
    (markUnits fl.results fl.stroke.pos k parsed)

/-- The malformed commands of a finish (R111). -/
def finishBads (fl : InFlight) : Nat :=
  ((parseFrom fl.results fl.stroke.pos fl.work.length 0 fl.work).map ParseUnit.bads).sum

/-- BASE after a finish: the state left by the last COMMITTED unit (R110). -/
def baseAfter (base : Fmt) (new : List NewUnit) : Fmt :=
  match (new.filter NewUnit.committed).getLast? with
  | some n => n.after
  | none => base

/-- The state left by the newest unit, BASE when there is none (R110). -/
def lastAfter (base : Fmt) (new : List NewUnit) : Fmt :=
  match new.getLast? with
  | some n => n.after
  | none => base

/-- The hold list after a finish: the strokes of the units marked PROVISIONAL (R105 step 4). -/
def holdAfter (new : List NewUnit) : List StrokeRec := (new.filter (fun n => !n.committed)).flatMap NewUnit.strokes

/-- Steps 4 and 5 of the finish in the translator (R105), with the counts of R126. -/
def Translator.finished (new : List NewUnit) (fl : InFlight) (t : Translator) : Translator :=
  { t with hold := holdAfter new, base := baseAfter t.base new, after := lastAfter t.base new, inFlight := none,
           timer := if (holdAfter new).isEmpty then none else t.timer,
           recomputes := if fl.work.isEmpty then t.recomputes else t.recomputes + 1,
           badCommands := t.badCommands + BitVec.ofNat 32 (finishBads fl),
           undosInHold := if fl.stroke.keys = undoValue then t.undosInHold + 1 else t.undosInHold }

/-- Step 6 of the finish: a pending resolution, counted by its causes, and both marks cleared (R105). -/
def finishPending (s : State) : State :=
  let s' :=
    if (s.trans.expiryPending || s.trans.resolvePending) && !s.trans.hold.isEmpty then
      (resolveHold s).onTrans (fun t =>
        { t with holdExpiries := if t.expiryPending then t.holdExpiries + 1 else t.holdExpiries,
                 forcedResolutions := if t.resolvePending then t.forcedResolutions + 1 else t.forcedResolutions })
    else s
  s'.onTrans (fun t => { t with expiryPending := false, resolvePending := false })

/-- The report to the floor controller, which tests its clean boundary (R102, R30). -/
def reportFinish (s : State) : State := afterRest (cleanTest s)

/-- The stroke in flight is finished (R105). -/
def finishStroke (s : State) : State :=
  match s.trans.inFlight with
  | none => s
  | some fl =>
    let new := newUnits s fl
    reportFinish (finishPending ((reconcile new s).onTrans (Translator.finished new fl)))

/-! ### The undo at an empty hold list (R120) -/

/-- The reason an undo of position `p` is blocked, with the newest unit's number (R120). -/
def undoBlock (t : Transcript) (p : Pos) : Option (UndoBlock × Option Nat) :=
  match t.units.getLast? with
  | none => some (.empty, none)
  | some u =>
    if u.state = .firm then some (.firm, some u.number)
    else if u.pos ≠ some p then some (.otherPosition, some u.number)
    else if t.inLock u.number then some (.locked, some u.number)
    else none

/-- The newest unit is retracted (R120). -/
def undoNewest (s : State) : State :=
  match s.script.units.getLast? with
  | none => s
  | some u =>
    (dropUntranslate u.number (retractFrom u.number s)).onTrans (fun t =>
      { t with base := u.snapshot, after := u.snapshot, undos := t.undos + 1 })

/-- The undo stroke carried out at its take (R120). -/
def undoAtTake (x : StrokeRec) (s : State) : State :=
  match undoBlock s.script x.pos with
  | none => undoNewest s
  | some (reason, number) =>
    offerNotice (.undoBlocked x.pos x.seq reason number x.timecode)
      (s.onTrans (fun t => { t with undosBlocked := t.undosBlocked + 1 }))

/-! ### The hold timer (R117) -/

/-- The hold timer has reached hold-time, and hold-time is not 0 (R117). -/
def holdDue (s : State) : Bool :=
  match s.trans.timer with
  | none => false
  | some e => decide (s.settings.holdTime ≠ 0 ∧ s.settings.holdTime * 1000 ≤ e)

/-- The expiry of the hold timer (R117). -/
def holdExpire (s : State) : State :=
  match s.trans.inFlight with
  | some _ => s.onTrans (fun t => { t with expiryPending := true })
  | none =>
    if s.trans.hold.isEmpty then s
    else
      afterRest (cleanTest ((resolveHold s).onTrans (fun t => { t with holdExpiries := t.holdExpiries + 1 })))

end Sys2Proof.Machine
end

