-- ==== Sys2Proof/Machine/Dictionary.lean ====
section
/-! DEFINITION. The dictionary block (Section 5): buckets and directories, lookups, the staging list and its
reservations, the drain, and the requests it owns. -/

namespace Sys2Proof.Machine

/-! ### Buckets and directories (R82, R83) -/

/-- The number h of an outline (R82). -/
def outlineHash (o : List Nat) : Nat := o.foldl (fun h k => (h * 31 + k) % 4294967296) 0

/-- The bucket of an outline: the low twelve bits of h xor floor(h / 4096) (R82). -/
def bucketOf (o : List Nat) : Nat := (outlineHash o ^^^ outlineHash o / 4096) % 4096

/-- A bucket's entry of a directory. -/
def DictRec.bucket? (d : DictRec) (b : Nat) : Option Bucket := d.directory.find? (fun x => decide (x.index = b))

/-- HEAD of a bucket (R83). -/
def DictRec.headOf (d : DictRec) (b : Nat) : Option Nat := (d.bucket? b).map Bucket.head

/-- COUNT of a bucket (R83). -/
def DictRec.countOf (d : DictRec) (b : Nat) : Nat := ((d.bucket? b).map Bucket.count).getD 0

/-- A record is entered into a bucket: HEAD becomes its offset, COUNT rises (R83, R84, R95). -/
def enterBucket (b off : Nat) : List Bucket → List Bucket
  | [] => [{ index := b, head := off, count := 1 }]
  | x :: xs =>
    if x.index = b then { x with head := off, count := x.count + 1 } :: xs
    else if b < x.index then { index := b, head := off, count := 1 } :: x :: xs
    else x :: enterBucket b off xs

/-- A record entered into a dictionary (R83). -/
def Dictionary.enter (d : Dict) (b off : Nat) (x : Dictionary) : Dictionary :=
  x.upd d (fun r => { r with directory := enterBucket b off r.directory })

/-- LINK of a bucket's next record: HEAD, or FFFFFFFFh when there is none (R81, R83). -/
def linkOf (head : Option Nat) : Nat := head.getD max32

/-! ### Records in the note memory (R81, R86) -/

/-- A dictionary record as read. -/
structure DictRead where
  kind : Nat
  outline : List Nat
  text : Bytes
  link : Nat
  size : Nat
deriving DecidableEq, Repr

/-- The record at a region offset, when its kind, stroke count, place and check are right (R86); `limit` is the end it
must lie within. -/
def readRecord (m : List Host.Cell) (base off limit : Nat) : Option DictRead :=
  let head := readBytes m (base + off) 8
  let n := byteAt head 1
  let size := 8 + 3 * n + byteAt head 2
  let bs := readBytes m (base + off) size
  if (1 ≤ byteAt head 0 ∧ byteAt head 0 ≤ 3) ∧ (1 ≤ n ∧ n ≤ Config.outlineMax) ∧ off + size ≤ limit ∧ sum8 bs = 0 then
    some { kind := byteAt head 0, outline := ofStrokes n (bs.drop 8), text := bs.drop (8 + 3 * n),
           link := be4At head 4, size := size }
  else none

/-- The start address of a dictionary's region. -/
def State.regionBase (s : State) (d : Dict) : Nat :=
  match s.store.header with
  | none => 0
  | some h => (h.span d).start * Config.blockBytes

/-- END of a dictionary's region: its length in bytes (R80). -/
def State.regionEnd (s : State) (d : Dict) : Nat :=
  match s.store.header with
  | none => 0
  | some h => (h.span d).len * Config.blockBytes

/-- REGION-STATE of a dictionary is READY. -/
def State.dictReady (s : State) (d : Dict) : Bool := decide ((s.store.region d).state = .ready)

/-! ### Lookups (R85 to R88) -/

/-- `y` is a proper prefix of `x` (R81). -/
def properPfx (y x : List Nat) : Bool := decide (y.length < x.length) && decide (x.take y.length = y)

/-- The text decided by the newest staged operation for an outline (R85 step 1). -/
def stagedText (ops : List StagedOp) (d : Dict) (o : List Nat) : Option (Option Bytes) :=
  ((ops.filter (fun x => decide (x.dict = d ∧ x.outline = o))).getLast?).map StagedOp.text

/-- Some staged ENTRY-ADD has an outline of which `o` is a proper prefix (R85 step 2). -/
def stagedLonger (ops : List StagedOp) (d : Dict) (o : List Nat) : Bool :=
  ops.any (fun x => decide (x.dict = d) && x.text.isSome && properPfx o x.outline)

/-- The staging scan of a lookup, with its walk start when the bucket has records (R85). -/
def scanLookup (x : Dictionary) (c : Client) (d : Dict) (o : List Nat) : Lookup × Option Nat :=
  let b := bucketOf o
  let decided := stagedText x.staging d o
  ({ client := c, dict := d, outline := o, bucket := b, decided := decided, byStaging := decided.isSome,
     longer := stagedLonger x.staging d o, prefixMet := false, next := ((x.get d).headOf b).getD 0, reads := 0 },
   (x.get d).headOf b)

/-- The lookup of a dictionary that is not READY: NONE with the flag clear (R85, R87). -/
def noneLookup (c : Client) (d : Dict) (o : List Nat) : Lookup :=
  { client := c, dict := d, outline := o, bucket := bucketOf o, decided := some none, byStaging := false, longer := false,
    prefixMet := false, next := 0, reads := 0 }

/-- The text result of a lookup (R86). -/
def Lookup.text (l : Lookup) : Option Bytes := (l.decided).getD none

/-- DECIDED-BY of a lookup: STAGED 0, STORED 1, NONE 2 (R88, R196); `ended` marks a lookup ended by R85 or R87. -/
def Lookup.decidedBy (l : Lookup) (ended : Bool) : Nat :=
  if ended then 2 else if l.byStaging then 0 else if l.decided.isSome then 1 else 2

/-- The result fields of an ENTRY-LOOKUP (R88). -/
def lookupData (x : Dictionary) (l : Lookup) (ended : Bool) : Bytes :=
  beOpt (l.text.map beText) ++ [byte (l.decidedBy ended), beBool l.longer] ++ be 4 l.bucket ++
    be 4 ((x.get l.dict).countOf l.bucket) ++ be 4 l.reads

/-- The result of a run's lookup joins the results of the stroke in flight (R104). -/
def addRunResult (first last : Nat) (l : Lookup) (s : State) : State :=
  s.onTrans (fun t => { t with inFlight := t.inFlight.map (fun f =>
    { f with results := f.results ++ [{ first := first, last := last, dict := l.dict, text := l.text,
                                        longer := l.longer }] }) })

/-- A lookup belongs to the stroke in flight. -/
def Lookup.isRun (l : Lookup) : Bool :=
  match l.client with
  | .run .. => true
  | _ => false

/-- The stroke in flight is finished when the last of its lookups has completed (R105). -/
def finishIfDone (s : State) : State := if s.dict.lookups.any Lookup.isRun then s else finishStroke s

/-- A lookup waits for its next read (R62 kind 1). -/
def waitRead (c : Client) (s : State) : State :=
  s.onStore (fun st => { st with waiting := st.waiting ++ [.lookup c] })

/-- A lookup with a walk to make joins the lookups in flight and waits for its first read (R85, R86). -/
def startWalk (l : Lookup) (s : State) : State :=
  waitRead l.client (s.onDict (fun x => { x with lookups := x.lookups ++ [l] }))

/-- One is added to LOOKUPS (R86). -/
def countLookup (s : State) : State := s.onDict (fun x => { x with lookupsDone := x.lookupsDone + 1 })

/-- A lookup of a run of the work list is begun (R104, R85): one that needs no read has its result at once. -/
def beginRun (first last : Nat) (d : Dict) (o : List Nat) (s : State) : State :=
  let s := s.onTrans (fun t => { t with lookupsAsked := t.lookupsAsked + 1 })
  if !s.dictReady d then addRunResult first last (noneLookup (.run first last d) d o) s
  else
    match scanLookup s.dict (.run first last d) d o with
    | (l, some _) => startWalk l s
    | (l, none) => addRunResult first last l (countLookup s)

/-! ### Staging and reservations (R89, R90) -/

/-- The bytes of a record: 8 + 3n, and for an ENTRY its text (R81). -/
def recordSize (n textLen : Nat) : Nat := 8 + 3 * n + textLen

/-- The reservation of a record of s bytes: its bucket and 2s - 1 (R90). -/
def reserveOf (o : List Nat) (textLen : Nat) : Nat × Nat := (bucketOf o, 2 * recordSize o.length textLen - 1)

/-- The proper prefixes of an outline, shortest first. -/
def properPfxs (o : List Nat) : List (List Nat) := (List.range (o.length - 1)).map (fun i => o.take (i + 1))

/-- The records an ADD may program (R90). -/
def addReserves (o : List Nat) (text : Bytes) : List (Nat × Nat) :=
  (properPfxs o).map (fun y => reserveOf y 0) ++ [reserveOf o text.length]

/-- RESERVED-BYTES of a dictionary (R90). -/
def Dictionary.reservedBytes (x : Dictionary) (d : Dict) : Nat :=
  ((x.staging.filter (fun o => decide (o.dict = d))).map (fun o => (o.reserves.map Prod.snd).sum)).sum

/-- The bucket reservation of a bucket (R90). -/
def Dictionary.bucketReserved (x : Dictionary) (d : Dict) (b : Nat) : Nat :=
  ((x.staging.filter (fun o => decide (o.dict = d))).map
    (fun o => o.reserves.countP (fun r => decide (r.1 = b)))).sum

/-- Some bucket would hold more than the chain limit (R91). -/
def bucketFull (x : Dictionary) (d : Dict) (rs : List (Nat × Nat)) : Bool :=
  rs.any (fun r =>
    decide (Config.chainMax <
      (x.get d).countOf r.1 + x.bucketReserved d r.1 + rs.countP (fun q => decide (q.1 = r.1))))

/-- The free places of the staging list. -/
def Dictionary.stagingFree (x : Dictionary) : Nat := Config.stagingMax - x.staging.length

/-- The tests of R91 and R92 that concern the store, the region and the room, in their order. -/
def stageRefusal (d : Dict) (rs : List (Nat × Nat)) (s : State) : Option Reason :=
  match s.store.state with
  | .unmounted => some .notMounted
  | .mounting => some .notMounted
  | .unformatted => some .unformatted
  | _ =>
    if !s.dictReady d then some .regionState
    else if (s.dict.get d).stalled then some .regionFull
    else if Config.stagingMax ≤ s.dict.staging.length then some .stagingFull
    else if bucketFull s.dict d rs then some .bucketFull
    else if s.regionEnd d - ((s.store.region d).append).getD 0 <
        s.dict.reservedBytes d + (rs.map Prod.snd).sum then some .regionFull
    else none

/-- An accepted operation joins the end of the staging list with PHASE STAGED (R89). -/
def stage (d : Dict) (text : Option Bytes) (o : List Nat) (rs : List (Nat × Nat)) (x : Dictionary) : Dictionary :=
  { x with staging := x.staging ++
      [{ dict := d, text := text, outline := o, draining := false, next := .entry, reserves := rs }] }

/-! ### The drain (R94 to R97) -/

/-- The operation being drained; one stalled for room does not hold up the other dictionaries (R94, R97). -/
def Dictionary.active (x : Dictionary) : Option StagedOp :=
  x.staging.find? (fun o => o.draining && !(x.get o.dict).stalled)

/-- The first step of an operation: a PREFIX check, the ENTRY, or the TOMBSTONE (R94, R96). -/
def StagedOp.firstStep (o : StagedOp) : DrainNext :=
  match o.text with
  | none => .tombstone
  | some _ => if o.outline.length ≤ 1 then .entry else .pfx 1

/-- The step after the PREFIX of length j: the next longer prefix, or the ENTRY (R96 step 2). -/
def StagedOp.stepAfter (o : StagedOp) (j : Nat) : DrainNext := if j + 1 < o.outline.length then .pfx (j + 1) else .entry

/-- The first operation that satisfies a test, changed. -/
def changeFirst (p : StagedOp → Bool) (f : StagedOp → StagedOp) : List StagedOp → List StagedOp
  | [] => []
  | o :: os => if p o then f o :: os else o :: changeFirst p f os

/-- The operation being drained, changed. -/
def Dictionary.onActive (f : StagedOp → StagedOp) (x : Dictionary) : Dictionary :=
  { x with staging := changeFirst (fun o => o.draining && !(x.get o.dict).stalled) f x.staging }

/-- The operation being drained leaves the staging list (R95). -/
def Dictionary.drained (x : Dictionary) : Dictionary :=
  { x with staging := x.staging.eraseP (fun o => o.draining && !(x.get o.dict).stalled),
           opsDrained := x.opsDrained + 1 }

/-- The place of a record of `size` bytes: in what remains of APPEND's page or at the start of a later page (R56, R58). -/
def placeRecord (append limit size : Nat) : Option Nat :=
  let next := (append / Config.pageBytes + 1) * Config.pageBytes
  if append + size ≤ next ∧ append + size ≤ limit then some append
  else if next + size ≤ limit then some next
  else none

/-- The record a step of an operation programs: kind, outline, text and whether it is a PREFIX (R96). -/
def stepRecord (o : StagedOp) : DrainNext → Byte × List Nat × Bytes × Bool
  | .pfx j => (3, o.outline.take j, [], true)
  | .entry => (1, o.outline, o.text.getD [], false)
  | .tombstone => (2, o.outline, [], false)

/-- The dictionary stalls for room (R97). -/
def Dictionary.stall (d : Dict) (x : Dictionary) : Dictionary :=
  let y := x.upd d (fun r => { r with stalled := true })
  { y with roomStalls := y.roomStalls + 1 }

/-- The record of the operation's step is handed to the store controller, or the dictionary stalls for room
(R95, R97). -/
def handRecord (o : StagedOp) (s : State) : State :=
  let r := stepRecord o o.next
  let b := bucketOf r.2.1
  match placeRecord (((s.store.region o.dict).append).getD 0) (s.regionEnd o.dict)
      (recordSize r.2.1.length r.2.2.1.length) with
  | some off =>
    let work : DictProg :=
      { dict := o.dict, offset := off, data := dictRecord r.1 r.2.1 r.2.2.1 (linkOf ((s.dict.get o.dict).headOf b)),
        bucket := b, isPrefix := r.2.2.2, relocated := false, discarded := false }
    s.onStore (fun st => { st with dictWork := st.dictWork ++ [work] })
  | none => s.onDict (Dictionary.stall o.dict)

/-- A reservation is given up (R90). -/
def StagedOp.release (r : Nat × Nat) (o : StagedOp) : StagedOp := { o with reserves := o.reserves.erase r }

/-- The step a draining operation takes next: the check of a PREFIX, which an empty bucket answers at once, or a record
handed over (R95, R96). -/
def drainStep (s : State) : State :=
  match s.dict.active with
  | none => s
  | some o =>
    match o.next with
    | .pfx j =>
      match scanLookup s.dict .drain o.dict (o.outline.take j) with
      | (l, some _) => startWalk l s
      | (_, none) => handRecord o (countLookup s)
    | _ => handRecord o s

/-- The check of a proper prefix has ended (R96 step 1): a PREFIX met gives up the reservation and the next step is
taken, otherwise the PREFIX is programmed. -/
def prefixChecked (met : Bool) (s : State) : State :=
  match s.dict.active with
  | none => s
  | some o =>
    match o.next with
    | .pfx j =>
      if met then
        drainStep (s.onDict (Dictionary.onActive (fun o =>
          { o.release (reserveOf (o.outline.take j) 0) with next := o.stepAfter j })))
      else handRecord o s
    | _ => s

/-- The conditions of R94 for beginning an operation; nothing is begun once RESTART has been taken (R101). -/
def drainReady (s : State) (o : StagedOp) : Bool :=
  s.dictReady o.dict && !(s.dict.get o.dict).stalled && decide (s.store.state = .ready) && !s.windingDown && !o.draining

/-- When no operation is being drained, the oldest that meets the conditions begins (R94). -/
def drainNext (s : State) : State :=
  match s.dict.active with
  | some _ => s
  | none =>
    if s.dict.staging.any (drainReady s) then
      drainStep (s.onDict (fun x =>
        { x with staging := changeFirst (drainReady s) (fun o => { o with draining := true, next := o.firstStep })
                              x.staging }))
    else s

/-- The drain at the end of a step (R94): an operation that stalls for room at once does not keep those of the other two
dictionaries from being begun (R97). -/
def drainBegin (s : State) : State := drainNext (drainNext (drainNext s))

/-- The step after a record of the operation (R95 step 4, R96). -/
def stepDone (o : StagedOp) (s : State) : State :=
  match o.next with
  | .pfx j => drainStep (s.onDict (Dictionary.onActive (fun o => { o with next := o.stepAfter j })))
  | _ => s.onDict Dictionary.drained

/-- The reservation of the record a step programs (R90). -/
def stepReserve (o : StagedOp) : Nat × Nat := reserveOf (stepRecord o o.next).2.1 (stepRecord o o.next).2.2.1.length

/-- The success of a record program at its offset (R95). -/
def recordSuccess (p : DictProg) (s : State) : State :=
  match s.dict.active with
  | none => s
  | some o =>
    stepDone o (s.onDict (fun x =>
      let x := (x.enter p.dict p.bucket p.offset).onActive (fun o => o.release (stepReserve o))
      { x with recordsProgrammed := x.recordsProgrammed + 1,
               prefixesWritten := if p.isPrefix then x.prefixesWritten + 1 else x.prefixesWritten }))

/-! ### The end of lookups -/

/-- A lookup's result reaches its client (R86, R88, R96, R104). -/
def deliver (l : Lookup) (ended : Bool) (s : State) : State :=
  match l.client with
  | .run first last _ => finishIfDone (addRunResult first last l s)
  | .request =>
    (completeIf s.dict.lookupTag 0x0F none (lookupData s.dict l ended) s).onDict (fun x => { x with lookupTag := none })
  | .drain => if ended then s else prefixChecked l.prefixMet s

/-- A lookup leaves the lookups in flight. -/
def Dictionary.without (c : Client) (x : Dictionary) : Dictionary :=
  { x with lookups := x.lookups.filter (fun l => decide (l.client ≠ c)) }

/-- A lookup is complete (R86). -/
def completeLookup (l : Lookup) (ended : Bool) (s : State) : State :=
  deliver l ended (countLookup (s.onDict (Dictionary.without l.client)))

/-- What one record of the chain does to the results (R86). -/
def Lookup.meet (r : DictRead) (l : Lookup) : Lookup :=
  if r.outline = l.outline then
    if r.kind = 3 then { l with longer := true, prefixMet := true }
    else if l.decided.isSome then l
    else { l with decided := some (if r.kind = 1 then some r.text else none) }
  else l

/-- One is added to CHAIN-ERRORS (R86). -/
def chainError (s : State) : State := s.onDict (fun x => { x with chainErrors := x.chainErrors + 1 })

/-- The lookup goes on to the record its LINK names (R86). -/
def walkOn (l : Lookup) (s : State) : State :=
  waitRead l.client (s.onDict (fun x =>
    { x with lookups := x.lookups.map (fun y => if y.client = l.client then l else y) }))

/-- One step of the walk: the record at the lookup's offset has been read (R86). -/
def walkStep (l : Lookup) (s : State) : State :=
  let s := s.onDict (fun x => { x with recordsRead := x.recordsRead + 1 })
  let l := { l with reads := l.reads + 1 }
  match readRecord s.flash.cells (s.regionBase l.dict) l.next (s.regionEnd l.dict) with
  | none => completeLookup { l with prefixMet := false } false (chainError s)
  | some r =>
    let l' := l.meet r
    if r.link = max32 then completeLookup l' false s
    else if l.next ≤ r.link ∨ r.link < Config.pageBytes then
      completeLookup { l' with prefixMet := false } false (chainError s)
    else walkOn { l' with next := r.link } s

/-- A read made for a lookup has ended. -/
def lookupRead (c : Client) (s : State) : State :=
  match s.dict.lookups.find? (fun l => decide (l.client = c)) with
  | none => s
  | some l => walkStep l s

/-- The waiting reads of lookups that `p` picks are withdrawn; one being made goes to nobody (R87). -/
def dropReads (p : Client → Bool) (st : Store) : Store :=
  { st with
    waiting := st.waiting.filter (fun r => match r with
      | .lookup c => !p c
      | _ => true)
    reading := st.reading.map (fun r => match r with
      | .lookup c => if p c then .dropped else r
      | _ => r) }

/-- The lookups of `ls` end by R87, one after another. -/
def endLookups : List Lookup → State → State
  | [], s => s
  | l :: ls, s => endLookups ls (completeLookup { noneLookup l.client l.dict l.outline with reads := l.reads } true s)

/-- Every lookup in flight that `p` picks ends by R87. -/
def endLookupsOf (p : Lookup → Bool) (s : State) : State :=
  let ls := s.dict.lookups.filter p
  endLookups ls (s.onStore (dropReads (fun c => ls.any (fun l => decide (l.client = c)))))

/-! ### Erasing and formatting (R99, R100) -/

/-- The directory, the staged operations and the stall of a dictionary are cleared (R99). -/
def Dictionary.clear (d : Dict) (x : Dictionary) : Dictionary :=
  let gone := x.staging.countP (fun o => decide (o.dict = d))
  let y := x.upd d (fun _ => { directory := [], stalled := false })
  { y with
    staging := x.staging.filter (fun o => decide (o.dict ≠ d)), stagedCleared := x.stagedCleared + BitVec.ofNat 32 gone }

/-- What ERASING of a region does in the dictionary block (R99). -/
def eraseDict (d : Dict) (s : State) : State :=
  endLookupsOf (fun l => decide (l.dict = d)) (s.onDict (Dictionary.clear d))

/-- What a format does in the dictionary block (R100). -/
def formatDicts (s : State) : State :=
  endLookupsOf (fun _ => true) (s.onDict (fun x => ((x.clear .j).clear .pa).clear .pb))

/-! ### GLOBAL (R93) -/

/-- A unit rewritten by a GLOBAL addition (R93). -/
def globalUnit (text : Bytes) (u : TUnit) : TUnit :=
  { u with kind := .word, source := .j, globaled := true, text := u.snapshot.caseText (literals (pieces text)) }

/-- The rewrite of the untranslate list's entries for an outline, with REWRITTEN and SKIPPED (R93). -/
def globalRewrite (o : List Nat) (text : Bytes) : List (Nat × Nat) → State × Nat × Nat → State × Nat × Nat
  | [], r => r
  | (n, k) :: rest, (s, rewritten, skipped) =>
    globalRewrite o text rest
      (if [k] ≠ o then (s, rewritten, skipped)
       else if s.script.inLock n then (s, rewritten, skipped + 1)
       else (dropUntranslate n (replaceUnit n (globalUnit text) s), rewritten + 1, skipped))

/-! ### Requests -/

/-- The outline of a payload: `n` strokes from an offset. -/
def outlineAt (p : Bytes) (off n : Nat) : List Nat := ofStrokes n (p.drop off)

/-- The tests of R91 on the text of the request, in their order. -/
def addValue (global : Bool) (p : Bytes) : Option Reason :=
  match dictOfCode (byteAt p 0) with
  | none => some .badValue
  | some d =>
    let n := byteAt p 2
    if n = 0 ∨ ((outlineAt p 4 n).all strokeOk) = false ∨ (global = true ∧ d ≠ .j) then some .badValue
    else if Config.outlineMax < n ∨ Config.textMax < byteAt p 3 then some .tooLong
    else none

/-- ENTRY-ADD once accepted (R91, R93). -/
def acceptAdd (d : Dict) (global : Bool) (o : List Nat) (text : Bytes) (s : State) : State × Result :=
  let s := s.onDict (fun x =>
    { stage d (some text) o (addReserves o text) x with addsStaged := x.addsStaged + 1 })
  if global then
    let r := globalRewrite o text s.trans.untranslates (s, 0, 0)
    (r.1, .done (be 4 r.1.dict.stagingFree ++ be 4 r.2.1 ++ be 4 r.2.2))
  else (s, .done (be 4 s.dict.stagingFree))

/-- ENTRY-ADD, the owning rule (R91). -/
def entryAddRule (p : Bytes) (s : State) : State × Result :=
  let global := (p.getD 1 0).getLsbD 0
  match addValue global p with
  | some r => (s, .refused r)
  | none =>
    let d := (dictOfCode (byteAt p 0)).getD .j
    let o := outlineAt p 4 (byteAt p 2)
    let text := p.drop (4 + 3 * byteAt p 2)
    match stageRefusal d (addReserves o text) s with
    | some r => (s, .refused r)
    | none => acceptAdd d global o text s

/-- The tests on the dictionary and the outline of ENTRY-DELETE and ENTRY-LOOKUP (R88, R92). -/
def outlineValue (p : Bytes) : Option Reason :=
  match dictOfCode (byteAt p 0) with
  | none => some .badValue
  | some _ =>
    let n := byteAt p 1
    if n = 0 ∨ ((outlineAt p 2 n).all strokeOk) = false then some .badValue
    else if Config.outlineMax < n then some .tooLong
    else none

/-- ENTRY-DELETE, the owning rule (R92). -/
def entryDeleteRule (p : Bytes) (s : State) : State × Result :=
  match outlineValue p with
  | some r => (s, .refused r)
  | none =>
    let d := (dictOfCode (byteAt p 0)).getD .j
    let o := outlineAt p 2 (byteAt p 1)
    match stageRefusal d [reserveOf o 0] s with
    | some r => (s, .refused r)
    | none =>
      let s := s.onDict (fun x =>
        { stage d none o [reserveOf o 0] x with deletesStaged := x.deletesStaged + 1 })
      (s, .done (be 4 s.dict.stagingFree))

/-- The tests of R88 on the store and on another ENTRY-LOOKUP. -/
def lookupRefusal (s : State) : Option Reason :=
  match s.store.state with
  | .unmounted => some .notMounted
  | .mounting => some .notMounted
  | .unformatted => some .unformatted
  | _ => if s.dict.lookupTag.isSome then some .busy else none

/-- ENTRY-LOOKUP, the owning rule (R88). A lookup whose bucket has no record completes in this step. -/
def entryLookupRule (tag : Byte) (p : Bytes) (s : State) : State × Result :=
  match outlineValue p with
  | some r => (s, .refused r)
  | none =>
    let d := (dictOfCode (byteAt p 0)).getD .j
    let o := outlineAt p 2 (byteAt p 1)
    match lookupRefusal s with
    | some r => (s, .refused r)
    | none =>
      if !s.dictReady d then (s, .done (lookupData s.dict (noneLookup .request d o) true))
      else
        let s := s.onDict (fun x => { x with lookupTag := some tag })
        match scanLookup s.dict .request d o with
        | (l, some _) => (startWalk l s, .accepted)
        | (l, none) => (deliver l false (countLookup s), .accepted)

end Sys2Proof.Machine
end

