-- ==== Sys2Proof/Machine/StoreOps.lean ====
section
/-! DEFINITION. The store controller's shared operations (Section 4): starting work, suspending and resuming, the end of
operations, relocation, FAULT, format and erase steps, mount, and the end of a step in the store. -/

namespace Sys2Proof.Machine

/-! ### Starting work (R62 to R64) -/

/-- A program or erase is started: it is in progress and counted (R55, R65). -/
def Store.begin (op : FlashOp) (w : Work) (st : Store) : Store :=
  let st := { st with inProgress := some { op := op, work := w, ran := 0, timedOut := false } }
  match op with
  | .program .. => { st with programs := st.programs + 1 }
  | .erase _ => { st with erases := st.erases + 1 }

/-- The first waiting read is made (R62). -/
def startRead (s : State) : State :=
  match s.store.waiting with
  | [] => s
  | r :: rs => s.onStore (fun st => { st with reading := some r, waiting := rs, reads := st.reads + 1 })

/-- The buffer page whose program may be started: the oldest, when it is WAITING or to be programmed again
(R62, R66). -/
def logReady (s : State) : Option BufPage :=
  match s.log.pages with
  | [] => none
  | p :: _ => if p.state = .waiting ∨ (p.state = .programming ∧ s.store.logRelocated = true) then some p else none

/-- The start address of the log region. -/
def State.logBase (s : State) : Nat :=
  match s.store.header with
  | none => 0
  | some h => h.log.start * Config.blockBytes

/-- The first buffer page becomes PROGRAMMING (R75). -/
def programFirst : List BufPage → List BufPage
  | [] => []
  | p :: ps => { p with state := .programming } :: ps

/-- The program of the oldest buffer page is started (R62, R75). -/
def startLog (p : BufPage) (s : State) : State :=
  (s.onStore (Store.begin (.program (s.logBase + p.page * Config.pageBytes) p.records.flatten) .logPage)).onLog
    (fun w => { w with pages := programFirst w.pages })

/-- The operation of a dictionary record program. -/
def dictOp (s : State) (p : DictProg) : FlashOp := .program (s.regionBase p.dict + p.offset) p.data

/-- A waiting dictionary record program is started (R62). -/
def startDict (p : DictProg) (s : State) : State :=
  s.onStore (fun st => ({ st with dictWork := st.dictWork.erase p } : Store).begin (dictOp s p) (.dictRecord p))

/-- The span of a region in a format, by its own header, or in a region erase, by the header copy. -/
def jobSpan (s : State) (k : JobKind) (d : Dict) : Span :=
  match k with
  | .format h _ => h.span d
  | .region _ =>
    match s.store.header with
    | none => ⟨0, 0⟩
    | some h => h.span d

/-- The operation of a step of the erase continuation (R70, R71, R68). -/
def jobOp (s : State) (j : Job) : FlashOp :=
  match j.step with
  | .erase b => .erase b
  | .header =>
    match j.kind with
    | .format h t => .program 0 (headerBytes h t)
    | .region _ => .program 0 []
  | .ready d => .program ((jobSpan s j.kind d).start * Config.blockBytes) (readyMark d)
  | .againHeader => .erase 0
  | .againReady d => .erase (jobSpan s j.kind d).start

/-- The next step of the erase continuation is started (R62). -/
def startJob (j : Job) (s : State) : State := s.onStore (Store.begin (jobOp s j) .job)

/-- RESUME (R63). -/
def Store.resume (st : Store) : Store := { st with inProgress := st.suspended, suspended := none, sinceResume := some 0 }

/-- A program lies outside the block of the suspended operation (R64). -/
def FlashOp.outside (op susp : FlashOp) : Bool :=
  match op, susp with
  | .program addr _, .erase b => decide (addr / Config.blockBytes ≠ b)
  | _, _ => false

/-- Less than resume-interval has passed since the last RESUME (R63 step 1). -/
def resumeShort (st : Store) : Bool :=
  match st.sinceResume with
  | none => false
  | some e => decide (e < (st.timing.map Timing.resumeInterval).getD 0)

/-- With nothing in progress and nothing suspended: the work being retried, then reads, log pages, dictionary records,
erase continuation (R62, R68). -/
def pumpIdle (s : State) : State :=
  match s.store.recovering with
  | some (.logPage _) =>
    match logReady s with
    | some p => startLog p s
    | none => s
  | some (.dictRecord _) =>
    match s.store.dictWork with
    | p :: _ => startDict p s
    | [] => s
  | some .job =>
    match s.store.job with
    | some j => startJob j s
    | none => s
  | none =>
    if !s.store.waiting.isEmpty then startRead s
    else
      match logReady s, s.store.dictWork.head?, s.store.job with
      | some p, _, _ => startLog p s
      | none, some p, _ => startDict p s
      | none, none, some j => startJob j s
      | none, none, none => s

/-- With an operation suspended and none in progress: a retry that R64 allows, then reads, then the programs that R64
allows beside a suspended erase, then RESUME (R63, R64). -/
def pumpSuspended (r : Running) (s : State) : State :=
  let log := logReady s
  let dict := s.store.dictWork.find? (fun p => (dictOp s p).outside r.op)
  let erasing := match r.op with
    | .erase _ => true
    | .program .. => false
  match s.store.recovering, erasing, log, dict with
  | some (.logPage _), true, some p, _ => startLog p s
  | some (.dictRecord _), true, _, some p => startDict p s
  | _, _, _, _ =>
    if !s.store.waiting.isEmpty then startRead s
    else
      match erasing, log, dict with
      | true, some p, _ => startLog p s
      | true, none, some p => startDict p s
      | _, _, _ => s.onStore Store.resume

/-- With an operation in progress and none suspended: SUSPEND for a waiting read, once resume-interval has passed
(R63). -/
def pumpRunning (r : Running) (s : State) : State :=
  if s.store.waiting.isEmpty || r.timedOut || s.store.suspendAt.isSome || resumeShort s.store then s
  else s.onStore (fun st => { st with suspendAt := some s.time.now })

/-- What the store controller starts at the end of a step (R57, R59, R62 to R64, R67, R69). -/
def storePump (s : State) : State :=
  match s.store.reading with
  | some _ => s
  | none =>
    match s.store.state with
    | .unmounted => s
    | .unformatted => s
    | .mounting => startRead s
    | .fault =>
      match s.store.inProgress with
      | some _ => s
      | none => startRead s
    | .formatting =>
      match s.store.inProgress, s.store.suspended with
      | some _, _ => s
      | none, some _ => s.onStore Store.resume
      | none, none =>
        match s.store.job with
        | some j => startJob j s
        | none => s
    | .ready =>
      match s.store.inProgress, s.store.suspended with
      | none, none => pumpIdle s
      | none, some r => pumpSuspended r s
      | some r, none => pumpRunning r s
      | some _, some _ => s

/-! ### FAULT (R67) -/

/-- LOG-FLUSH is completed (R78). -/
def completeFlush (failed : Option Reason) (s : State) : State :=
  match s.log.flushTag with
  | none => s
  | some (t, _) => complete t 0x14 failed [] (s.onLog (fun w => { w with flushTag := none }))

/-- FORMAT-STORE is completed (R70). -/
def completeFormat (failed : Option Reason) (data : Bytes) (s : State) : State :=
  (completeIf s.store.formatTag 0x11 failed data s).onStore (fun st => { st with formatTag := none })

/-- ERASE-REGION is completed (R71). -/
def completeErase (failed : Option Reason) (s : State) : State :=
  (completeIf s.store.eraseTag 0x10 failed [] s).onStore (fun st => { st with eraseTag := none })

/-- STORE-RECOVER is completed (R68). -/
def completeRecover (failed : Option Reason) (s : State) : State :=
  (completeIf s.store.recoverTag 0x12 failed [] s).onStore (fun st => { st with recoverTag := none })

/-- The regions a failed step of the erase continuation leaves BLANK-NEEDED (R67). -/
def Store.blankJob (st : Store) : Store :=
  match st.job.map Job.kind with
  | some (.format _ _) => { st with log := .blank, j := .blank, pa := .blank, pb := .blank }
  | some (.region d) => st.updRegion d (fun _ => .blank)
  | none => st

/-- The COMPLETIONs of requests waiting on a failed step of the erase continuation (R67). -/
def failJob (f : FailedWork) (s : State) : State :=
  match f with
  | .job => completeErase (some .storeFault) (completeFormat (some .storeFault) [] s)
  | _ => s

/-- The reason of a failed flush: REGION-FULL when a log page relocation lacked a page (R78, R137). -/
def flushReason (f : Option FailedWork) : Reason := if f = some (.logPage true) then .regionFull else .storeFault

/-- The store enters FAULT with the failed work kept (R67). STORE-FAULT is raised before the COMPLETIONs, of which
FORMAT-STORE's comes first, then those of ERASE-REGION, LOG-FLUSH and STORE-RECOVER (DESIGN CHOICE, log entry 11). -/
def enterFault (f : FailedWork) (s : State) : State :=
  let s := s.onStore (fun st =>
    let st := if f = .job then st.blankJob else st
    { st with
      state := .fault, failed := some f, recovering := none, logRelocated := false, suspendAt := none })
  let s := setCause .storeFault true s
  completeRecover (some .storeFault) (completeFlush (some (flushReason (some f))) (failJob f s))

/-! ### Failure and success of work (R65, R66) -/

/-- A relocation can shift every buffer page: the last stays within the log region (R66). -/
def canShift (s : State) : Bool :=
  match s.log.pages.getLast? with
  | none => false
  | some p => decide (p.page + 1 < s.store.logPages)

/-- The shift of a log page relocation: every buffer page moves one page on and LOG-APPEND advances; the first page is to
be programmed again (R66). -/
def shiftLog (s : State) : State :=
  let s := s.onLog (fun w => { w with pages := w.pages.map (fun p => { p with page := p.page + 1 }) })
  logCauses (s.onStore (fun st =>
    { st with log := { st.log with append := st.log.append.map (· + 1) }, logRelocated := true }))

/-- The start of the page after a record's page (R66). -/
def nextPageOf (p : DictProg) : Nat := (p.offset / Config.pageBytes + 1) * Config.pageBytes

/-- The record can be programmed at the start of the next page of its region (R66). -/
def canMove (s : State) (p : DictProg) : Bool :=
  decide (nextPageOf p + p.data.length ≤ s.regionEnd p.dict)

/-- The append point of a region moves; a region that is ERASING or BLANK-NEEDED holds none (R58). -/
def Region.appendAt (off : Nat) (r : Region) : Region := if r.state = .ready then { r with append := some off } else r

/-- The record waits, ahead of the other records, to be programmed at the start of the next page, where the append point
moves (R66, R68). -/
def moveDict (p : DictProg) (s : State) : State :=
  s.onStore (fun st =>
    let st := st.updRegion p.dict (Region.appendAt (nextPageOf p))
    { st with dictWork := { p with offset := nextPageOf p, relocated := true } :: st.dictWork })

/-- One is added to RELOCATIONS (R66). -/
def countRelocation (s : State) : State := s.onStore (fun st => { st with relocations := st.relocations + 1 })

/-- A failed log page: relocated once, otherwise FAULT (R66, R67, R68). -/
def logFailed (s : State) : State :=
  if s.store.logRelocated then enterFault (.logPage false) s
  else if canShift s then countRelocation (shiftLog s)
  else enterFault (.logPage true) s

/-- A failed dictionary record: relocated once, otherwise FAULT (R66, R67, R68). -/
def dictFailed (p : DictProg) (s : State) : State :=
  if p.relocated then enterFault (.dictRecord p) s
  else if canMove s p then countRelocation (moveDict p s)
  else enterFault (.dictRecord p) s

/-- A failed program or erase is acted on (R66, R67). -/
def workFailed (w : Work) (s : State) : State :=
  match w with
  | .logPage => logFailed s
  | .dictRecord p => dictFailed p s
  | .job => enterFault .job s
  | .abandoned => s

/-- A retried work has succeeded (R68). -/
def recovered (s : State) : State := completeRecover none (s.onStore (fun st => { st with recovering := none }))

/-- A page has left the buffer: the outstanding LOG-FLUSH waits for one page less (R78). -/
def flushProgress (s : State) : State :=
  match s.log.flushTag with
  | none => s
  | some (t, n) =>
    if n ≤ 1 then completeFlush none s else s.onLog (fun w => { w with flushTag := some (t, n - 1) })

/-- A log page has been programmed: the page becomes FREE (R75). -/
def logDone (s : State) : State :=
  flushProgress ((s.onLog (fun w => { w with pages := w.pages.drop 1 })).onStore (fun st =>
    { st with logRelocated := false }))

/-- A dictionary record has been programmed: the append point moves past it and the dictionary block is told
(R58, R65, R95). The record of a discarded operation is not entered (R95, R99, R101). -/
def dictDone (p : DictProg) (s : State) : State :=
  let s := s.onStore (fun st => st.updRegion p.dict (Region.appendAt (p.offset + p.data.length)))
  if p.discarded then s else recordSuccess p s

/-- The first waiting read of mount (R59). The region states stand as they are until mount sets each: BLANK-NEEDED after
power-on, and after a format ERASING, as R69 made them, though R58 has them BLANK-NEEDED until mount sets them (DESIGN
CHOICE, log entry 43). -/
def beginMount (s : State) : State :=
  s.onStore (fun st => { st with state := .mounting, mount := .header, job := none, waiting := st.waiting ++ [.mount] })

/-- A region erase has ended: the region is READY with its append point at its second page (R71). -/
def eraseDone (d : Dict) (s : State) : State :=
  completeErase none (s.onStore (fun st =>
    let st := st.updRegion d (fun _ => { state := .ready, append := some Config.pageBytes })
    { st with job := none }))

/-- The step after a step of the erase continuation; none when it was the last (R70, R71, R68). -/
def Job.after (j : Job) (span : Span) : Option JobStep :=
  match j.kind, j.step with
  | .format h _, .erase b => some (if b + 1 < h.capacity then .erase (b + 1) else .header)
  | .format _ _, .header => some (.ready .j)
  | .format _ _, .ready .j => some (.ready .pa)
  | .format _ _, .ready .pa => some (.ready .pb)
  | .format _ _, .ready .pb => none
  | .region d, .erase b => some (if b + 1 < span.start + span.len then .erase (b + 1) else .ready d)
  | .region _, .ready _ => none
  | .region _, .header => none
  | _, .againHeader => some .header
  | _, .againReady d => some (.ready d)

/-- A step of the erase continuation has succeeded (R70, R71). -/
def jobDone (s : State) : State :=
  match s.store.job with
  | none => s
  | some j =>
    let span := match j.kind with
      | .region d => jobSpan s j.kind d
      | .format _ _ => ⟨0, 0⟩
    match j.after span, j.kind with
    | some step, _ => s.onStore (fun st => { st with job := some { j with step := step } })
    | none, .format _ _ => beginMount s
    | none, .region d => eraseDone d s

/-- A step that only erases a block before the page program it leads to (R68). -/
def JobStep.again : JobStep → Bool
  | .againHeader => true
  | .againReady _ => true
  | _ => false

/-- The success of this work is the success of the retry: of the erase continuation, a repeated erase or the page
program it leads to (R68). -/
def endsRetry (st : Store) (w : Work) : Bool :=
  match st.recovering, w with
  | some (.logPage _), .logPage => true
  | some (.dictRecord _), .dictRecord _ => true
  | some .job, .job => !((st.job.map (fun j => j.step.again)).getD false)
  | _, _ => false

/-- A successful program or erase is acted on (R65, R68): the COMPLETION of a LOG-FLUSH or an ERASE-REGION, then that of
STORE-RECOVER (DESIGN CHOICE, log entry 11). -/
def workDone (w : Work) (s : State) : State :=
  let retried := endsRetry s.store w
  let s :=
    match w with
    | .logPage => logDone s
    | .dictRecord p => dictDone p s
    | .job => jobDone s
    | .abandoned => s
  if retried then recovered s else s

/-- One is added to PROGRAM-FAILURES or ERASE-FAILURES (R65). -/
def Store.countFailure (op : FlashOp) (st : Store) : Store :=
  match op with
  | .program .. => { st with programFailures := st.programFailures + 1 }
  | .erase _ => { st with eraseFailures := st.eraseFailures + 1 }

/-- What the memory holds after an operation has ended (R55). -/
def FlashOp.settle (op : FlashOp) (error : Bool) (left : List Host.Cell) (m : List Host.Cell) : List Host.Cell :=
  if error then op.leave m left else op.apply m

/-- The operation in progress is no longer BUSY: its effect in the memory, and its failure counted unless its timeout
was (R65). -/
def clearOp (r : Running) (error : Bool) (left : List Host.Cell) (s : State) : State :=
  (s.onFlash (fun f => { f with cells := r.op.settle error left f.cells })).onStore (fun st =>
    let st := { st with inProgress := none, suspendAt := none }
    if error && !r.timedOut then st.countFailure r.op else st)

/-- The operation in progress has ended (R65). -/
def opEnded (r : Running) (error : Bool) (left : List Host.Cell) (s : State) : State :=
  let s := clearOp r error left s
  if r.work = .abandoned then s
  else if error || r.timedOut then workFailed r.work s
  else workDone r.work s

/-- The longest time an operation may run, in µs (R55). -/
def runLimit (s : State) (op : FlashOp) : Nat :=
  match s.store.timing, op with
  | none, _ => 0
  | some t, .program .. => t.programMax
  | some t, .erase _ => t.eraseMax * 1000

/-- Time passes until the operation in progress has run for `limit` µs (log entry 2). -/
def runOpTo (limit ran : Nat) (s : State) : State := if ran < limit then s.advance (limit - ran) else s

/-- The timeout of the operation in progress is counted; it is measured again from here (R65). -/
def timeoutOp (op : FlashOp) (st : Store) : Store :=
  let st := st.countFailure op
  { st with
    timeouts := st.timeouts + 1, suspendAt := none,
    inProgress := st.inProgress.map (fun r => { r with timedOut := true, ran := 0 }) }

/-- The kept form of the work of an operation that stays BUSY (R65, R67). -/
def Work.kept : Work → FailedWork
  | .logPage => .logPage false
  | .dictRecord p => .dictRecord p
  | .job => .job
  | .abandoned => .job

/-- An operation whose end will not be acted on (R65, R69). -/
def Running.abandon (r : Running) : Running := { r with work := .abandoned }

/-- The memory is still BUSY when the limit has passed again: FAULT, with the work kept (R65, R67). An operation that a
format waits for (R69), or on which the store has entered FAULT before, changes nothing. -/
def stillBusy (r : Running) (s : State) : State :=
  if r.work = .abandoned then s
  else enterFault r.work.kept (s.onStore (fun st => { st with inProgress := st.inProgress.map Running.abandon }))

/-! ### Mount (R59 to R61, R84) -/

/-- The next offset at a page boundary. -/
def nextPage (off : Nat) : Nat := (off / Config.pageBytes + 1) * Config.pageBytes

/-- A record is whole (R60 step 2). -/
def wholeRecord (m : List Host.Cell) (base off : Nat) : Option DictRead :=
  (readRecord m base off (nextPage off)).filter (fun r =>
    decide (r.text.length ≤ Config.textMax) && (decide (r.kind = 1) || r.text.isEmpty))

/-- What a scan has found: the records with their buckets and offsets in the order they lie, the torn records, the
append point. -/
structure Scan where
  records : List (Nat × Nat)
  torn : Nat
  append : Nat
deriving DecidableEq, Repr

/-- The scan of a dictionary region of `limit` bytes from an offset (R60); `fuel` bounds the offsets visited. -/
def scanRegion (m : List Host.Cell) (base limit : Nat) : Nat → Nat → Scan
  | 0, off => ⟨[], 0, off⟩
  | fuel + 1, off =>
    if limit ≤ off then ⟨[], 0, limit⟩
    else if readByte m (base + off) = erasedByte then
      if off % Config.pageBytes = 0 ∨ limit ≤ nextPage off ∨ readByte m (base + nextPage off) = erasedByte then
        ⟨[], 0, off⟩
      else scanRegion m base limit fuel (nextPage off)
    else
      match wholeRecord m base off with
      | some r =>
        let x := scanRegion m base limit fuel (off + r.size)
        { x with records := (bucketOf r.outline, off) :: x.records }
      | none =>
        let x := scanRegion m base limit fuel (nextPage off)
        { x with torn := x.torn + 1 }

/-- The ready page of a dictionary region is valid (R60, R197). -/
def readyValid (s : State) (d : Dict) : Bool :=
  decide (readBytes s.flash.cells (s.regionBase d) (readyMark d).length = readyMark d)

/-- The records of a region handed over, in their order (R84). -/
def enterAll (d : Dict) (rs : List (Nat × Nat)) (x : Dictionary) : Dictionary :=
  rs.foldl (fun x r => x.enter d r.1 r.2) x

/-- A dictionary region is scanned (R60). -/
def mountDict (d : Dict) (s : State) : State :=
  if readyValid s d then
    let x := scanRegion s.flash.cells (s.regionBase d) (s.regionEnd d) (s.regionEnd d) Config.pageBytes
    (s.onDict (enterAll d x.records)).onStore (fun st =>
      let st := st.updRegion d (fun _ => { state := .ready, append := some x.append })
      { st with tornRecords := st.tornRecords + BitVec.ofNat 32 x.torn })
  else s.onStore (fun st => st.updRegion d (fun _ => .blank))

/-- The pages of the log region that hold a byte other than FFh, rising (R61). -/
def usedPages (base limit : Nat) : List Host.Cell → List Nat
  | [] => []
  | c :: cs =>
    let rest := usedPages base limit cs
    if base ≤ c.1 ∧ c.1 < base + limit then
      let p := (c.1 - base) / Config.pageBytes
      if rest.head? = some p then rest else p :: rest
    else rest

/-- A page of the log region holds a slot that is neither empty nor passes its check (R61). -/
def pageTorn (m : List Host.Cell) (base page : Nat) : Bool :=
  (List.range Config.pageRecords).any (fun k =>
    let slot := readBytes m (base + page * Config.pageBytes + k * 16) 16
    !slotEmpty slot && !slotPasses slot)

/-- The log region is scanned and the store becomes READY (R61); a format's COMPLETION follows (R70), after the
conditions of the log (DESIGN CHOICE, log entry 11). -/
def mountLog (s : State) : State :=
  let used := usedPages s.logBase (s.store.logPages * Config.pageBytes) s.flash.cells
  let torn := used.countP (pageTorn s.flash.cells s.logBase)
  let append := match used.getLast? with
    | none => 0
    | some p => p + 1
  let s := s.onStore (fun st =>
    { st with log := { state := .ready, append := some append }, tornPages := st.tornPages + BitVec.ofNat 32 torn,
              state := .ready, mount := .idle })
  completeFormat none ((s.store.header.map Header.table).getD []) (logCauses s)

/-- Mount waits for its next read. -/
def mountNext (p : MountPhase) (s : State) : State :=
  s.onStore (fun st => { st with mount := p, waiting := st.waiting ++ [.mount] })

/-- The header is not valid: UNFORMATTED (R59). -/
def mountFails (s : State) : State :=
  completeFormat (some .unformatted) [] (s.onStore (fun st =>
    { st with state := .unformatted, mount := .idle, header := none, timing := none, log := .blank, j := .blank,
              pa := .blank, pb := .blank }))

/-- The header page has been read (R59, R84). -/
def mountHeader (s : State) : State :=
  match parseHeader (readBytes s.flash.cells 0 37) with
  | none => mountFails s
  | some (h, t) =>
    let s := s.onDict (fun x => ((x.upd .j (fun r => { r with directory := [] })).upd .pa
      (fun r => { r with directory := [] })).upd .pb (fun r => { r with directory := [] }))
    mountNext (.dict .j) (s.onStore (fun st => { st with header := some h, timing := some t }))

/-- What mount reads after a dictionary region (R59). -/
def afterDict : Dict → MountPhase
  | .j => .dict .pa
  | .pa => .dict .pb
  | .pb => .log

/-- A read of mount has ended (R59). -/
def mountRead (s : State) : State :=
  match s.store.mount with
  | .idle => s
  | .header => mountHeader s
  | .dict d => mountNext (afterDict d) (mountDict d s)
  | .log => mountLog s

/-! ### LOG-READ (R77) -/

/-- The buffer page assigned a page of the log region. -/
def bufferedPage (s : State) (page : Nat) : Option BufPage := s.log.pages.find? (fun p => decide (p.page = page))

/-- A slot of the log region as it stands: from the buffer, or from the note memory (R77). -/
def slotNow (s : State) (k : Nat) : Bytes :=
  match bufferedPage s (k / Config.pageRecords) with
  | some p => p.records.getD (k % Config.pageRecords) (List.replicate 16 erasedByte)
  | none => readBytes s.flash.cells (s.logBase + k * 16) 16

/-- The number of slots, at most `n`, from slot `k` to the end of its page. -/
def pageRun (k n : Nat) : Nat := min n (Config.pageRecords - k % Config.pageRecords)

/-- The slots from `k` on, up to `n`, to the end of the page of `k`, taken now. -/
def takeSlots (s : State) (k n : Nat) : List Bytes := (List.range (pageRun k n)).map (fun i => slotNow s (k + i))

/-- The COMPLETION of LOG-READ (R77). -/
def logReadDone (q : LogReading) (s : State) : State :=
  complete q.tag 0x13 none (be 4 q.index ++ byte q.slots.length :: q.slots.flatten)
    (s.onStore (fun st => { st with logRead := none }))

/-- LOG-READ takes the slots of buffered pages at once, and waits for a read for any other page (R77); `fuel` bounds the
pages touched. -/
def logReadOn : Nat → LogReading → State → State
  | 0, _, s => s
  | fuel + 1, q, s =>
    if q.count ≤ q.slots.length then logReadDone q s
    else
      let k := q.index + q.slots.length
      match bufferedPage s (k / Config.pageRecords) with
      | some _ => logReadOn fuel { q with slots := q.slots ++ takeSlots s k (q.count - q.slots.length) } s
      | none => s.onStore (fun st => { st with logRead := some q, waiting := st.waiting ++ [.logRead] })

/-- A read made for LOG-READ has ended: the slots of one page are taken (R77). -/
def logReadPage (s : State) : State :=
  match s.store.logRead with
  | none => s
  | some q =>
    let q := { q with slots := q.slots ++ takeSlots s (q.index + q.slots.length) (q.count - q.slots.length) }
    logReadOn (q.count + 1) q s

/-- The read being made has ended and its data reaches the block that asked for it (R62). -/
def readEnded (r : ReadFor) (s : State) : State :=
  let s := s.onStore (fun st => { st with reading := none })
  match r with
  | .mount => mountRead s
  | .lookup c => lookupRead c s
  | .logRead => logReadPage s
  | .dropped => s

/-! ### STORE-RECOVER (R68) -/

/-- The step that retries a failed step: an erase again, a page program by erasing its block first (R68). -/
def retryStep : JobStep → JobStep
  | .header => .againHeader
  | .ready d => .againReady d
  | st => st

/-- The regions a retried step erases return to ERASING (R67, R68). -/
def Store.eraseAgain (st : Store) : Store :=
  let erasing : Region := { state := .erasing, append := none }
  let st : Store := { st with job := st.job.map (fun j => { j with step := retryStep j.step }) }
  match st.job.map Job.kind with
  | some (.format _ _) => { st with log := erasing, j := erasing, pa := erasing, pb := erasing }
  | some (.region d) => st.updRegion d (fun _ => erasing)
  | none => st

/-- The failed work belongs to a format (R68). -/
def Store.formatFailed (st : Store) : Bool :=
  match st.failed, st.job.map Job.kind with
  | some .job, some (.format _ _) => true
  | _, _ => false

/-- The failed work is set to be retried first, or the store returns to FAULT when no page is left (R68). -/
def retryWork (f : FailedWork) (s : State) : State :=
  let t := s.onStore (fun st => { st with recovering := some f })
  match f with
  | .logPage _ => if canShift s then shiftLog t else enterFault (.logPage true) s
  | .dictRecord p => if canMove s p then moveDict p t else enterFault (.dictRecord p) s
  | .job => t.onStore Store.eraseAgain

/-- STORE-RECOVER, the owning rule (R68). The CAUSE-ENDED notice of STORE-FAULT comes before what the retry brings (DESIGN
CHOICE, log entry 11). -/
def storeRecoverRule (tag : Byte) (s : State) : State × Result :=
  if s.store.state ≠ .fault then (s, .done [])
  else
    let failed := s.store.failed
    let s := s.onStore (fun st =>
      { st with state := if st.formatFailed then .formatting else .ready, failed := none, recoverTag := some tag })
    let s := setCause .storeFault false s
    match failed with
    | none => (completeRecover none s, .accepted)
    | some f => (retryWork f s, .accepted)

/-! ### FORMAT-STORE and ERASE-REGION (R69, R71) -/

/-- The header a FORMAT-STORE asks for: the regions one after another from block 1 (R56, R69). -/
def formatHeader (p : Bytes) : Header :=
  let log := be2At p 2
  let j := be2At p 4
  let pa := be2At p 6
  { capacity := be2At p 0, log := ⟨1, log⟩, j := ⟨1 + log, j⟩, pa := ⟨1 + log + j, pa⟩,
    pb := ⟨1 + log + j + pa, be2At p 8⟩ }

/-- The timing values a FORMAT-STORE gives (R69). -/
def formatTiming (p : Bytes) : Timing :=
  { programMax := be2At p 10, eraseMax := be2At p 12, suspendLatency := be2At p 14, resumeInterval := be2At p 16 }

/-- The capacity and the lengths FORMAT-STORE accepts (R69). -/
def formatLengths (h : Header) : Bool :=
  decide (256 ≤ h.capacity ∧ h.capacity ≤ 4096 ∧ 16 ≤ h.log.len ∧ 4 ≤ h.j.len ∧ 4 ≤ h.pa.len ∧ 4 ≤ h.pb.len ∧
    1 + h.log.len + h.j.len + h.pa.len + h.pb.len ≤ h.capacity)

/-- A session is OPEN or CLOSING. -/
def State.inSession (s : State) : Bool := decide (s.script.session ≠ .closed)

/-- The refusals of FORMAT-STORE (R69), tested in the order of the table (DESIGN CHOICE, log entry 42). -/
def formatRefusal (p : Bytes) (s : State) : Option Reason :=
  if s.inSession then some .sessionOpen
  else
    match s.store.state with
    | .unmounted => some .notMounted
    | .mounting => some .notMounted
    | .formatting => some .busy
    | _ => if formatLengths (formatHeader p) && (formatTiming p).valid then none else some .badValue

/-- LOG-READ in flight is completed with FAILED and BUSY (R69). -/
def failLogRead (s : State) : State :=
  match s.store.logRead with
  | none => s
  | some q => complete q.tag 0x13 (some .busy) [] (s.onStore (fun st => { st with logRead := none }))

/-- Waiting work of the store is abandoned and the operations under way are left to end (R69). -/
def Store.abandonAll (st : Store) : Store :=
  { st with waiting := [], reading := st.reading.map (fun _ => .dropped), dictWork := [], job := none, failed := none,
            recovering := none, logRelocated := false, inProgress := st.inProgress.map Running.abandon,
            suspended := st.suspended.map Running.abandon }

/-- The store of a format that has been taken (R69). -/
def Store.format (h : Header) (t : Timing) (tag : Byte) (st : Store) : Store :=
  let erasing : Region := { state := .erasing, append := none }
  let st := st.abandonAll
  { st with
    state := .formatting, timing := some t, log := erasing, j := erasing, pa := erasing, pb := erasing,
    formatTag := some tag, job := some { kind := .format h t, step := .erase 0 } }

/-- FORMAT-STORE is taken (R69, R73, R100). The notices of the step: the COMPLETIONs of LOG-READ, of a lookup in flight, of
ERASE-REGION, LOG-FLUSH and STORE-RECOVER, then the CAUSE-ENDED notices of STORE-FAULT, LOG-NEARLY-FULL and LOG-FULL (DESIGN
CHOICE, log entry 11: R67, R69 and R188 fix no order among them). -/
def takeFormat (tag : Byte) (p : Bytes) (s : State) : State :=
  let s := formatDicts (failLogRead s)
  let s := completeRecover (some .busy) (completeFlush (some .busy) (completeErase (some .busy) s))
  let s := s.onStore (Store.format (formatHeader p) (formatTiming p) tag)
  logCauses (setCause .storeFault false (s.onLog (fun w => { w with pages := [] })))

/-- FORMAT-STORE, the owning rule (R69). -/
def formatRule (tag : Byte) (p : Bytes) (s : State) : State × Result :=
  match formatRefusal p s with
  | some r => (s, .refused r)
  | none => (takeFormat tag p s, .accepted)

/-- The refusals of ERASE-REGION (R71), tested in the order of the table (DESIGN CHOICE, log entry 42). -/
def eraseRefusal (p : Bytes) (s : State) : Option Reason :=
  match dictOfCode (byteAt p 0) with
  | none => some .badValue
  | some d =>
    match s.store.state with
    | .unmounted => some .notMounted
    | .mounting => some .notMounted
    | .unformatted => some .unformatted
    | .fault => some .storeFault
    | .formatting => some .busy
    | .ready =>
      if s.store.job.isSome then some .busy
      else if !s.inSession then none
      else
        match dictPos d with
        | none => some .sessionOpen
        | some q => if (s.posRec q).state = .off then none else some .regionState

/-- The operation of a record program that `pick` picks has been discarded: the program is allowed to end, by R65 to R67
like any other, and its success is not entered (R95, R99, R101). -/
def Running.discardIf (pick : DictProg → Bool) (r : Running) : Running :=
  match r.work with
  | .dictRecord p => if pick p then { r with work := .dictRecord { p with discarded := true } } else r
  | _ => r

/-- The work being retried is a record of the dictionary whose program waits (log entry 17). -/
def Store.recoversFor (d : Dict) (st : Store) : Bool :=
  match st.recovering with
  | some (.dictRecord p) => decide (p.dict = d) && st.dictWork.any (fun q => decide (q.dict = d))
  | _ => false

/-- The store of a region erase that has been taken (R71). -/
def Store.eraseRegion (d : Dict) (start : Nat) (tag : Byte) (st : Store) : Store :=
  let st := st.updRegion d (fun _ => { state := .erasing, append := none })
  { st with
    dictWork := st.dictWork.filter (fun p => decide (p.dict ≠ d)),
    inProgress := st.inProgress.map (Running.discardIf (fun p => decide (p.dict = d))),
    suspended := st.suspended.map (Running.discardIf (fun p => decide (p.dict = d))),
    recovering := if st.recoversFor d then none else st.recovering,
    eraseTag := some tag, job := some { kind := .region d, step := .erase start } }

/-- ERASE-REGION is taken (R71, R99). A COMPLETION of STORE-RECOVER comes before those of the lookups that end (DESIGN
CHOICE, log entry 11). -/
def takeErase (tag : Byte) (d : Dict) (s : State) : State :=
  let t := s.onStore (Store.eraseRegion d (jobSpan s (.region d) d).start tag)
  eraseDict d (if s.store.recoversFor d then completeRecover (some .busy) t else t)

/-- ERASE-REGION, the owning rule (R71). -/
def eraseRule (tag : Byte) (p : Bytes) (s : State) : State × Result :=
  match eraseRefusal p s with
  | some r => (s, .refused r)
  | none => (takeErase tag ((dictOfCode (byteAt p 0)).getD .j) s, .accepted)

/-! ### LOG-READ and LOG-FLUSH (R77, R78) -/

/-- The refusals of LOG-READ (R77), tested in the order of the table (DESIGN CHOICE, log entry 42: R77 gives none); the
index is tested while a header copy is held (log entry 26). -/
def logReadRefusal (p : Bytes) (s : State) : Option Reason :=
  if byteAt p 4 < 1 ∨ 60 < byteAt p 4 then some .badValue
  else if s.store.header.isSome = true ∧ s.store.logPages * Config.pageRecords ≤ be4At p 0 then some .range
  else
    match s.store.state with
    | .unmounted => some .notMounted
    | .mounting => some .notMounted
    | .unformatted => some .unformatted
    | .formatting => some .busy
    | _ =>
      if s.store.logRead.isSome then some .busy
      else if s.store.log.state = .ready then none else some .regionState

/-- LOG-READ, the owning rule (R77). -/
def logReadRule (tag : Byte) (p : Bytes) (s : State) : State × Result :=
  match logReadRefusal p s with
  | some r => (s, .refused r)
  | none =>
    let n := min (byteAt p 4) (s.store.logPages * Config.pageRecords - be4At p 0)
    (logReadOn (n + 1) { tag := tag, index := be4At p 0, count := n, slots := [] } s, .accepted)

/-- LOG-FLUSH, the owning rule (R78), its refusals tested in the order of the table (DESIGN CHOICE, log entry 42). -/
def logFlushRule (tag : Byte) (s : State) : State × Result :=
  match s.store.state with
  | .unmounted => (s, .refused .notMounted)
  | .mounting => (s, .refused .notMounted)
  | .unformatted => (s, .refused .unformatted)
  | .fault => (s, .refused .storeFault)
  | _ =>
    if s.log.flushTag.isSome then (s, .refused .busy)
    else if s.log.pages.isEmpty then (s, .done [])
    else (s.onLog (fun w => { w.closePage with flushTag := some (tag, w.pages.length) }), .accepted)

/-! ### The end of a step -/

/-- The result data of CLOSE-SESSION's COMPLETION (R137). -/
def closeData (s : State) : Bytes :=
  be 2 s.logSession ++ be 4 s.script.units.length ++ be 4 s.script.nextNumber ++ be4 s.seqCounter ++
    be4 s.log.unloggedCount

/-- The flush of CLOSE-SESSION is reported: SESSION-STATE becomes CLOSED and the COMPLETION is sent (R137). -/
def closeDone (failed : Option Reason) (s : State) : State :=
  let s := (s.onLog (fun w => { w with flush := .none })).onScript (fun t => { t with session := .closed })
  (completeIf s.script.closeTag 0x08 failed (closeData s) s).onScript (fun t => { t with closeTag := none })

/-- The end of the flush of CLOSE-SESSION or RESTART is reported: flushed when no page is occupied, failed in FAULT
(R75, R137, R194). A close flush that finds the store in FAULT already takes its reason from the failed work kept
(DESIGN CHOICE, log entry 41: R137 words only a flush that failed at the relocation). -/
def flushReport (s : State) : State :=
  if s.log.pages.isEmpty || decide (s.store.state = .fault) then
    match s.log.flush with
    | .none => s
    | .close => closeDone (if s.log.pages.isEmpty then none else some (flushReason s.store.failed)) s
    | .restart => (s.onLog (fun w => { w with flush := .none })).onHost (fun h => { h with phase := .draining })
  else s

/-- The end of a step that may have given the dictionary block, the store controller or the log writer work: the drain
begins (R94), the store controller starts what it may (R62 to R64), the flush is reported (R75), the transmitter chooses
(R187). -/
def finishStep (s : State) : State := transmit (flushReport (storePump (drainBegin s)))

end Sys2Proof.Machine
end

