-- ==== Sys2Proof/Machine/KeyLinks.lean ====
section
/-! DEFINITION. Key link receivers and stroke formers (Section 1): assembly of reports, link state, forming, closing and
disposal of strokes, and the commands of the key links. -/

namespace Sys2Proof.Machine

/-! ### Stroke formers -/

/-- The STROKE notice of a close, made while stroke-echo is on (R20). -/
def echoStroke (r : StrokeRec) (seq : Option Count) (s : State) : State :=
  if s.settings.strokeEcho then offerNotice (.stroke r.pos seq r.keys r.timecode r.damaged r.held r.unlogged) s else s

/-- The former's counts at a close (R21). -/
def Former.close (held damaged : Bool) (f : Former) : Former :=
  { f with openStroke := none, closed := f.closed + 1,
           heldCloses := if held then f.heldCloses + 1 else f.heldCloses,
           damagedCloses := if damaged then f.damagedCloses + 1 else f.damagedCloses }

/-- The stroke record of a closed stroke (paragraph 1.4). -/
def OpenStroke.record (o : OpenStroke) (p : Pos) (seq : Count) (held damaged : Bool) : StrokeRec :=
  { pos := p, keys := o.keys, openTime := o.openTime, timecode := o.timecode, seq := seq, damaged := damaged, held := held,
    unlogged := false }

/-- A numbered stroke takes its number and is offered to the log writer, then to the floor controller; then its STROKE
notice is made (R19, R20). `lost` marks the stroke the loss of its link closed (R25). -/
def numberStroke (r : StrokeRec) (lost : Bool) (s : State) : State :=
  let o := offerStroke r { s with seqCounter := s.seqCounter + 1 }
  let r := { r with unlogged := !o.2 }
  echoStroke r (some r.seq) (if lost then disposeLost r o.1 else dispose r o.1)

/-- A discarded stroke is counted; its STROKE notice carries no number (R19, R20). -/
def discardStroke (r : StrokeRec) (s : State) : State :=
  echoStroke r none (s.onFormer r.pos (fun f => { f with discarded := f.discarded + 1 }))

/-- The open stroke of a position closes (R12, R15, R16) and is disposed of (R19). -/
def closeStroke (p : Pos) (held damaged lost : Bool) (s : State) : State :=
  match (s.formers.get p).openStroke with
  | none => s
  | some o =>
    let damaged := o.damaged || damaged
    let r := o.record p s.seqCounter held damaged
    let s := s.onFormer p (Former.close held damaged)
    if o.inSession && s.sessionOpen then numberStroke r lost s else discardStroke r s

/-- The latched set of a former. -/
def latch (p : Pos) (k : Keys) (s : State) : State := s.onFormer p (fun f => { f with latched := k })

/-- The keys of LAST-REPORT, none when there is none (R15, R17). -/
def lastKeys (p : Pos) (s : State) : Keys := ((s.links.get p).lastReport).getD 0

/-- The open stroke closes HELD at stroke-limit and the keys down are latched (R15). -/
def closeHeld (p : Pos) (s : State) : State :=
  match (s.formers.get p).openStroke with
  | none => s
  | some _ => latch p (lastKeys p s) (closeStroke p true false false s)

/-- The open stroke has reached stroke-limit (R15). -/
def strokeDue (p : Pos) (s : State) : Bool :=
  match (s.formers.get p).openStroke with
  | none => false
  | some o => decide (s.settings.strokeLimit * 1000 ≤ s.age o.openTime)

/-- A stroke opens with the unlatched part of a report and a stamp (R10). -/
def openStroke (p : Pos) (k : Keys) (s : State) : State :=
  let o : OpenStroke :=
    { keys := k, openTime := s.time.now, timecode := s.stamp, damaged := false, held := false, inSession := s.sessionOpen }
  s.stamped.onFormer p (fun f => { f with openStroke := some o })

/-- The unlatched part of a report is added to KEYS (R11). -/
def addKeys (k : Keys) (f : Former) : Former :=
  { f with openStroke := f.openStroke.map (fun o => { o with keys := o.keys ||| k }) }

/-- A valid report reaches the stroke former (R10, R11, R12, R13); nothing while the position is OFF (R17), and no stroke
opens once RESTART has been taken (R21). -/
def formerReport (p : Pos) (k : Keys) (s : State) : State :=
  if (s.posRec p).state = .off then s
  else
    let latched := (s.formers.get p).latched &&& k
    let free := k &&& ~~~latched
    let s := latch p latched s
    match (s.formers.get p).openStroke with
    | none => if free = 0 ∨ s.windingDown = true then s else openStroke p free s
    | some _ => if free = 0 then closeStroke p false false false s else s.onFormer p (addKeys free)

/-- The stroke former is told of a damaged report (R14, R17). -/
def formerDamaged (p : Pos) (s : State) : State :=
  if (s.posRec p).state = .off then s
  else s.onFormer p (fun f => { f with openStroke := f.openStroke.map (fun o => { o with damaged := true }) })

/-- The position is disabled: an open stroke is abandoned and counted (R17). -/
def abandonStroke (p : Pos) (s : State) : State :=
  s.onFormer p (fun f => match f.openStroke with
    | none => f
    | some _ => { f with openStroke := none, discarded := f.discarded + 1 })

/-- A session event: an open stroke leaves the session (R18). -/
def Former.leaveSession (f : Former) : Former :=
  { f with openStroke := f.openStroke.map (fun o => { o with inSession := false }) }

/-- Both stroke formers are told of a session event (R18). -/
def leaveSession (s : State) : State := (s.onFormer .a Former.leaveSession).onFormer .b Former.leaveSession

/-! ### Receivers -/

/-- A report in progress (R2). -/
def KeyRx.collecting : KeyRx → Bool
  | .hunt => false
  | .collect _ => true

/-- A report is damaged: it is discarded and counted, and the stroke former is told (R4). -/
def damagedReport (p : Pos) (s : State) : State :=
  formerDamaged p (s.onLink p (fun l => { l with rx := .hunt, damagedReports := l.damagedReports + 1 }))

/-- A report in progress, if any, is damaged (R4). -/
def damageProgress (p : Pos) (s : State) : State := if (s.links.get p).rx.collecting then damagedReport p s else s

/-- The link goes DOWN (R7, R16). The notices of the step: those of the stroke the loss closes, those of the floor, then
KEYLINK-x-DOWN (DESIGN CHOICE, log entry 11: R7 gives the condition no place among its actions). -/
def linkDown (p : Pos) (s : State) : State :=
  let s := s.onLink p (fun l =>
    { l with link := .down, lastReport := none, silenceFrom := none, linkDowns := l.linkDowns + 1 })
  let s := latch p 0 (closeStroke p false true true s)
  setCause (.keyLinkDown p) true (floorLinkDown p s)

/-- The link comes UP at a valid report (R8). The CAUSE-ENDED notice of KEYLINK-x-DOWN comes before what the stroke former
makes of the report (DESIGN CHOICE, log entry 11). -/
def linkUp (p : Pos) (s : State) : State :=
  if (s.links.get p).link = .up then s
  else setCause (.keyLinkDown p) false (floorLinkUp p (s.onLink p (fun l => { l with link := .up })))

/-- The key field of a report (paragraph 11.2). -/
def keyField (b0 b1 b2 b3 : Byte) : Keys :=
  b3.extractLsb' 5 2 ++ b2.extractLsb' 0 7 ++ b1.extractLsb' 0 7 ++ b0.extractLsb' 0 7

/-- The count field of a report (paragraph 11.2). -/
def countField (b3 : Byte) : Nat := b3.toNat % 32

/-- A valid report (R3, R8): LAST-REPORT, the silence interval, the link, the stroke former. -/
def validReport (p : Pos) (k : Keys) (s : State) : State :=
  formerReport p k (linkUp p (s.onLink p (fun l =>
    { l with rx := .hunt, lastReport := some k, silenceFrom := some s.time.now })))

/-- The fourth byte completes a report, which is valid or damaged (R3, R197). -/
def completeReport (p : Pos) (b0 b1 b2 b3 : Byte) (s : State) : State :=
  if keyCount (keyField b0 b1 b2 b3) = countField b3 then validReport p (keyField b0 b1 b2 b3) s
  else damagedReport p s

/-- A received character acts on the assembly state (R2); during a break no character is received (R1). -/
def keyChar (p : Pos) (c : Byte) (s : State) : State :=
  if (s.links.get p).inBreak then s
  else if c.msb then (damageProgress p s).onLink p (fun l => { l with rx := .collect [c] })
  else
    match (s.links.get p).rx with
    | .hunt => s
    | .collect [b0, b1, b2] => completeReport p b0 b1 b2 c s
    | .collect held => s.onLink p (fun l => { l with rx := .collect (held ++ [c]) })

/-- Characters one after another. -/
def keyChars (p : Pos) (cs : Bytes) (s : State) : State := cs.foldl (fun s c => keyChar p c s) s

/-! ### Commands -/

/-- KEY_REPORT (R2, R3). -/
def execKeyReport (link : Pos) (chars : Bytes) (s : State) : Host.Outcome State Fault Refusal :=
  .next (finishStep (keyChars link chars s))

/-- LEAD_BYTE (R2). -/
def execLeadByte (link : Pos) (char : Byte) (s : State) : Host.Outcome State Fault Refusal :=
  .next (finishStep (keyChar link char s))

/-- ERRORED_BYTE (R1, R2). -/
def execErroredByte (link : Pos) (s : State) : Host.Outcome State Fault Refusal :=
  if (s.links.get link).inBreak then .next s
  else .next (damageProgress link (s.onLink link (fun l => { l with framingErrors := l.framingErrors + 1 })))

/-- BREAK (R5). -/
def execBreak (link : Pos) (s : State) : Host.Outcome State Fault Refusal :=
  if (s.links.get link).inBreak then .next s
  else
    let s := damageProgress link (s.onLink link (fun l => { l with inBreak := true }))
    .next (finishStep (if (s.links.get link).link = .up then linkDown link s else s))

/-- BREAK_END (R5). -/
def execBreakEnd (link : Pos) (s : State) : Host.Outcome State Fault Refusal :=
  .next (s.onLink link (fun l => { l with inBreak := false }))

/-- SILENCE_INTERVAL_EXPIRY (R6). While no interval runs there is no expiry. -/
def execSilenceIntervalExpiry (link : Pos) (s : State) : Host.Outcome State Fault Refusal :=
  match (s.links.get link).silenceFrom with
  | none => .next s
  | some t => .next (finishStep (linkDown link (damageProgress link (s.runTo t Config.silenceLimit))))

/-- STROKE_LIMIT_EXPIRY (R15). While no stroke is open there is no expiry. -/
def execStrokeLimitExpiry (pos : Pos) (s : State) : Host.Outcome State Fault Refusal :=
  match (s.formers.get pos).openStroke with
  | none => .next s
  | some o => .next (finishStep (closeHeld pos (s.runTo o.openTime (s.settings.strokeLimit * 1000))))

end Sys2Proof.Machine
end

