-- ==== Sys2Proof/Machine/Positions.lean ====
section
/-! DEFINITION. The commands of the writer positions and the floor (Section 2). -/

namespace Sys2Proof.Machine

/-- The code of a switch: OFF 0, ON 1 (R196). -/
def switchOf (n : Nat) : Option Bool :=
  match n with
  | 0 => some false
  | 1 => some true
  | _ => none

/-- A position is enabled (R23, R17). -/
def enablePos (p : Pos) (s : State) : State :=
  if (s.posRec p).state = .off then
    latch p (if (s.links.get p).link = .up then lastKeys p s else 0) (s.onPos p (PosRec.become (s.linkedState p)))
  else s

/-- A position is disabled (R23, R17, R33, R34). -/
def disablePos (p : Pos) (s : State) : State :=
  if (s.posRec p).state = .off then s
  else (withdraw p .off (abandonStroke p s)).onPos p (fun r => { r with queue := [], pending := none })

/-- WRITER-ENABLE, the owning rule (R23). -/
def writerEnableRule (payload : Bytes) (s : State) : State × Result :=
  match posOfCode (byteAt payload 0), switchOf (byteAt payload 1) with
  | some p, some true => (enablePos p s, .done [])
  | some p, some false => (disablePos p s, .done [])
  | _, _ => (s, .refused .badValue)

/-- HANDOVER of a named position in an OPEN session (R29, the table). -/
def handoverTo (p : Pos) (s : State) : State × Result :=
  match (s.posRec p).state, s.floor.state with
  | .off, _ => (s, .refused .regionState)
  | .down, _ => (s, .refused .regionState)
  | .shadow, .vacant => (takeFloor p .handover s, .done [])
  | .shadow, .held => (beginPass p .handover s, .done [])
  | .live, .passing => (cancelPass (otherPos p) .shadow s, .done [])
  | _, _ => (s, .done [])

/-- HANDOVER, the owning rule (R29): NO-SESSION before BAD-VALUE, as the text names them (DESIGN CHOICE, log entry 42). -/
def handoverRule (payload : Bytes) (s : State) : State × Result :=
  if !s.sessionOpen then (s, .refused .noSession)
  else
    match posOfCode (byteAt payload 0) with
    | none => (s, .refused .badValue)
    | some p => handoverTo p s

/-- WRITER_ENABLE (R23). -/
def execWriterEnable (tag : Byte) (payload : Bytes) (s : State) : Host.Outcome State Fault Refusal :=
  .next (finishStep (takeRequest tag (lenIs 2 payload) false (writerEnableRule payload) noAfter s))

/-- HANDOVER (R29). -/
def execHandover (tag : Byte) (payload : Bytes) (s : State) : Host.Outcome State Fault Refusal :=
  .next (finishStep (takeRequest tag (lenIs 1 payload) false (handoverRule payload) noAfter s))

/-- FLOOR_WAIT_EXPIRY (R31). While the floor-wait timer is stopped there is no expiry. -/
def execFloorWaitExpiry (s : State) : Host.Outcome State Fault Refusal :=
  match s.floor.waitFrom with
  | none => .next s
  | some t => .next (finishStep (forceByWait (s.runTo t (s.settings.floorWait * 1000))))

end Sys2Proof.Machine
end

