-- ==== Sys2Proof/Machine/Time.lean ====
section
/-! DEFINITION. The time base (Section 3): re-base, capture, discipline, holdover, TIME notices, and its commands. -/

namespace Sys2Proof.Machine

/-! ### Re-base and capture -/

/-- The mapping is re-based (R41). -/
def TimeBase.rebase (t : TimeBase) : TimeBase :=
  { t with anchorCode := min t.tcNow max32, anchorAt := t.now, rebases := t.rebases + 1 }

/-- A re-base is due and not deferred (R41). -/
def TimeBase.rebaseDue (t : TimeBase) : Bool :=
  decide (Config.rebaseLimit ≤ since t.now t.anchorAt ∧ t.capture ≠ .current)

/-- A re-base is made when it is due (R41). -/
def TimeBase.rebaseIfDue (t : TimeBase) : TimeBase := if t.rebaseDue then t.rebase else t

/-- The CURRENT capture expires, and a deferred re-base is made (R43, R41). -/
def TimeBase.expire (t : TimeBase) : TimeBase := ({ t with capture := .expired } : TimeBase).rebaseIfDue

/-- A CURRENT capture older than 500 ms has expired (R43; log entry 19). -/
def TimeBase.settleCapture (t : TimeBase) : TimeBase :=
  if t.capture = .current ∧ Config.captureLimit < since t.now t.captureAt then t.expire else t

/-- A rising edge on SYNC-IN (R43). -/
def TimeBase.pulse (t : TimeBase) : TimeBase :=
  { t with captureAt := t.now, capture := .current, syncPulses := t.syncPulses + 1,
           capturesReplaced := if t.capture = .current then t.capturesReplaced + 1 else t.capturesReplaced }

/-! ### Discipline (R42, R45 to R47) -/

/-- A computed rate limited to the rate limits (R42). -/
def limitRate (q : Nat) : Nat := max Config.rateMin (min Config.rateMax q)

/-- A rate the filter computes is held, limited, with its counts (R42, R47 step 2). -/
def TimeBase.newRate (q : Nat) (t : TimeBase) : TimeBase :=
  { t with rate := limitRate q, rateUpdates := t.rateUpdates + 1,
           rateClamps := if limitRate q = q then t.rateClamps else t.rateClamps + 1 }

/-- The measured rate: the floor of ΔR x 16,777,216,000 / Δt, 0 when negative (R47 step 2). -/
def measured (dr : Int) (dt : Nat) : Nat := (dr * (Config.rateUnit : Int) / (dt : Int)).toNat

/-- Steps 1 to 3 of the slew (R47): the rate is measured when PREVIOUS-SYNC is VALID and Δt is usable. -/
def TimeBase.measure (r : Nat) (t : TimeBase) : TimeBase :=
  let dt := since t.captureAt t.prevAt
  if t.prevValid && decide (200000 ≤ dt ∧ dt ≤ 10000000) then
    t.newRate ((3 * t.rate + measured ((r : Int) - (t.prevCode : Int)) dt) / 4)
  else t

/-- What a SYNC-MARK does to the mapping. -/
inductive SyncAction | lock | step | slew
deriving DecidableEq, Repr

/-- The error e = R - P of a SYNC-MARK, P measured by the anchor and rate in force (R46). -/
def TimeBase.error (r : Nat) (t : TimeBase) : Int := (r : Int) - (t.tc t.captureAt : Int)

/-- Which discipline a SYNC-MARK brings (R45, R46, R47). -/
def TimeBase.action (r : Nat) (t : TimeBase) : SyncAction :=
  if t.sync = .unlocked then .lock
  else if Config.stepThreshold < (t.error r).natAbs then .step else .slew

/-- PREVIOUS-SYNC becomes the capture and R, SYNC-STATE LOCKED, and the holdover timer starts (R45 to R47, R49). -/
def TimeBase.accepted (r : Nat) (t : TimeBase) : TimeBase :=
  { t with prevAt := t.captureAt, prevCode := r, prevValid := true, sync := .locked, holdoverFrom := some t.now,
           capture := .none, syncAccepted := t.syncAccepted + 1 }

/-- The anchor timecode after a slew: P + trunc(e / 2) (R47 step 4), held in 32 bits (R39; log entry 23). -/
def TimeBase.slewCode (r : Nat) (t : TimeBase) : Nat :=
  min ((t.tc t.captureAt : Int) + (t.error r).tdiv 2).toNat max32

/-- The mapping disciplined by an accepted SYNC-MARK (R45, R46, R47). -/
def TimeBase.discipline (r : Nat) (t : TimeBase) : TimeBase :=
  match t.action r with
  | .lock => ({ t with anchorAt := t.captureAt, anchorCode := r } : TimeBase).accepted r
  | .step => ({ t with anchorAt := t.captureAt, anchorCode := r, steps := t.steps + 1 } : TimeBase).accepted r
  | .slew => ({ t.measure r with anchorAt := t.captureAt, anchorCode := t.slewCode r } : TimeBase).accepted r

/-! ### Conditions and notices -/

/-- The causes of SYNC-HOLDOVER and SYNC-UNLOCKED as SYNC-STATE and the session stand (R50), in this order
(DESIGN CHOICE, log entry 11). -/
def syncCauses (s : State) : State :=
  setCause .syncUnlocked (decide (s.time.sync = .unlocked ∧ s.script.session = .opened))
    (setCause .syncHoldover (decide (s.time.sync = .holdover)) s)

/-- A TIME notice (R51). -/
def timeNotice (event : TimeEvent) (error : Int) (s : State) : State :=
  offerNotice (.time event s.time.sync error s.time.anchorCode s.time.rate s.time.steps s.stamp) s.stamped

/-- The notice of a discipline, if it makes one (R45, R46, R47 step 6). -/
def syncEvent (a : SyncAction) (before : SyncState) : Option TimeEvent :=
  match a with
  | .lock => some .lock
  | .step => some .step
  | .slew => if before = .holdover then some .recover else none

/-- The code of ACTION in the reply, in the order in which R44 names LOCK, STEP and SLEW: R196 gives no code for it (DESIGN
CHOICE, log entry 38). -/
def actionCode : SyncAction → Nat
  | .lock => 0
  | .step => 1
  | .slew => 2

/-- ERROR of a SYNC-MARK: 0 for LOCK (R44, R51). -/
def syncError (a : SyncAction) (e : Int) : Int :=
  match a with
  | .lock => 0
  | _ => e

/-- An accepted SYNC-MARK (R44, third row). -/
def acceptSync (r : Nat) (s : State) : State × Result :=
  let a := s.time.action r
  let e := syncError a (s.time.error r)
  let s' := s.onTime (TimeBase.discipline r)
  let s' := match syncEvent a s.time.sync with
    | some ev => timeNotice ev e s'
    | none => s'
  (syncCauses s', .done (byte (actionCode a) :: beSigned e ++ be 4 s'.time.rate ++ [byte (syncCode s'.time.sync)]))

/-- SYNC-MARK, the owning rule (R44). -/
def syncMarkRule (payload : Bytes) (s : State) : State × Result :=
  let s := s.onTime TimeBase.settleCapture
  match s.time.capture with
  | .none => (s.onTime (fun t => { t with syncNoCapture := t.syncNoCapture + 1 }), .refused .noCapture)
  | .expired =>
    (s.onTime (fun t => ({ t with capture := .none, syncLate := t.syncLate + 1 } : TimeBase).rebaseIfDue),
      .refused .late)
  | .current => acceptSync (be4At payload 0) s

/-! ### Commands -/

/-- SYNC_PULSE (R43). -/
def execSyncPulse (s : State) : Host.Outcome State Fault Refusal :=
  .next (s.onTime (fun t => t.settleCapture.pulse))

/-- CAPTURE_EXPIRY (R43): more than 500 ms since the edge. -/
def execCaptureExpiry (s : State) : Host.Outcome State Fault Refusal :=
  if s.time.capture = .current then
    .next ((s.runTo s.time.captureAt (Config.captureLimit + 1)).onTime TimeBase.expire)
  else .next s

/-- SYNC_MARK (R44). -/
def execSyncMark (tag : Byte) (payload : Bytes) (s : State) : Host.Outcome State Fault Refusal :=
  .next (transmit (takeRequest tag (lenIs 4 payload) false (syncMarkRule payload) noAfter s))

/-- REBASE (R41): the time since the anchor reaches 2^31 µs; deferred while the capture is CURRENT. -/
def execRebase (s : State) : Host.Outcome State Fault Refusal :=
  .next ((s.runTo s.time.anchorAt Config.rebaseLimit).onTime TimeBase.rebaseIfDue)

/-- PREVIOUS_SYNC_EXPIRY (R48). -/
def execPreviousSyncExpiry (s : State) : Host.Outcome State Fault Refusal :=
  if s.time.prevValid then
    .next ((s.runTo s.time.prevAt (Config.previousSyncLimit + 1)).onTime (fun t => { t with prevValid := false }))
  else .next s

/-- HOLDOVER_EXPIRY (R49). -/
def execHoldoverExpiry (s : State) : Host.Outcome State Fault Refusal :=
  match s.time.holdoverFrom with
  | none => .next s
  | some t =>
    let s := (s.runTo t Config.holdoverLimit).onTime (fun t => { t with sync := .holdover, holdoverFrom := none })
    .next (transmit (syncCauses (timeNotice .holdover 0 s)))

end Sys2Proof.Machine
end

