-- ==== Sys2Proof/Machine/Sessions.lean ====
section
/-! DEFINITION. The commands of the transcript manager (Section 7): sessions, firmness by time, the lock, edits and
readback. -/

namespace Sys2Proof.Machine

/-! ### OPEN-SESSION (R134, R135) -/

/-- The refusals of OPEN-SESSION (R134). -/
def openRefusal (p : Bytes) (s : State) : Option Reason :=
  if be2At p 4 = 0 ∨ posOfCode (byteAt p 10) = none then some .badValue
  else if s.inSession then some .sessionOpen
  else
    match s.store.state with
    | .unmounted => some .notMounted
    | .mounting => some .notMounted
    | .formatting => some .notMounted
    | .unformatted => some .unformatted
    | .fault => some .storeFault
    | .ready => none

/-- The transcript of a session just opened (R135 step 1). -/
def Transcript.opened (p : Bytes) (t : Transcript) : Transcript :=
  { Transcript.reset with
    session := .opened, jobNumber := some (be4At p 0), sessionNumber := some (be2At p 4), epoch := some (be4At p 6),
    startingPos := posOfCode (byteAt p 10), search := t.search }

/-- Step 1 of R135: the transcript emptied with its CLEARED report and AGED-TO 0 (R163), the search completed (R148). -/
def openTranscript (p : Bytes) (s : State) : State :=
  let s := report .cleared (s.onScript (Transcript.opened p))
  completeSearch (s.onFeeds (fun m => { m with agedTo := 0 }))

/-- The time base at OPEN-SESSION (R53). -/
def TimeBase.openSession (epoch : Nat) (t : TimeBase) : TimeBase :=
  let t := { t with lastStamp := 0 }
  if t.sync = .unlocked then { t with anchorAt := t.now, anchorCode := epoch } else t

/-- The translator at OPEN-SESSION (R125). -/
def Translator.openSession (t : Translator) : Translator :=
  { Translator.reset with
    inFlight := t.inFlight, hold := t.hold, timer := t.timer, expiryPending := t.expiryPending,
    resolvePending := t.resolvePending, speakers := t.speakers }

/-- A position at OPEN-SESSION: an empty QUEUE and PENDING, counts 0 (R27). -/
def PosRec.openSession (r : PosRec) : PosRec := { PosRec.reset with state := r.state }

/-- The floor controller's queues and counts at OPEN-SESSION (R27). -/
def Floor.openSession (f : Floor) : Floor :=
  { f with pos := ⟨f.pos.a.openSession, f.pos.b.openSession⟩, cleanPasses := 0, forcedPasses := 0, cancelledPasses := 0,
           floorLosses := 0 }

/-- The starting position takes the floor if it is SHADOW (R27, R135 step 6). -/
def startFloor (s : State) : State :=
  match s.script.startingPos with
  | none => s
  | some p => if (s.posRec p).state = .shadow then takeFloor p .sessionOpen s else s

/-- Steps 2 to 4 of R135. -/
def openBlocks (epoch : Nat) (s : State) : State :=
  let s := { leaveSession s with seqCounter := 1 }
  (s.onTime (TimeBase.openSession epoch)).onTrans Translator.openSession

/-- OPEN-SESSION is taken (R135). The notices of the step: the COMPLETION of a readback search, what the SESSION-OPEN
record moves of the log's conditions, the FLOOR notice of the starting position with its record, then SYNC-HOLDOVER,
SYNC-UNLOCKED and FLOOR-VACANT (DESIGN CHOICE, log entry 11: R50 and R135 place the causes in this step and no notice of
theirs before or after another). -/
def takeOpen (p : Bytes) (s : State) : State × Result :=
  let s := (openBlocks (be4At p 6) (openTranscript p s)).onLog (fun w => { w with unloggedCount := 0 })
  let stamp := s.stamp
  let s := offerOther (openRecord s stamp) s.stamped
  let s := floorVacantCause (syncCauses (startFloor (s.onFloor Floor.openSession)))
  (s, .done (be 4 stamp ++ [byte (floorCode s.floor.state), byte (optPosCode s.floor.live)]))

/-- OPEN-SESSION, the owning rule (R134). -/
def openRule (p : Bytes) (s : State) : State × Result :=
  match openRefusal p s with
  | some r => (s, .refused r)
  | none => takeOpen p s

/-- OPEN_SESSION (R135). -/
def execOpenSession (tag : Byte) (payload : Bytes) (s : State) : Host.Outcome State Fault Refusal :=
  .next (finishStep (takeRequest tag (lenIs 11 payload) false (openRule payload) noAfter s))

/-! ### CLOSE-SESSION (R136) -/

/-- SESSION-STATE becomes CLOSING and the causes that need an OPEN session become absent (R136 step 1, R50), those
of the time base first, then FLOOR-VACANT (DESIGN CHOICE, log entry 11). -/
def beginClosing (tag : Option Byte) (s : State) : State :=
  floorVacantCause (syncCauses (s.onScript (fun t => { t with session := .closing, resolved := false, closeTag := tag })))

/-- CLOSE-SESSION, the owning rule (R136). -/
def closeRule (tag : Byte) (s : State) : State × Result :=
  match s.script.session with
  | .closed => (s, .refused .noSession)
  | .closing => (s, .refused .busy)
  | .opened => (afterRest (resolveOrder (leaveSession (releaseLock (beginClosing (some tag) s)))), .accepted)

/-- CLOSE_SESSION (R136). -/
def execCloseSession (tag : Byte) (payload : Bytes) (s : State) : Host.Outcome State Fault Refusal :=
  .next (finishStep (takeRequest tag (lenIs 0 payload) false (closeRule tag) noAfter s))

/-! ### Firmness by time (R132) -/

/-- FIRM_TIME_EXPIRY (R132). While no unit is COMMITTED there is no expiry. -/
def execFirmTimeExpiry (s : State) : Host.Outcome State Fault Refusal :=
  match s.script.oldestCommitted.bind TUnit.commitTime with
  | none => .next s
  | some t => .next (firmByTime (s.runTo t (s.settings.firmTime * 1000000)))

/-! ### The lock (R139, R140) -/

/-- The range a LOCK refuses (R139, third row). -/
def lockRange (t : Transcript) (first last : Nat) : Bool :=
  decide (last < first) || !t.holds first || !t.holds last ||
    decide (Config.lockMax < (t.range first last).length) || (t.range first last).any TUnit.isProvisional

/-- LOCK, the owning rule (R139). -/
def lockRule (p : Bytes) (s : State) : State × Result :=
  let first := be4At p 0
  let last := be4At p 4
  if s.script.session = .closing then (s, .refused .busy)
  else if s.script.lock.isSome then (s, .refused .lockHeld)
  else if lockRange s.script first last then (s, .refused .range)
  else
    (s.onScript (fun t =>
      { t with lock := some { first := first, last := last, since := s.time.now }, locksGranted := t.locksGranted + 1 }),
     .done (be 4 (s.script.range first last).length))

/-- LOCK (R139). -/
def execLock (tag : Byte) (payload : Bytes) (s : State) : Host.Outcome State Fault Refusal :=
  .next (transmit (takeRequest tag (lenIs 8 payload) false (lockRule payload) noAfter s))

/-- UNLOCK, the owning rule (R140). -/
def unlockRule (s : State) : State × Result :=
  if s.script.lock.isSome then (releaseLock s, .done []) else (s, .refused .notLocked)

/-- UNLOCK (R140). -/
def execUnlock (tag : Byte) (payload : Bytes) (s : State) : Host.Outcome State Fault Refusal :=
  .next (transmit (takeRequest tag (lenIs 0 payload) false unlockRule noAfter s))

/-- LOCK-TIMER has reached lock-timeout (R140). -/
def lockDue (s : State) : Bool :=
  match s.script.lock with
  | none => false
  | some l => decide (s.settings.lockTimeout * 1000000 ≤ s.age l.since)

/-- The lock times out (R140). -/
def timeoutLock (s : State) : State := s.onScript (fun t => { t with lock := none, lockTimeouts := t.lockTimeouts + 1 })

/-- LOCK_TIMEOUT (R140). While no lock is held there is no timeout. -/
def execLockTimeout (s : State) : Host.Outcome State Fault Refusal :=
  match s.script.lock with
  | none => .next s
  | some l => .next (timeoutLock (s.runTo l.since (s.settings.lockTimeout * 1000000)))

/-! ### Edits (R142 to R144) -/

/-- A unit edited (R142). -/
def editedUnit (text : Bytes) (join : Bool) (u : TUnit) : TUnit := { u with text := text, join := join, edited := true }

/-- EDIT-UNIT once it is not refused (R142). -/
def takeEdit (n : Nat) (text : Bytes) (join : Bool) (s : State) : State :=
  let s := s.onScript (fun t =>
    { t with lock := t.lock.map (fun l => { l with since := s.time.now }), edits := t.edits + 1 })
  replaceUnit n (editedUnit text join) (dropUntranslate n s)

/-- EDIT-UNIT, the owning rule (R142). -/
def editRule (p : Bytes) (s : State) : State × Result :=
  let n := be4At p 0
  let text := p.drop 6
  if 1 < byteAt p 4 then (s, .refused .badValue)
  else if Config.textMax < text.length then (s, .refused .tooLong)
  else if !s.script.holds n || !s.script.inLock n then (s, .refused .notLocked)
  else (takeEdit n text (decide (byteAt p 4 = 1)) s, .done [])

/-- EDIT_UNIT (R142). -/
def execEditUnit (tag : Byte) (payload : Bytes) (s : State) : Host.Outcome State Fault Refusal :=
  .next (transmit (takeRequest tag (lenEdit payload) false (editRule payload) noAfter s))

/-- The release test fails for one feed and one unit (R143). -/
def releasedTo (s : State) (c : Cls) (u : TUnit) (i : FeedId) : Bool :=
  let v := s.view i
  decide (v.cfg.tier = .delayed ∧ u.number ≤ (s.feeds.feeds.get i).cursor) && v.accepts u.cls && !v.accepts c

/-- The release test fails for some unit of the range whose class changes (R143). -/
def releaseFails (s : State) (c : Cls) (us : List TUnit) : Bool :=
  us.any (fun u => decide (u.cls ≠ c) && [FeedId.f0, .f1, .f2, .f3, .f4].any (releasedTo s c u))

/-- One unit of the range, as it stood, is given its new class, with its report, which carries the old class (R129,
R144). -/
def reclassUnit (c : Cls) (s : State) (u : TUnit) : State :=
  report (.reclassified u.number u.cls) (s.onScript (fun t =>
    { t with units := changeUnit u.number (fun u => { u with cls := c }) t.units,
             unitsReclassified := t.unitsReclassified + 1 }))

/-- RECLASSIFY, the owning rule (R143, R144). -/
def reclassifyRule (p : Bytes) (s : State) : State × Result :=
  let first := be4At p 0
  let last := be4At p 4
  match clsOfCode (byteAt p 8) with
  | none => (s, .refused .badValue)
  | some c =>
    let range := s.script.range first last
    if decide (last < first) || !s.script.holds first || !s.script.holds last then (s, .refused .range)
    else if !s.script.inLock first || !s.script.inLock last then (s, .refused .notLocked)
    else if releaseFails s c range then (s, .refused .released)
    else
      let changed := range.filter (fun u => decide (u.cls ≠ c))
      (changed.foldl (reclassUnit c) s, .done (be 4 changed.length))

/-- RECLASSIFY (R144). -/
def execReclassify (tag : Byte) (payload : Bytes) (s : State) : Host.Outcome State Fault Refusal :=
  .next (transmit (takeRequest tag (lenIs 9 payload) false (reclassifyRule payload) noAfter s))

/-! ### Readback (R145 to R148) -/

/-- The criterion of a READBACK, or the reason it is refused with (R145): a SPEAKER criterion has an argument of one
byte. -/
def criterionOf (code : Nat) (arg : Bytes) : Criterion ⊕ Reason :=
  match code with
  | 1 =>
    if arg.length = 1 ∧ 1 ≤ byteAt arg 0 ∧ byteAt arg 0 ≤ 32 then .inl (.speaker (byteAt arg 0)) else .inr .badValue
  | 2 =>
    if arg.isEmpty then .inr .badValue
    else if Config.textMax < arg.length then .inr .tooLong
    else .inl (.word arg)
  | _ => .inr .badValue

/-- READBACK, the owning rule (R145). -/
def readbackRule (tag : Byte) (p : Bytes) (s : State) : State × Result :=
  match criterionOf (byteAt p 0) (p.drop 7) with
  | .inr r => (s, .refused r)
  | .inl c =>
    if s.script.search.isSome then (s, .refused .busy)
    else
      let before := be4At p 1
      let q : Search :=
        { tag := tag, criterion := c, before := before, most := clamp 1 Config.readbackMax (byteAt p 5),
          collecting := false, cursor := if before = 0 then s.script.nextNumber else before, start := none, list := [] }
      (s.onScript (fun t => { t with search := some q, readbacks := t.readbacks + 1 }), .accepted)

/-- READBACK (R145). -/
def execReadback (tag : Byte) (payload : Bytes) (s : State) : Host.Outcome State Fault Refusal :=
  .next (transmit (takeRequest tag (lenReadback payload) false (readbackRule tag payload) noAfter s))

/-- The search goes on, or completes when LIST holds MAX numbers (R147, R148). -/
def searchOn (q : Search) (s : State) : State :=
  if decide (q.most ≤ q.list.length) && q.collecting then completeReadback q s
  else s.onScript (fun t => { t with search := some q })

/-- A visit of the SEARCH phase (R146). -/
def visitBack (q : Search) (s : State) : State :=
  match (s.script.units.filter (fun u => decide (u.number < q.cursor))).getLast? with
  | none => completeReadback q s
  | some u =>
    if q.criterion.passes u then
      searchOn { q with cursor := u.number, start := some u.number, list := [u.number], collecting := true } s
    else searchOn { q with cursor := u.number } s

/-- A visit of the COLLECT phase ends the search without adding the unit (R147). -/
def collectEnds (q : Search) (u : TUnit) : Bool :=
  decide (q.before ≠ 0 ∧ q.before ≤ u.number) ||
    (match q.criterion with
      | .speaker _ => decide (u.kind = .speakerLabel)
      | .word _ => false)

/-- A visit of the COLLECT phase (R147). -/
def visitForward (q : Search) (s : State) : State :=
  match s.script.units.find? (fun u => decide (q.cursor < u.number)) with
  | none => completeReadback q s
  | some u =>
    if collectEnds q u then completeReadback q s
    else searchOn { q with cursor := u.number, list := q.list ++ [u.number] } s

/-- READBACK_VISIT (R146, R147). While no search is in flight there is no visit. -/
def execReadbackVisit (s : State) : Host.Outcome State Fault Refusal :=
  match s.script.search with
  | none => .next s
  | some q => .next (transmit (if q.collecting then visitForward q s else visitBack q s))

end Sys2Proof.Machine
end

