-- ==== Sys2Proof/Machine/Status.lean ====
section
/-! DEFINITION. The groups of STATUS (R193): the fields of R9, R21, R37, R52, R57, R72, R79, R101, R126, R149, R169, R183,
R195 and R189 in the order their rules list them, encoded by R196 (log entries 16, 38 and 39). -/

namespace Sys2Proof.Machine

/-- A sequence of 32-bit counts. -/
def counts (cs : List Count) : Bytes := cs.flatMap be4

/-- A number of four bytes that may be absent. -/
def optNum (n : Option Nat) : Bytes := beOpt (n.map (be 4))

/-- LINK (R193, R195). No table lists the controller's states and the receiver's: NORMAL 0 and RESTARTING 1, HUNT 0 and
FRAME 1 (DESIGN CHOICE, log entry 38). REQUESTS-TAKEN counts the taking of this STATUS (DESIGN CHOICE, log entry 39). -/
def statusLink (s : State) : Bytes :=
  let h := s.host
  byte (if h.phase = .normal then 0 else 1) ::
    (match h.rx with
      | .hunt => 0
      | .frame _ _ => 1) ::
    (be 4 h.replies.length ++ be 4 h.notices.length ++ be 4 h.textPlace.toList.length ++
      counts [h.framesReceived, h.requestsTaken, h.discards, h.framingErrors, h.overruns, h.repliesSent, h.noticesSent,
        h.textSent, h.noticesDropped, h.sets])

/-- A key link's part of KEYS (R9). -/
def KeyLink.fields (l : KeyLink) : Bytes :=
  byte (linkCode l.link) :: counts [l.damagedReports, l.framingErrors, l.linkDowns]

/-- A stroke former's part of KEYS (R21). -/
def Former.fields (f : Former) : Bytes := counts [f.closed, f.discarded, f.heldCloses, f.damagedCloses]

/-- KEYS (R9, R21): both links, then both stroke formers (DESIGN CHOICE, log entry 16). -/
def statusKeys (s : State) : Bytes :=
  s.links.a.fields ++ s.links.b.fields ++ s.formers.a.fields ++ s.formers.b.fields

/-- A position's part of FLOOR (R37). -/
def PosRec.fields (r : PosRec) : Bytes :=
  byte (posStateCode r.state) :: be 4 r.queue.length ++ [beBool r.pending.isSome]

/-- FLOOR (R37): a count kept per position for A and then for B, then STATE, QUEUE length and PENDING of A, then those of B.
The time run on the floor-wait timer is a field that is absent while the timer is stopped (DESIGN CHOICE, log entry 16: R37
does not say what is returned then). -/
def statusFloor (s : State) : Bytes :=
  let f := s.floor
  counts [f.pos.a.strokesQueued, f.pos.b.strokesQueued, f.pos.a.relayDrops, f.pos.b.relayDrops, f.pos.a.overflowDrops,
      f.pos.b.overflowDrops, f.cleanPasses, f.forcedPasses, f.cancelledPasses, f.floorLosses] ++
    f.pos.a.fields ++ f.pos.b.fields ++ byte (floorCode f.state) :: optNum (f.waitFrom.map s.age)

/-- TIME (R52). The time run on the holdover timer is a field that is absent while the timer is stopped (DESIGN CHOICE,
log entry 16: R52 does not say what is returned then). -/
def statusTime (s : State) : Bytes :=
  let t := s.time
  counts [t.syncPulses, t.capturesReplaced, t.syncAccepted, t.syncLate, t.syncNoCapture, t.steps, t.rateUpdates,
      t.rateClamps, t.heldStamps, t.rebases] ++
    be4 t.now ++ be4 t.anchorAt ++ be 4 t.anchorCode ++ be 4 t.rate ++ be 4 t.lastStamp ++
    [beBool t.prevValid, byte (captureCode t.capture)] ++
    optNum (if t.capture = .current then some (s.age t.captureAt) else none) ++
    byte (syncCode t.sync) :: optNum (t.holdoverFrom.map s.age) ++ be 4 (min t.tcNow max32)

/-- A region's state and append point (R58), in this order (DESIGN CHOICE, log entry 16). -/
def Region.fields (r : Region) : Bytes := byte (regionCode r.state) :: optNum r.append

/-- The kind of an operation: PAGE-PROGRAM 0, BLOCK-ERASE 1 (DESIGN CHOICE, log entry 38). -/
def Running.kindByte (r : Running) : Bytes :=
  match r.op with
  | .program .. => [0]
  | .erase _ => [1]

/-- A buffer page: its state and its assigned page; FREE is 0, with no page (R73, R79). -/
def pageFields : Option BufPage → Bytes
  | none => 0 :: optNum none
  | some p => byte (pageCode p.state) :: optNum (some p.page)

/-- STORE (R57, R72, R79). Each of LOG, J, PA and PB gives its state and then its append point, not the four states and then
the four append points (DESIGN CHOICE, log entry 16: R57 says 'the region states and append points'). With no page OPEN the
number of records in the OPEN page is 0 (DESIGN CHOICE, log entry 16: R79 does not say what is returned then). -/
def statusStore (s : State) : Bytes :=
  let st := s.store
  let w := s.log
  byte (storeCode st.state) ::
    (beOpt (st.header.map (fun h => be 2 h.capacity ++ h.table)) ++ beOpt (st.timing.map Timing.bytes) ++
      st.log.fields ++ st.j.fields ++ st.pa.fields ++ st.pb.fields ++ beOpt (st.inProgress.map Running.kindByte) ++
      beOpt (st.suspended.map Running.kindByte) ++
      counts [st.reads, st.programs, st.erases, st.suspends, st.relocations, st.programFailures, st.eraseFailures,
        st.timeouts, st.tornRecords, st.tornPages] ++
      counts [w.unloggedCount, w.recordsRefused] ++ optNum st.log.append ++
      (List.range Config.bufferPages).flatMap (fun i => pageFields w.pages[i]?) ++
      be 4 ((w.openPage.map (fun p => p.records.length)).getD 0))

/-- A dictionary's part of DICTIONARY (R101). -/
def dictFields (s : State) (d : Dict) : Bytes :=
  byte (regionCode (s.store.region d).state) ::
    (be 4 (((s.dict.get d).directory.map Bucket.count).sum) ++ be 4 (s.dict.reservedBytes d) ++
      [beBool (s.dict.get d).stalled])

/-- The oldest staged operation: DICTIONARY, KIND (ADD 0, DELETE 1), PHASE (STAGED 0, DRAINING 1) (R101; the
codes of KIND and PHASE are a DESIGN CHOICE, log entry 38). -/
def StagedOp.fields (o : StagedOp) : Bytes :=
  [byte (dictCode o.dict), (if o.text.isSome then 0 else 1), beBool o.draining]

/-- DICTIONARY (R101). -/
def statusDict (s : State) : Bytes :=
  let x := s.dict
  counts [x.lookupsDone, x.recordsRead, x.chainErrors, x.addsStaged, x.deletesStaged, x.recordsProgrammed,
      x.prefixesWritten, x.opsDrained, x.roomStalls, x.stagedCleared] ++
    be 4 x.staging.length ++ beOpt (x.staging.head?.map StagedOp.fields) ++ dictFields s .j ++ dictFields s .pa ++
    dictFields s .pb

/-- A format state (paragraph 6.4). -/
def Fmt.fields (f : Fmt) : Bytes :=
  [beBool f.capNext, beBool f.lowerNext, beBool f.attachNext, beBool f.paraPending, byte f.speaker,
    byte (clsCode f.cls)]

/-- TRANSLATOR-STATE: AT-REST 0, HOLDING 1, IN-FLIGHT 2 (R102). -/
def Translator.stateCode (t : Translator) : Nat :=
  if t.inFlight.isSome then 2 else if t.hold.isEmpty then 0 else 1

/-- HOLD-POSITION (R102). -/
def Translator.holdPos (t : Translator) : Option Pos := t.hold.head?.map StrokeRec.pos

/-- TRANSLATOR (R126). The stroke values of the hold list are a list of varying length, with its count before them
(R196). The time run on the hold timer is a field that is absent while the timer is stopped (DESIGN CHOICE, log entry 16:
R117 and R126 do not say what is returned then). -/
def statusTranslator (s : State) : Bytes :=
  let t := s.trans
  counts [t.strokesTaken, t.lookupsAsked, t.recomputes, t.retractions, t.unitsCommitted, t.holdExpiries,
      t.forcedResolutions, t.undos, t.undosInHold, t.undosBlocked, t.numbers, t.untranslatesMade, t.badCommands,
      t.untranslatesDropped, t.notesInserted] ++
    byte t.stateCode :: be 4 t.hold.length ++ byte (optPosCode t.holdPos) ::
    (byte t.hold.length :: beStrokes (t.hold.map (fun x => x.keys.toNat))) ++
    optNum (t.timer.map (fun e => e / 1000)) ++ t.base.fields ++ t.after.fields ++ be 4 t.untranslates.length ++ be 4 t.notes.length

/-- The lock: FIRST, LAST and the time run on LOCK-TIMER (R149). -/
def lockFields (s : State) (l : EditLock) : Bytes := be 4 l.first ++ be 4 l.last ++ be 4 (s.age l.since)

/-- TRANSCRIPT (R149). The PHASE of a readback search is 0 for SEARCH and 1 for COLLECT (DESIGN CHOICE, log entry 38: no
table lists them). With no search the length of its LIST is 0 (DESIGN CHOICE, log entry 16: R149 gives 'none' for the PHASE
alone). -/
def statusTranscript (s : State) : Bytes :=
  let t := s.script
  counts [t.unitsCreated, t.unitsRetracted, t.unitsFirmed, t.unitsFreed, t.edits, t.unitsReclassified, t.locksGranted,
      t.lockTimeouts, t.locksBroken, t.readbacks] ++
    byte (sessionCode t.session) :: (optNum t.jobNumber ++ beOpt (t.sessionNumber.map (be 2)) ++ optNum t.epoch ++
      [byte (optPosCode t.startingPos)] ++ be 4 t.units.length ++ optNum (t.units.head?.map TUnit.number) ++
      optNum (t.units.getLast?.map TUnit.number) ++ be 4 t.nextNumber ++ be 4 (t.units.countP TUnit.isProvisional) ++
      be 4 t.committedCount ++ be 4 (t.units.countP (fun u => decide (u.state = .firm))) ++
      beOpt (t.lock.map (lockFields s)) ++ beOpt (t.search.map (fun q => [beBool q.collecting])) ++
      be 4 ((t.search.map (fun q => q.list.length)).getD 0))

/-- A feed's part of FEEDS (R169). -/
def feedFields (s : State) (i : FeedId) : Bytes :=
  let v := s.view i
  let f := s.feeds.feeds.get i
  [byte (feedStateCode f.state), byte (tierCode v.cfg.tier), byte v.cfg.mask.toNat] ++ be 4 f.cursor ++
    be 4 f.changes.length ++ be 4 f.shown.length ++ beOpt (f.lastShown.map (fun c => [byte (clsCode c)])) ++
    beOpt (f.gapOwed.map (fun g => [byte (clsCode g.1)])) ++ optNum f.repaintTail ++
    beOpt ((owedFrame v f).map (fun x => [x.1.code])) ++
    counts [f.addsSent, f.notesSent, f.gapsSent, f.repaints, f.laps, f.overflows, f.clears]

/-- FEEDS (R169). -/
def statusFeeds (s : State) : Bytes :=
  feedFields s .f0 ++ feedFields s .f1 ++ feedFields s .f2 ++ feedFields s .f3 ++ feedFields s .f4 ++ be 4 s.feeds.agedTo

/-- A port's part of PORTS (R183). The age of the oldest SENT frame is a field that is absent while no frame of WINDOW is
SENT (DESIGN CHOICE, log entry 16: R183 does not say what is returned then). -/
def portFields (s : State) (i : PortId) : Bytes :=
  let p := s.ports.get i
  byte (portStateCode p.state) :: be 4 p.nextSeq.toNat ++ be 4 p.window.length ++
    be 4 (p.window.countP (fun x => x.sentAt.isSome)) ++ optNum ((p.window.findSome? WinFrame.sentAt).map s.age) ++
    optNum (p.probeSeq.map BitVec.toNat) ++
    counts [p.framesSent, p.framesAcked, p.framesLost, p.strayAcks, p.badReplies, p.stalls, p.recoveries, p.probes,
      p.resyncs]

/-- A member of a grant list: the number of its feed, 5 for the LOW member. -/
def memberCode : Member → Byte
  | .feed i => byte (feedNum i)
  | .low => 5

/-- PORTS (R183). -/
def statusPorts (s : State) : Bytes :=
  portFields s .p1 ++ portFields s .p2 ++ portFields s .p3 ++ portFields s .p4 ++
    byte s.fmt.high.length :: s.fmt.high.map memberCode ++
    byte s.fmt.low.length :: s.fmt.low.map (fun i => byte (feedNum i)) ++
    counts [s.fmt.grants.f0, s.fmt.grants.f1, s.fmt.grants.f2, s.fmt.grants.f3, s.fmt.grants.f4]

/-- A condition's part of CONDITIONS (R193). -/
def CondEntry.fields (e : CondEntry) : Bytes := [beBool e.set, beBool e.cause, beBool e.reportOwed] ++ be4 e.raises

/-- CONDITIONS (R193). -/
def statusConds (s : State) : Bytes := condTable.flatMap (fun c => (s.conds.get c).fields)

/-- The fields of a group, 1 to 11 in the order of R193; none for a number outside them. -/
def statusGroup (n : Nat) (s : State) : Option Bytes :=
  match n with
  | 1 => some (statusLink s)
  | 2 => some (statusKeys s)
  | 3 => some (statusFloor s)
  | 4 => some (statusTime s)
  | 5 => some (statusStore s)
  | 6 => some (statusDict s)
  | 7 => some (statusTranslator s)
  | 8 => some (statusTranscript s)
  | 9 => some (statusFeeds s)
  | 10 => some (statusPorts s)
  | 11 => some (statusConds s)
  | _ => none

end Sys2Proof.Machine
end

