-- ==== Sys2Proof/Machine/Link.lean ====
section
/-! DEFINITION. The host link controller's commands (Section 10): the receiver, the transmitter, settings, conditions,
identity, status, RESTART and power-on. -/

namespace Sys2Proof.Machine

/-! ### The receiver (R184) -/

/-- What a character does to the receiver. -/
inductive RxEvent
  | going (rx : HostRx)
  | discarded
  | received
deriving DecidableEq, Repr

/-- The length field of a frame in progress (paragraph 11.3). -/
def frameLength (held : Bytes) : Nat := be2At held 1

/-- A complete frame passes its check (R184, R197). -/
def framePasses (held : Bytes) : Bool :=
  decide ((crc16 ((held.drop 1).take (frameLength held + 2))).toNat = be2At held (frameLength held + 3))

/-- The bytes of a frame in progress judged (R184): its length at the third byte, its check at the last. -/
def judgeFrame (t : LocalTime) (held : Bytes) : RxEvent :=
  if held.length < 3 then .going (.frame held t)
  else if frameLength held < 2 ∨ 1026 < frameLength held then .discarded
  else if held.length < frameLength held + 5 then .going (.frame held t)
  else if framePasses held then .received else .discarded

/-- A character acts on the receiver (R184). -/
def hostChar (t : LocalTime) (c : Byte) : HostRx → RxEvent
  | .hunt => if c = 0xC3#8 then .going (.frame [c] t) else .going .hunt
  | .frame held _ => judgeFrame t (held ++ [c])

/-- Characters one after another: the receiver and the frames discarded, or none when a frame is received, which is a
request and a command of its own. -/
def hostChars (t : LocalTime) : Bytes → HostRx → Nat → Option (HostRx × Nat)
  | [], rx, n => some (rx, n)
  | c :: cs, rx, n =>
    match hostChar t c rx with
    | .going rx => hostChars t cs rx n
    | .discarded => hostChars t cs .hunt (n + 1)
    | .received => none

/-- A frame in progress. -/
def HostRx.busy : HostRx → Bool
  | .hunt => false
  | .frame .. => true

/-- The receiver and DISCARDS after characters. -/
def HostLink.heard (r : HostRx × Nat) (h : HostLink) : HostLink :=
  { h with rx := r.1, discards := h.discards + BitVec.ofNat 32 r.2 }

/-- A frame in progress, if any, is discarded (R184). -/
def HostLink.discard (h : HostLink) : HostLink :=
  if h.rx.busy then { h with rx := .hunt, discards := h.discards + 1 } else h

/-- FRAME_DISCARDED (R184). -/
def execFrameDiscarded (chars : Bytes) (s : State) : Host.Outcome State Fault Refusal :=
  match hostChars s.time.now chars s.host.rx 0 with
  | none => .next s
  | some r => .next (s.onHost (HostLink.heard r))

/-- HOST_FRAMING_ERROR (R184). -/
def execHostFramingError (chars : Bytes) (s : State) : Host.Outcome State Fault Refusal :=
  match hostChars s.time.now chars s.host.rx 0 with
  | none => .next s
  | some r =>
    .next (s.onHost (fun h => { (h.heard r).discard with framingErrors := h.framingErrors + 1 }))

/-- HOST_GAP_TIMEOUT (R184): more than 2 ms pass after the last byte of a frame in progress. -/
def execHostGapTimeout (chars : Bytes) (s : State) : Host.Outcome State Fault Refusal :=
  match hostChars s.time.now chars s.host.rx 0 with
  | none => .next s
  | some r =>
    let s := s.onHost (HostLink.heard r)
    match r.1 with
    | .hunt => .next s
    | .frame _ t => .next ((s.runTo t (Config.hostGap + 1)).onHost HostLink.discard)

/-- BAD_KIND (R185 test 1). A frame with a request kind is that request's command. -/
def execBadKind (tag : Byte) (kind : Byte) (_payload : Bytes) (s : State) : Host.Outcome State Fault Refusal :=
  if isRequestKind kind then .next s
  else .next (transmit (takeRequest tag true true (fun s => (s, .refused .badKind)) noAfter s))

/-! ### RESTART (R194) -/

/-- The rule of RESTART: DONE, and the controller is RESTARTING (R194). -/
def restartRule (s : State) : State × Result := (s.onHost (fun h => { h with phase := .restarting }), .done [])

/-- RESTART is taken by the blocks when its DONE has been sent (R194). -/
def afterRestart : Result → AfterSent
  | .done _ => .restart
  | _ => .nothing

/-- RESTART (R194). -/
def execRestart (tag : Byte) (payload : Bytes) (s : State) : Host.Outcome State Fault Refusal :=
  .next (finishStep (takeRequest tag (lenIs 0 payload) false restartRule afterRestart s))

/-- Both stroke formers abandon an open stroke without counting it (R21). -/
def abandonOpen (s : State) : State :=
  (s.onFormer .a (fun f => { f with openStroke := none })).onFormer .b (fun f => { f with openStroke := none })

/-- The translator abandons its in-flight stroke, resolves and discards the note queue (R125). -/
def restartTranslator (s : State) : State :=
  let s := s.onTrans (fun t => { t with inFlight := none, expiryPending := false, resolvePending := false, notes := [] })
  resolveHold s

/-- A region being erased is left BLANK-NEEDED (R72 step 4). -/
def Region.abandonErase (r : Region) : Region := if r.state = .erasing then .blank else r

/-- An operation under way at RESTART is allowed to end, by R65 to R67 like any other (R72 steps 3 and 4): a record is
not entered (R101), and nothing follows an erase or a ready-page program, because the erase continuation is abandoned. An
operation that a format waited for is waited for by RESTART instead, so R69 excuses it no longer (log entry 35). -/
def Running.atRestart (formatting : Bool) (r : Running) : Running :=
  if formatting && decide (r.work = .abandoned) then { r with work := .job } else r.discardIf (fun _ => true)

/-- The retry that RESTART lets go on: a log page (R72 step 2). -/
def keepLogRetry : Option FailedWork → Option FailedWork
  | some (.logPage x) => some (.logPage x)
  | _ => none

/-- The store at the taking of RESTART (R72): reads, dictionary programs and erase continuation are abandoned. A region being
erased is BLANK-NEEDED from this moment on (DEDUCED, log entry 40: R72 lists it with step 4). -/
def Store.restart (st : Store) : Store :=
  { st with waiting := [], reading := st.reading.map (fun _ => .dropped), logRead := none, dictWork := [], job := none,
            inProgress := st.inProgress.map (Running.atRestart (decide (st.state = .formatting))),
            suspended := st.suspended.map (Running.atRestart (decide (st.state = .formatting))),
            recovering := keepLogRetry st.recovering, mount := .idle, formatTag := none, eraseTag := none,
            recoverTag := if (keepLogRetry st.recovering).isSome then st.recoverTag else none,
            log := st.log.abandonErase, j := st.j.abandonErase, pa := st.pa.abandonErase, pb := st.pb.abandonErase }

/-- The store controller and the dictionary block at the taking of RESTART (R72, R87, R101). -/
def restartStore (s : State) : State := (endLookupsOf (fun _ => true) s).onStore Store.restart

/-- The transcript manager at the taking of RESTART (R138). -/
def restartScript (s : State) : State :=
  let s := s.onScript (fun t => { t with search := none, lock := none, closeTag := none })
  match s.script.session with
  | .closed => beginFlush .restart s
  | .opened => reportResolved (restartTranslator (beginClosing none s))
  | .closing =>
    if s.script.resolved then s.onLog (fun w => { w with flush := .restart })
    else reportResolved (restartTranslator s)

/-- RESTART is passed to every block (R194). -/
def takeRestart (s : State) : State :=
  restartStore (restartScript (abandonOpen (s.onHost (fun h => { h with phase := .windingDown }))))

/-! ### The transmitter (R187) -/

/-- What the end of a reply brings about (R187, R194). -/
def replySent (a : AfterSent) (s : State) : State :=
  match a with
  | .nothing => s
  | .rate baud => s.onHost (fun h => { h with rate := baud })
  | .restart => takeRestart s

/-- The last byte of the frame under way leaves the line (R187). -/
def frameSentHost (f : TxFrame) (s : State) : State :=
  let s := s.onHost (fun h => { h with sending := none })
  match f with
  | .reply r => replySent r.after (s.onHost (fun h => { h with repliesSent := h.repliesSent + 1 }))
  | .notice _ => s.onHost (fun h => { h with noticesSent := h.noticesSent + 1 })
  | .text _ => s.onHost (fun h => { h with textPlace := none, textSent := h.textSent + 1 })

/-- HOST_FRAME_SENT (R187). While no frame is being sent none ends. -/
def execHostFrameSent (s : State) : Host.Outcome State Fault Refusal :=
  match s.host.sending with
  | none => .next s
  | some f => .next (finishStep (frameSentHost f s))

/-! ### Conditions (R190) -/

/-- CLEAR-CONDITION, the owning rule (R190). -/
def clearRule (p : Bytes) (s : State) : State × Result :=
  match condOfCode (byteAt p 0) with
  | none => (s, .refused .badValue)
  | some c =>
    if (s.conds.get c).cause then (s, .refused .stillActive)
    else (s.onCond c (fun e => { e with set := false, reportOwed := false }), .done [])

/-- CLEAR_CONDITION (R190). -/
def execClearCondition (tag : Byte) (payload : Bytes) (s : State) : Host.Outcome State Fault Refusal :=
  .next (transmit (takeRequest tag (lenIs 1 payload) false (clearRule payload) noAfter s))

/-! ### Settings (R191) -/

/-- A stroke that has reached the new stroke-limit closes HELD (R15). -/
def closeDue (p : Pos) (s : State) : State := if strokeDue p s then closeHeld p s else s

/-- The enabling of a feed and its port (R165, R174). -/
def enableFeed (i : FeedId) (s : State) : State :=
  let s := s.onFeed i (feedEnable (s.view i))
  match feedPort i with
  | none => s
  | some p => s.onPort p Port.enable

/-- The disabling of a feed and its port (R165, R174, R182). -/
def disableFeed (i : FeedId) (s : State) : State :=
  let s := s.onFeed i feedDisable
  match feedPort i with
  | none => s
  | some p => setCause (.feedStalled p) false (s.onPort p Port.disable)

/-- A change of feed-n-rate: at once for an OFF port, otherwise when its line is next free (R175). -/
def rateChanged (p : PortId) (s : State) : State :=
  if (s.ports.get p).state = .off then s.onPort p (fun x => { x with rate := (s.settings.feed.get (portFeed p)).rate })
  else portKick p s

/-- What the blocks do when a setting has changed, in the step that puts the value in force (R191). A new stroke-limit
that the open strokes of A and B have both reached closes A's first, which takes the lower number (DESIGN CHOICE, log
entry 37: R19 leaves the order open). -/
def settingEffect (x : Setting) (s : State) : State :=
  match x with
  | .holdTime => if holdDue s then holdExpire s else s
  | .undoDepth => firmByCount s
  | .firmTime => firmByTime s
  | .strokeLimit => closeDue .b (closeDue .a s)
  | .floorWait => if floorWaitDue s then forceByWait s else s
  | .takeOutline _ => s
  | .lockTimeout => if lockDue s then timeoutLock s else s
  | .logAge => if logAgeDue s then s.onLog LogWriter.closePage else s
  | .capAfterParagraph => s
  | .strokeEcho => s
  | .hostRate => s
  | .feedEnable i => if (s.settings.feed.get i).enable then enableFeed i s else disableFeed i s
  | .tier p => s.onFeed (portFeed p) (feedReview (s.view (portFeed p)))
  | .mask p => s.onFeed (portFeed p) (feedReview (s.view (portFeed p)))
  | .delay p => settleFeed (portFeed p) s
  | .depth _ => s
  | .ackTimeout p => if ackOverdue s p then portStall p s else s
  | .rate p => rateChanged p s
  | .group i => s.onFmt (Formatter.regroup i (s.settings.feed.get i).high)

/-- SET of an accepted value (R191): counted; the value it already has starts no effect. -/
def takeSet (x : Setting) (v : Nat) (s : State) : State :=
  let s := s.onHost (fun h => { h with sets := h.sets + 1 })
  if x.value s.settings = v then s else settingEffect x (s.onSettings (x.put v))

/-- SET, the owning rule (R191). DONE carries a feed-n-rate that waits for the line of its port (R175) as the value in
force (DESIGN CHOICE, log entry 44). -/
def setRule (p : Bytes) (s : State) : State × Result :=
  match settingOf (byteAt p 0) (byteAt p 1) with
  | none => (s, .refused .badValue)
  | some x =>
    match x.accept (be4At p 2) with
    | none => (s, .refused .badValue)
    | some v => (takeSet x v s, .done (be 4 v))

/-- The end of the reply to SET host-rate changes the line rate (R187). -/
def afterSet (p : Bytes) : Result → AfterSent
  | .done data => if settingOf (byteAt p 0) (byteAt p 1) = some .hostRate then .rate (be4At data 0) else .nothing
  | _ => .nothing

/-- SET (R191). -/
def execSetSetting (tag : Byte) (payload : Bytes) (s : State) : Host.Outcome State Fault Refusal :=
  .next (finishStep (takeRequest tag (lenIs 6 payload) false (setRule payload) (afterSet payload) s))

/-- GET, the owning rule (R191). A feed-n-rate that waits for the line of its port (R175) is answered with the new value
(DESIGN CHOICE, log entry 44). -/
def getRule (p : Bytes) (s : State) : State × Result :=
  match settingOf (byteAt p 0) (byteAt p 1) with
  | none => (s, .refused .badValue)
  | some x => (s, .done (be 4 (x.value s.settings)))

/-- GET (R191). -/
def execGetSetting (tag : Byte) (payload : Bytes) (s : State) : Host.Outcome State Fault Refusal :=
  .next (transmit (takeRequest tag (lenIs 2 payload) true (getRule payload) noAfter s))

/-! ### Identity and status (R192, R193) -/

/-- The capacities in the order of the table of paragraph 0.7 (R192). -/
def capacities : List Nat :=
  [2, 64, 8, 8, 2048, 48, 16, 64, 4, 32, 16, 3, 4096, 64, 32, 5, 16, 4, 200, 8, 16, 16, 256, 256, 256, 4096, 32, 1024,
   256, 64]

/-- The fields of IDENTIFY: vendor code 5742h, part number 2300, revision letter A, capacities (R192). -/
def identity : Bytes := be 2 0x5742 ++ be 2 2300 ++ [0x41#8] ++ capacities.flatMap (be 2)

/-- IDENTIFY (R192). -/
def execIdentify (tag : Byte) (payload : Bytes) (s : State) : Host.Outcome State Fault Refusal :=
  .next (transmit (takeRequest tag (lenIs 0 payload) true (fun s => (s, .done identity)) noAfter s))

/-- STATUS, the owning rule (R193). -/
def statusRule (p : Bytes) (s : State) : State × Result :=
  match statusGroup (byteAt p 0) s with
  | none => (s, .refused .badValue)
  | some data => (s, .done data)

/-- STATUS (R193). -/
def execStatus (tag : Byte) (payload : Bytes) (s : State) : Host.Outcome State Fault Refusal :=
  .next (transmit (takeRequest tag (lenIs 1 payload) true (statusRule payload) noAfter s))

/-! ### Power-on (R195) -/

/-- POWER_ON (R195). -/
def execPowerOn (s : State) : Host.Outcome State Fault Refusal := .next s.powerOn

end Sys2Proof.Machine
end

