-- ==== Sys2Proof/Machine/NoteStore.lean ====
section
/-! DEFINITION. The commands of the note store and the dictionaries (Sections 4 and 5). -/

namespace Sys2Proof.Machine

/-! ### Events of the note memory -/

/-- The operations a power-on left unfinished settle their spans (log entry 5). -/
def settleOrphans (ops : List FlashOp) (left : List Host.Cell) (m : List Host.Cell) : List Host.Cell :=
  ops.foldl (fun m op => op.leave m left) m

/-- MEMORY_READY (R57, R59). In another store state the memory is not asked. -/
def execMemoryReady (left : List Host.Cell) (s : State) : Host.Outcome State Fault Refusal :=
  if s.store.state = .unmounted then
    .next (finishStep (beginMount
      (s.onFlash (fun f => { f with cells := settleOrphans f.orphans left f.cells, orphans := [] }))))
  else .next s

/-- READ_COMPLETE (R62). While no read is being made none ends. -/
def execReadComplete (s : State) : Host.Outcome State Fault Refusal :=
  match s.store.reading with
  | none => .next s
  | some r => .next (finishStep (readEnded r s))

/-- The operation in progress is suspended (R63 step 3). -/
def Store.suspend (st : Store) : Store :=
  { st with suspended := st.inProgress, inProgress := none, suspends := st.suspends + 1 }

/-- What STATUS-READ shows after suspend-latency (R63 steps 2 and 3). -/
def suspendTook (status : FlashStatus) (s : State) : State :=
  let s := s.onStore (fun st => { st with suspendAt := none })
  match status, s.store.inProgress with
  | _, none => s
  | .busy, some _ => s.onStore Store.suspend
  | .ended error left, some r => opEnded r error left s

/-- SUSPEND_LATENCY_EXPIRY (R63). While no SUSPEND has been issued there is no latency. -/
def execSuspendLatencyExpiry (status : FlashStatus) (s : State) : Host.Outcome State Fault Refusal :=
  match s.store.suspendAt with
  | none => .next s
  | some t =>
    .next (finishStep (suspendTook status (s.runTo t ((s.store.timing.map Timing.suspendLatency).getD 0))))

/-- RESUME_INTERVAL_EXPIRY (R63). Before the first RESUME, or once the interval has passed, nothing expires. -/
def execResumeIntervalExpiry (s : State) : Host.Outcome State Fault Refusal :=
  match s.store.sinceResume with
  | none => .next s
  | some e => .next (finishStep (s.advance ((s.store.timing.map Timing.resumeInterval).getD 0 - e)))

/-- PAGE_PROGRAM_END (R65). While no program is in progress none ends. -/
def execPageProgramEnd (error : Bool) (left : List Host.Cell) (s : State) : Host.Outcome State Fault Refusal :=
  match s.store.inProgress with
  | some ⟨.program addr data, w, ran, out⟩ =>
    .next (finishStep (opEnded ⟨.program addr data, w, ran, out⟩ error left s))
  | _ => .next s

/-- BLOCK_ERASE_END (R65). While no erase is in progress none ends. -/
def execBlockEraseEnd (error : Bool) (left : List Host.Cell) (s : State) : Host.Outcome State Fault Refusal :=
  match s.store.inProgress with
  | some ⟨.erase b, w, ran, out⟩ => .next (finishStep (opEnded ⟨.erase b, w, ran, out⟩ error left s))
  | _ => .next s

/-- OPERATION_TIMEOUT (R65): the operation in progress has run for longer than its limit, still BUSY. -/
def execOperationTimeout (s : State) : Host.Outcome State Fault Refusal :=
  match s.store.inProgress with
  | some ⟨op, _, ran, false⟩ =>
    .next (finishStep ((runOpTo (runLimit s op + 1) ran s).onStore (timeoutOp op)))
  | _ => .next s

/-- TIMEOUT_STILL_BUSY (R65): the same limit has passed again since the failure was counted. -/
def execTimeoutStillBusy (s : State) : Host.Outcome State Fault Refusal :=
  match s.store.inProgress with
  | some ⟨op, w, ran, true⟩ => .next (finishStep (stillBusy ⟨op, w, ran, true⟩ (runOpTo (runLimit s op) ran s)))
  | _ => .next s

/-- LOG_AGE_EXPIRY (R75). While no page is OPEN there is no expiry. -/
def execLogAgeExpiry (s : State) : Host.Outcome State Fault Refusal :=
  match s.log.openPage with
  | none => .next s
  | some p => .next (finishStep ((s.runTo p.since (s.settings.logAge * 1000)).onLog LogWriter.closePage))

/-! ### Requests of the note store -/

/-- STORE_RECOVER (R68). -/
def execStoreRecover (tag : Byte) (payload : Bytes) (s : State) : Host.Outcome State Fault Refusal :=
  .next (finishStep (takeRequest tag (lenIs 0 payload) false (storeRecoverRule tag) noAfter s))

/-- FORMAT_STORE (R69). -/
def execFormatStore (tag : Byte) (payload : Bytes) (s : State) : Host.Outcome State Fault Refusal :=
  .next (finishStep (takeRequest tag (lenIs 18 payload) false (formatRule tag payload) noAfter s))

/-- ERASE_REGION (R71). -/
def execEraseRegion (tag : Byte) (payload : Bytes) (s : State) : Host.Outcome State Fault Refusal :=
  .next (finishStep (takeRequest tag (lenIs 1 payload) false (eraseRule tag payload) noAfter s))

/-- LOG_READ (R77). -/
def execLogRead (tag : Byte) (payload : Bytes) (s : State) : Host.Outcome State Fault Refusal :=
  .next (finishStep (takeRequest tag (lenIs 5 payload) false (logReadRule tag payload) noAfter s))

/-- LOG_FLUSH (R78). -/
def execLogFlush (tag : Byte) (payload : Bytes) (s : State) : Host.Outcome State Fault Refusal :=
  .next (finishStep (takeRequest tag (lenIs 0 payload) false (logFlushRule tag) noAfter s))

/-! ### Requests of the dictionary block -/

/-- ENTRY_LOOKUP (R88). -/
def execEntryLookup (tag : Byte) (payload : Bytes) (s : State) : Host.Outcome State Fault Refusal :=
  .next (finishStep (takeRequest tag (lenOutline payload) false (entryLookupRule tag payload) noAfter s))

/-- ENTRY_ADD (R91). -/
def execEntryAdd (tag : Byte) (payload : Bytes) (s : State) : Host.Outcome State Fault Refusal :=
  .next (finishStep (takeRequest tag (lenEntryAdd payload) false (entryAddRule payload) noAfter s))

/-- ENTRY_DELETE (R92). -/
def execEntryDelete (tag : Byte) (payload : Bytes) (s : State) : Host.Outcome State Fault Refusal :=
  .next (finishStep (takeRequest tag (lenOutline payload) false (entryDeleteRule payload) noAfter s))

end Sys2Proof.Machine
end

