-- ==== Sys2Proof/Machine/Translation.lean ====
section
/-! DEFINITION. The take of a stroke (R103, R104) and the commands of the translator (Section 6). -/

namespace Sys2Proof.Machine

/-- The stroke values of a run of a work list: `len` strokes from place `i`. -/
def runOutline (work : List StrokeRec) (i len : Nat) : List Nat :=
  ((work.drop i).take len).map (fun x => x.keys.toNat)

/-- The runs of a work list of `k` strokes, as first and last places (R104). -/
def runsOf (k : Nat) : List (Nat × Nat) :=
  (List.range k).flatMap (fun i => ((List.range k).filter (fun j => decide (i ≤ j))).map (fun j => (i, j)))

/-- The two lookups of a run: in J, then in the personal dictionary of the taken stroke's position (R104). -/
def beginRunLookups (work : List StrokeRec) (p : Pos) (s : State) (r : Nat × Nat) : State :=
  let o := runOutline work r.1 (r.2 + 1 - r.1)
  beginRun r.1 r.2 (personal p) o (beginRun r.1 r.2 .j o s)

/-- The lookups of every run, all begun in the step of the take (R104). -/
def beginLookups (work : List StrokeRec) (p : Pos) (s : State) : State :=
  (runsOf work.length).foldl (beginRunLookups work p) s

/-- The work list of a taken stroke (R103 step 4). -/
def workList (hold : List StrokeRec) (x : StrokeRec) : List StrokeRec :=
  if x.keys = undoValue then hold.dropLast else hold ++ [x]

/-- The stroke becomes IN-FLIGHT and the hold timer restarts (R103 steps 2 and 3). -/
def Translator.take (x : StrokeRec) (t : Translator) : Translator :=
  { t with inFlight := some { stroke := x, work := workList t.hold x, results := [] }, timer := some 0,
           strokesTaken := t.strokesTaken + 1 }

/-- The end of an undo carried out at its take: the stroke is finished, the timer stops (R103 step 4, R105, R120). -/
def Translator.undone (t : Translator) : Translator := { t with inFlight := none, timer := none }

/-- The translator takes a stroke that the floor controller hands over (R103 steps 2 to 5). -/
def takeStroke (x : StrokeRec) (s : State) : State :=
  let hold := s.trans.hold
  let s := s.onTrans (Translator.take x)
  if decide (x.keys = undoValue) && hold.isEmpty then reportFinish ((undoAtTake x s).onTrans Translator.undone)
  else finishIfDone (beginLookups (workList hold x) x.pos s)

/-- The front stroke of the LIVE position's QUEUE, when the translator may take it: the session OPEN and no stroke in
flight (R103). -/
def nextStroke (s : State) : Option StrokeRec :=
  if s.sessionOpen && s.trans.inFlight.isNone then
    match s.floor.live with
    | none => none
    | some p => (s.posRec p).queue.head?
  else none

/-- STROKE_TAKE (R103): notes queued at an AT-REST translator are inserted first. While no stroke can be taken there is
no take. -/
def execStrokeTake (s : State) : Host.Outcome State Fault Refusal :=
  match nextStroke s with
  | none => .next s
  | some x => .next (finishStep (takeStroke x ((insertNotes s).onPos x.pos PosRec.takeFront)))

/-- HOLD_TIMER_EXPIRY (R117). While the timer is stopped, or hold-time is 0, or its time has stopped short of it, there
is no expiry. -/
def execHoldTimerExpiry (s : State) : Host.Outcome State Fault Refusal :=
  match s.trans.timer with
  | none => .next s
  | some e =>
    if s.settings.holdTime = 0 then .next s
    else
      let s := if e < s.settings.holdTime * 1000 then s.advance (s.settings.holdTime * 1000 - e) else s
      .next (finishStep (holdExpire s))

/-- INSERT_NOTE (R123). -/
def execInsertNote (tag : Byte) (payload : Bytes) (s : State) : Host.Outcome State Fault Refusal :=
  .next (finishStep (takeRequest tag (lenText1 payload) false (insertNoteRule tag payload) noAfter s))

end Sys2Proof.Machine
end

