-- ==== Sys2Proof/Machine/Dispatch.lean ====
section
/-! DEFINITION. One arm per command, each a direct call of its meaning. -/

namespace Sys2Proof.Machine

-- The meaning of a command: its effect on everything but the queue.
def exec (i : Instr) (s : State) : Host.Outcome State Fault Refusal :=
  match i with
  | .powerOn => Sys2Proof.Machine.execPowerOn s
  | .keyReport link chars => Sys2Proof.Machine.execKeyReport link chars s
  | .erroredByte link => Sys2Proof.Machine.execErroredByte link s
  | .breakDetected link => Sys2Proof.Machine.execBreak link s
  | .silenceIntervalExpiry link => Sys2Proof.Machine.execSilenceIntervalExpiry link s
  | .strokeLimitExpiry pos => Sys2Proof.Machine.execStrokeLimitExpiry pos s
  | .writerEnable tag payload => Sys2Proof.Machine.execWriterEnable tag payload s
  | .handover tag payload => Sys2Proof.Machine.execHandover tag payload s
  | .floorWaitExpiry => Sys2Proof.Machine.execFloorWaitExpiry s
  | .syncPulse => Sys2Proof.Machine.execSyncPulse s
  | .captureExpiry => Sys2Proof.Machine.execCaptureExpiry s
  | .syncMark tag payload => Sys2Proof.Machine.execSyncMark tag payload s
  | .rebase => Sys2Proof.Machine.execRebase s
  | .previousSyncExpiry => Sys2Proof.Machine.execPreviousSyncExpiry s
  | .holdoverExpiry => Sys2Proof.Machine.execHoldoverExpiry s
  | .memoryReady left => Sys2Proof.Machine.execMemoryReady left s
  | .readComplete => Sys2Proof.Machine.execReadComplete s
  | .suspendLatencyExpiry status => Sys2Proof.Machine.execSuspendLatencyExpiry status s
  | .resumeIntervalExpiry => Sys2Proof.Machine.execResumeIntervalExpiry s
  | .pageProgramEnd error left => Sys2Proof.Machine.execPageProgramEnd error left s
  | .blockEraseEnd error left => Sys2Proof.Machine.execBlockEraseEnd error left s
  | .operationTimeout => Sys2Proof.Machine.execOperationTimeout s
  | .timeoutStillBusy => Sys2Proof.Machine.execTimeoutStillBusy s
  | .storeRecover tag payload => Sys2Proof.Machine.execStoreRecover tag payload s
  | .formatStore tag payload => Sys2Proof.Machine.execFormatStore tag payload s
  | .eraseRegion tag payload => Sys2Proof.Machine.execEraseRegion tag payload s
  | .logAgeExpiry => Sys2Proof.Machine.execLogAgeExpiry s
  | .logRead tag payload => Sys2Proof.Machine.execLogRead tag payload s
  | .logFlush tag payload => Sys2Proof.Machine.execLogFlush tag payload s
  | .entryLookup tag payload => Sys2Proof.Machine.execEntryLookup tag payload s
  | .entryAdd tag payload => Sys2Proof.Machine.execEntryAdd tag payload s
  | .entryDelete tag payload => Sys2Proof.Machine.execEntryDelete tag payload s
  | .strokeTake => Sys2Proof.Machine.execStrokeTake s
  | .holdTimerExpiry => Sys2Proof.Machine.execHoldTimerExpiry s
  | .defineSpeaker tag payload => Sys2Proof.Machine.execDefineSpeaker tag payload s
  | .insertNote tag payload => Sys2Proof.Machine.execInsertNote tag payload s
  | .firmTimeExpiry => Sys2Proof.Machine.execFirmTimeExpiry s
  | .openSession tag payload => Sys2Proof.Machine.execOpenSession tag payload s
  | .closeSession tag payload => Sys2Proof.Machine.execCloseSession tag payload s
  | .lock tag payload => Sys2Proof.Machine.execLock tag payload s
  | .unlock tag payload => Sys2Proof.Machine.execUnlock tag payload s
  | .lockTimeout => Sys2Proof.Machine.execLockTimeout s
  | .editUnit tag payload => Sys2Proof.Machine.execEditUnit tag payload s
  | .reclassify tag payload => Sys2Proof.Machine.execReclassify tag payload s
  | .readback tag payload => Sys2Proof.Machine.execReadback tag payload s
  | .readbackVisit => Sys2Proof.Machine.execReadbackVisit s
  | .releaseTimerExpiry feed => Sys2Proof.Machine.execReleaseTimerExpiry feed s
  | .agedToExpiry => Sys2Proof.Machine.execAgedToExpiry s
  | .feedRepaint tag payload => Sys2Proof.Machine.execFeedRepaint tag payload s
  | .grant => Sys2Proof.Machine.execGrant s
  | .frameSent port => Sys2Proof.Machine.execFrameSent port s
  | .ack port seq => Sys2Proof.Machine.execAck port seq s
  | .resync port seq => Sys2Proof.Machine.execResync port seq s
  | .malformedReply port chars errored => Sys2Proof.Machine.execMalformedReply port chars errored s
  | .replyGapTimeout port chars => Sys2Proof.Machine.execReplyGapTimeout port chars s
  | .ackTimeout port => Sys2Proof.Machine.execAckTimeout port s
  | .probeTimerExpiry port => Sys2Proof.Machine.execProbeTimerExpiry port s
  | .hostFramingError chars => Sys2Proof.Machine.execHostFramingError chars s
  | .hostGapTimeout chars => Sys2Proof.Machine.execHostGapTimeout chars s
  | .frameDiscarded chars => Sys2Proof.Machine.execFrameDiscarded chars s
  | .badKind tag kind payload => Sys2Proof.Machine.execBadKind tag kind payload s
  | .hostFrameSent => Sys2Proof.Machine.execHostFrameSent s
  | .clearCondition tag payload => Sys2Proof.Machine.execClearCondition tag payload s
  | .setSetting tag payload => Sys2Proof.Machine.execSetSetting tag payload s
  | .getSetting tag payload => Sys2Proof.Machine.execGetSetting tag payload s
  | .identify tag payload => Sys2Proof.Machine.execIdentify tag payload s
  | .status tag payload => Sys2Proof.Machine.execStatus tag payload s
  | .restart tag payload => Sys2Proof.Machine.execRestart tag payload s
  | .breakEnd link => Sys2Proof.Machine.execBreakEnd link s
  | .leadByte link char => Sys2Proof.Machine.execLeadByte link char s

end Sys2Proof.Machine
end

