-- ==== Sys2Proof/Safety.lean ====
section
/-! DEFINITION. The terms the statements are written in: the requests and their lengths, what a taken request does to the
host link, what the end of a step starts, and the forms the state keeps. -/

namespace Sys2Proof.Machine

/-! ### Requests -/

/-- The command of a request kind (paragraph 11.4); none for a kind that is no request kind. -/
def requestOf (kind : Nat) (tag : Byte) (payload : Bytes) : Option Instr :=
  match kind with
  | 0x01 => some (.identify tag payload)
  | 0x02 => some (.setSetting tag payload)
  | 0x03 => some (.getSetting tag payload)
  | 0x04 => some (.status tag payload)
  | 0x05 => some (.clearCondition tag payload)
  | 0x06 => some (.restart tag payload)
  | 0x07 => some (.openSession tag payload)
  | 0x08 => some (.closeSession tag payload)
  | 0x09 => some (.writerEnable tag payload)
  | 0x0A => some (.handover tag payload)
  | 0x0B => some (.syncMark tag payload)
  | 0x0C => some (.defineSpeaker tag payload)
  | 0x0D => some (.entryAdd tag payload)
  | 0x0E => some (.entryDelete tag payload)
  | 0x0F => some (.entryLookup tag payload)
  | 0x10 => some (.eraseRegion tag payload)
  | 0x11 => some (.formatStore tag payload)
  | 0x12 => some (.storeRecover tag payload)
  | 0x13 => some (.logRead tag payload)
  | 0x14 => some (.logFlush tag payload)
  | 0x15 => some (.insertNote tag payload)
  | 0x16 => some (.lock tag payload)
  | 0x17 => some (.unlock tag payload)
  | 0x18 => some (.editUnit tag payload)
  | 0x19 => some (.reclassify tag payload)
  | 0x1A => some (.readback tag payload)
  | 0x1B => some (.feedRepaint tag payload)
  | _ => none

/-- The payload length R198 gives a request kind. -/
def requestLength (kind : Nat) (payload : Bytes) : Nat :=
  match kind with
  | 0x02 => 6
  | 0x03 => 2
  | 0x04 => 1
  | 0x05 => 1
  | 0x07 => 11
  | 0x09 => 2
  | 0x0A => 1
  | 0x0B => 4
  | 0x0C => 2 + byteAt payload 1
  | 0x0D => 4 + 3 * byteAt payload 2 + byteAt payload 3
  | 0x0E => 2 + 3 * byteAt payload 1
  | 0x0F => 2 + 3 * byteAt payload 1
  | 0x10 => 1
  | 0x11 => 18
  | 0x13 => 5
  | 0x15 => 2 + byteAt payload 1
  | 0x16 => 8
  | 0x18 => 6 + byteAt payload 5
  | 0x19 => 9
  | 0x1A => 7 + byteAt payload 6
  | 0x1B => 1
  | _ => 0

/-- IDENTIFY, GET and STATUS, which are answered while the part is restarting (R185 test 3). -/
def alwaysAnswered (kind : Nat) : Bool := decide (kind = 0x01 ∨ kind = 0x03 ∨ kind = 0x04)

/-- The requests whose owning block is the store controller, the dictionary block, or a block that may give these or the
log writer work: their step ends with what the store takes up. -/
def movesStore (kind : Nat) : Bool :=
  decide (kind = 0x02 ∨ (0x06 ≤ kind ∧ kind ≤ 0x0A) ∨ (0x0D ≤ kind ∧ kind ≤ 0x15))

/-- A request can be taken: the controller is NORMAL and the reply queue has a free place (R185, R194). -/
abbrev State.accepts (s : State) : Prop := s.host.phase = .normal ∧ s.host.replies.length < 16

/-- No RESTART is being carried out, and the log writer owes no report of a flush (R75, R194). -/
abbrev State.calm (s : State) : Prop := s.host.phase = .normal ∧ s.log.flush = .none

/-- The host link after a request has been taken and answered with a result (R184 to R187): the receiver hunts, the
frame and the request are counted, and the reply goes to the end of the reply queue, of which a free line takes the
oldest. -/
def HostLink.answer (tag : Byte) (r : Result) (after : AfterSent) (h : HostLink) : HostLink :=
  let replies := h.replies ++ [{ tag := tag, result := r, after := after }]
  let h := { h with rx := .hunt, framesReceived := h.framesReceived + 1, requestsTaken := h.requestsTaken + 1 }
  match h.sending with
  | some _ => { h with replies := replies }
  | none => { h with replies := replies.drop 1, sending := replies.head?.map .reply }

/-- The state in which the owning rule of a taken request runs: the frame and the request are counted. -/
def State.counted (s : State) : State :=
  s.onHost (fun h => { h with
    rx := .hunt, framesReceived := h.framesReceived + 1, requestsTaken := h.requestsTaken + 1 })

/-- A state whose host link has taken and answered a request. -/
def State.reply (s : State) (tag : Byte) (r : Result) : State := { s with host := s.host.answer tag r .nothing }

/-- What the drain and the store controller start at the end of a step (R62 to R64, R94). -/
def State.takeUp (s : State) : State := storePump (drainBegin s)

/-- A state at the end of the step of a request: the store takes up its work and the reply is queued. -/
def State.replyAndTakeUp (s : State) (tag : Byte) (r : Result) : State :=
  { s.takeUp with host := s.host.answer tag r .nothing }

/-- A state at the end of the step of a request that is answered and does nothing else. -/
def State.onlyReply (s : State) (kind : Nat) (tag : Byte) (r : Result) : State :=
  if movesStore kind then s.replyAndTakeUp tag r else s.reply tag r

/-- The end of a step that moved the store while no RESTART and no flush is under way: the store takes up its work and a
free line of the host link takes its next frame (R187). -/
def State.settled (s : State) : State := chooseFrame s.takeUp

/-- The replies that have been formed and whose last byte has not left the line, oldest first. -/
def HostLink.replyLine (h : HostLink) : List Reply :=
  (match h.sending with
    | some (.reply r) => [r]
    | _ => []) ++ h.replies

/-- The notices that have been formed and whose last byte has not left the line, oldest first. -/
def HostLink.noticeLine (h : HostLink) : List Notice :=
  (match h.sending with
    | some (.notice n) => [n]
    | _ => []) ++ h.notices

/-- A state with another readback search. -/
def State.withSearch (s : State) (q : Option Search) : State := { s with script := { s.script with search := q } }

/-! ### The forms the state keeps -/

/-- The rate limits of R42. -/
abbrev TimeBase.inLimits (t : TimeBase) : Prop := 16760439 ≤ t.rate ∧ t.rate ≤ 16793993

/-- The reply queue and the notice queue are within their capacities (R185, R188). -/
abbrev HostLink.fits (h : HostLink) : Prop := h.replies.length ≤ 16 ∧ h.notices.length ≤ 32

/-- The transcript, the log buffer and the staging list are within their capacities (R73, R89, R128). -/
abbrev State.buffersFit (s : State) : Prop :=
  s.script.units.length ≤ 2048 ∧ s.log.pages.length ≤ 8 ∧ s.dict.staging.length ≤ 32

/-- The stroke queue of a position is within its capacity, and only a LIVE or REQUESTING position queues (R22, R25). -/
abbrev PosRec.queueFits (r : PosRec) : Prop :=
  r.queue.length ≤ 64 ∧ (r.state = .live ∨ r.state = .requesting ∨ r.queue = [])

/-- The hold list, the note queue and the untranslate list are within their capacities (R102, R122, R123). -/
abbrev Translator.fits (t : Translator) : Prop :=
  t.hold.length ≤ 8 ∧ t.notes.length ≤ 4 ∧ t.untranslates.length ≤ 64

/-- The change list of a feed is within its capacity (R151, R159). -/
abbrev Feed.changesFit (f : Feed) : Prop := f.changes.length ≤ 16

/-- The transmit window of a port is within its capacity (R172, R174). -/
abbrev Port.windowFits (p : Port) : Prop := p.window.length ≤ 4

/-- The stroke queues, the translator's lists, the change lists and the transmit windows are within their capacities. -/
abbrev State.listsFit (s : State) : Prop :=
  (s.floor.pos.a.queueFits ∧ s.floor.pos.b.queueFits) ∧ s.trans.fits ∧
  (s.feeds.feeds.f0.changesFit ∧ s.feeds.feeds.f1.changesFit ∧ s.feeds.feeds.f2.changesFit ∧
    s.feeds.feeds.f3.changesFit ∧ s.feeds.feeds.f4.changesFit) ∧
  s.ports.p1.windowFits ∧ s.ports.p2.windowFits ∧ s.ports.p3.windowFits ∧ s.ports.p4.windowFits

/-- A bucket directory lists each bucket once, the bucket numbers rising (R83). -/
abbrev DictRec.inOrder (r : DictRec) : Prop := r.directory.Pairwise (fun x y => x.index < y.index)

/-- The three directories are in order. -/
abbrev Dictionary.inOrder (x : Dictionary) : Prop := x.j.inOrder ∧ x.pa.inOrder ∧ x.pb.inOrder

/-- The characters of a report in progress (R2). -/
def KeyRx.held : KeyRx → Bytes
  | .hunt => []
  | .collect bs => bs

/-- Characters that complete a report of the receiver of a link, and the four bytes of that report: all four from HUNT, or
the last ones of a report in progress (R1, R3). The check of a report is not among it. -/
abbrev State.completes (s : State) (p : Pos) (chars : Bytes) (b0 b1 b2 b3 : Byte) : Prop :=
  (s.links.get p).inBreak = false ∧ (s.links.get p).rx ≠ .collect [] ∧
  b0.msb = true ∧ b1.msb = false ∧ b2.msb = false ∧ b3.msb = false ∧
  chars ≠ [] ∧ (s.links.get p).rx.held ++ chars = [b0, b1, b2, b3]

/-- A unit with the number is held, and the feed accepts its class (R150). -/
def FeedView.holdsAccepted (v : FeedView) (n : Nat) : Bool :=
  match clsOf v.units n with
  | none => false
  | some c => v.accepts c

/-- A REPLACE stands for a unit whose text the feed has been sent (R157, R158). -/
def Feed.backed (f : Feed) : ChangeNote → Bool
  | .replace n => f.textEntry n
  | _ => true

/-- A feed record in the form by which no feed is sent text of an excluded class (R153, R157, R165, R167): an OFF or STALLED
feed queues and has shown nothing; a DELAYED feed queues nothing; each REPLACE stands for a unit the feed has been sent; and
each unit that a LIVE or SETTLED feed has been sent and that is not redacted is held, with an accepted class. -/
abbrev Feed.truthful (v : FeedView) (f : Feed) : Prop :=
  (f.delivering = false → f.changes = [] ∧ f.shown = []) ∧
  (v.cfg.tier = .delayed → f.changes = []) ∧
  (∀ q ∈ f.changes, f.backed q = true) ∧
  (v.cfg.tier ≠ .delayed →
    ∀ e ∈ f.shown, e.kind = .provisional ∨ e.kind = .final → v.holdsAccepted e.number = true)

/-- Every feed record is in that form. -/
abbrev State.feedsTruthful (s : State) : Prop :=
  ∀ i ∈ [FeedId.f0, .f1, .f2, .f3, .f4], (s.feeds.feeds.get i).truthful (s.view i)

/-- The commands that report the end of an operation of the note memory, or may do so. -/
def endsOperation : Instr → Bool
  | .memoryReady _ => true
  | .suspendLatencyExpiry _ => true
  | .pageProgramEnd _ _ => true
  | .blockEraseEnd _ _ => true
  | _ => false

/-! ### The blocks a command may change -/

/-- The blocks of the part (Sections 1 to 10) but for the note memory, whose bytes only the end of an operation
changes. -/
inductive Block
  | links
  | formers
  | seqCounter
  | floor
  | time
  | store
  | log
  | dict
  | trans
  | script
  | feeds
  | fmt
  | ports
  | host
  | conds
  | settings
deriving DecidableEq, Repr

/-- Two states agree on a block. -/
def State.agree (b : Block) (s t : State) : Prop :=
  match b with
  | .links => t.links = s.links
  | .formers => t.formers = s.formers
  | .seqCounter => t.seqCounter = s.seqCounter
  | .floor => t.floor = s.floor
  | .time => t.time = s.time
  | .store => t.store = s.store
  | .log => t.log = s.log
  | .dict => t.dict = s.dict
  | .trans => t.trans = s.trans
  | .script => t.script = s.script
  | .feeds => t.feeds = s.feeds
  | .fmt => t.fmt = s.fmt
  | .ports => t.ports = s.ports
  | .host => t.host = s.host
  | .conds => t.conds = s.conds
  | .settings => t.settings = s.settings

/-- What a reply or a notice, and the condition behind it, may change. -/
def answerBlocks : List Block := [.time, .host, .conds]

/-- What the store, the log writer and the dictionaries may change at the end of a step, the close of a session
among it. -/
def storeBlocks : List Block := [.store, .log, .dict, .script] ++ answerBlocks

/-- What a movement of the floor, of the translator or of its lookups may change. -/
def translationBlocks : List Block := [.floor, .trans, .feeds] ++ storeBlocks

/-- What a closed stroke or a lost link may change. -/
def strokeBlocks : List Block := [.formers, .seqCounter] ++ translationBlocks

/-- What the passing of time up to a due moment changes: the local counter, the resume timer and the time an operation
has run, and the hold timer. -/
def passing : List Block := [.time, .store, .trans]

/-- The blocks a command may change. -/
def mayChange : Instr → List Block
  | .powerOn => []
  | .keyReport _ _ => .links :: strokeBlocks
  | .erroredByte _ => [.links, .formers]
  | .breakDetected _ => .links :: strokeBlocks
  | .silenceIntervalExpiry _ => .links :: strokeBlocks
  | .strokeLimitExpiry _ => strokeBlocks
  | .writerEnable _ _ => .formers :: translationBlocks
  | .handover _ _ => .floor :: storeBlocks
  | .floorWaitExpiry => translationBlocks
  | .syncPulse => [.time]
  | .captureExpiry => passing
  | .syncMark _ _ => answerBlocks
  | .rebase => passing
  | .previousSyncExpiry => passing
  | .holdoverExpiry => passing ++ answerBlocks
  | .memoryReady _ => storeBlocks
  | .readComplete => translationBlocks
  | .suspendLatencyExpiry _ => .trans :: storeBlocks
  | .resumeIntervalExpiry => .trans :: storeBlocks
  | .pageProgramEnd _ _ => storeBlocks
  | .blockEraseEnd _ _ => storeBlocks
  | .operationTimeout => .trans :: storeBlocks
  | .timeoutStillBusy => .trans :: storeBlocks
  | .storeRecover _ _ => storeBlocks
  | .formatStore _ _ => translationBlocks
  | .eraseRegion _ _ => translationBlocks
  | .logAgeExpiry => .trans :: storeBlocks
  | .logRead _ _ => storeBlocks
  | .logFlush _ _ => storeBlocks
  | .entryLookup _ _ => translationBlocks
  | .entryAdd _ _ => [.trans, .feeds] ++ storeBlocks
  | .entryDelete _ _ => storeBlocks
  | .strokeTake => translationBlocks
  | .holdTimerExpiry => translationBlocks
  | .defineSpeaker _ _ => .trans :: answerBlocks
  | .insertNote _ _ => [.trans, .feeds] ++ storeBlocks
  | .firmTimeExpiry => [.script, .feeds] ++ passing
  | .openSession _ _ => strokeBlocks
  | .closeSession _ _ => .formers :: translationBlocks
  | .lock _ _ => .script :: answerBlocks
  | .unlock _ _ => .script :: answerBlocks
  | .lockTimeout => .script :: passing
  | .editUnit _ _ => [.trans, .script, .feeds] ++ answerBlocks
  | .reclassify _ _ => [.script, .feeds] ++ answerBlocks
  | .readback _ _ => .script :: answerBlocks
  | .readbackVisit => .script :: answerBlocks
  | .releaseTimerExpiry _ => .feeds :: passing
  | .agedToExpiry => .feeds :: passing
  | .feedRepaint _ _ => .feeds :: answerBlocks
  | .grant => [.feeds, .fmt, .ports] ++ answerBlocks
  | .frameSent _ => [.ports]
  | .ack _ _ => [.feeds, .ports] ++ answerBlocks
  | .resync _ _ => [.feeds, .ports] ++ answerBlocks
  | .malformedReply _ _ _ => [.ports]
  | .replyGapTimeout _ _ => .ports :: passing
  | .ackTimeout _ => [.feeds, .ports] ++ passing ++ answerBlocks
  | .probeTimerExpiry _ => .ports :: passing
  | .hostFramingError _ => [.host]
  | .hostGapTimeout _ => .host :: passing
  | .frameDiscarded _ => [.host]
  | .badKind _ _ _ => answerBlocks
  | .hostFrameSent => .formers :: translationBlocks
  | .clearCondition _ _ => answerBlocks
  | .setSetting _ _ => [.fmt, .ports, .settings] ++ strokeBlocks
  | .getSetting _ _ => answerBlocks
  | .identify _ _ => answerBlocks
  | .status _ _ => answerBlocks
  | .restart _ _ => storeBlocks
  | .breakEnd _ => [.links]
  | .leadByte _ _ => .links :: strokeBlocks

end Sys2Proof.Machine
end

