-- ==== Sys2Proof/Certificates/Slice0/Obligations.lean ====
section
/-! DEFINITION. The statements about the part. -/

open Sys2Proof Sys2Proof.Machine

/-! ### The step, the queue and power-on -/

/-- Log entries 3 and 32: the command at the front of the queue is run with the rest of the queue. -/
def Obligations.StepRunsTheFrontCommand : Prop :=
  ∀ (s : State) (c : Instr) (cs : List Instr), s.pending = c :: cs → step s = exec c { s with pending := cs }

/-- Log entry 1 (DESIGN CHOICE): on an empty queue one microsecond passes and nothing else happens. -/
def Obligations.IdleStepLetsAMicrosecondPass : Prop :=
  ∀ s : State, s.pending = [] →
    ∃ t, step s = .next t ∧ t.time = { s.time with now := s.time.now + 1 } ∧
      t.trans = { s.trans with timer := s.trans.timer.map (fun e => min (e + 1) 5000000) } ∧
      t.store = { s.store with
        sinceResume := s.store.sinceResume.map (fun e => min (e + 1) 10000)
        inProgress := s.store.inProgress.map (fun r => { r with ran := r.ran + 1 }) } ∧
      t = { s with time := t.time, trans := t.trans, store := t.store }

/-- No command of the part stops it with a fault or a refusal (log entry 3), and a command acts on everything but the
queue of commands. -/
def Obligations.EveryCommandCompletes : Prop :=
  ∀ (c : Instr) (s : State), ∃ t, exec c s = .next t ∧ t.pending = s.pending

/-- POWER_ON (R195): every block at its power-on values; the note memory keeps its bytes, and what it may still be
doing is left to it (log entry 5); the queue of commands is not the part's. -/
def Obligations.PowerOnResetsEveryBlock : Prop :=
  ∀ s : State, exec .powerOn s = .next { State.reset with
    flash := { s.flash with orphans := s.flash.orphans ++ s.store.unfinished }
    pending := s.pending }

/-! ### What every step keeps -/

/-- The note memory stays in the one canonical form of its contents, whatever command is run. -/
def Obligations.NoteMemoryKeepsItsForm : Prop :=
  ∀ s t : State, s.flash.wf = true → step s = .next t → t.flash.wf = true

/-- R42: the rate stays within the rate limits, whatever command is run. -/
def Obligations.RateStaysWithinLimits : Prop :=
  ∀ s t : State, s.time.inLimits → step s = .next t → t.time.inLimits

/-- R73, R89, R102, R122, R123, R128, R151, R172, R185, R188, R25: the reply queue never holds more than 16 replies, the
notice queue never more than 32 notices, the transcript never more than 2048 units, the log buffer never more than 8
occupied pages, the staging list never more than 32 operations, the stroke queue of a position never more than 64 strokes,
the hold list never more than 8 strokes, the note queue never more than 4 notes, the untranslate list never more than 64
units, a change list never more than 16 notes and a transmit window never more than 4 frames. A bucket directory stays in
the order of its buckets. -/
def Obligations.QueuesAndBuffersStayWithinCapacity : Prop :=
  (∀ s t : State, s.host.fits → step s = .next t → t.host.fits) ∧
  (∀ s t : State, s.buffersFit → step s = .next t → t.buffersFit) ∧
  (∀ s t : State, s.listsFit → step s = .next t → t.listsFit) ∧
  (∀ s t : State, s.dict.inOrder → step s = .next t → t.dict.inOrder)

/-- R153, R156 to R158, R160, R161, R165 to R167: whatever command is run, every feed record keeps the form by which no feed
is sent the text of a unit whose class its mask excludes: an OFF or STALLED feed has shown nothing and queues nothing; a
DELAYED feed queues no change note; a REPLACE stands in a change list only for a unit that the feed has been sent; and each
unit that a feed of another tier has been sent and that is not redacted is held, with a class that its mask accepts. What is
sent from such a record is stated in FeedsOweFramesInOrder. -/
def Obligations.FeedsStayWithinTheirMask : Prop :=
  ∀ s t : State, s.feedsTruthful → step s = .next t → t.feedsTruthful

/-- The invariants that every step keeps hold at power-on. -/
def Obligations.PowerOnMeetsTheInvariants : Prop :=
  State.reset.flash.wf = true ∧ State.reset.time.inLimits ∧ State.reset.host.fits ∧ State.reset.buffersFit ∧
  State.reset.listsFit ∧ State.reset.dict.inOrder ∧ State.reset.feedsTruthful

/-- R55, R57, R63, R65: the bytes of the note memory change only with the end of an operation of the memory; no request
and no other event changes one, POWER_ON and RESTART included. When the bytes of a span change, and what a power-on does to
an unfinished operation, are the model's choices (log entry 4, a DESIGN CHOICE, and log entry 5). -/
def Obligations.NoteMemoryChangesOnlyWhenAnOperationEnds : Prop :=
  ∀ (c : Instr) (s t : State), endsOperation c = false → exec c s = .next t → t.flash.cells = s.flash.cells

/-- Sections 1 to 10: a command changes no block but those its rules name for it; or it is POWER_ON, or a step while the
part is RESTARTING that carries out the end of the RESTART, and every block has its power-on values (R194, R195). So no
command but SET changes a setting (R191). -/
def Obligations.CommandsChangeOnlyTheirBlocks : Prop :=
  ∀ (c : Instr) (s t : State), exec c s = .next t →
    (∀ b, b ∉ mayChange c → State.agree b s t) ∨
    (c = .powerOn ∨ s.host.phase ≠ .normal) ∧ ∀ b, State.agree b State.reset t

/-! ### Requests: the host link (Section 10) -/

/-- R185, R194, R198: while the reply queue is full a request frame, of a bad kind too, is counted, counted as an overrun
and dropped: nothing is taken and no reply is made, whichever request it is. Otherwise a frame whose kind is no request kind
is answered BAD-KIND whatever its payload; a request whose payload has another length than its kind's is answered
BAD-LENGTH; while the part is restarting a request of the right length, but for IDENTIFY, GET and STATUS, is answered BUSY.
Nothing else is done. From the report of the RESTART's flush on a frame is dropped without being counted. -/
def Obligations.RequestsAreTestedInOrder : Prop :=
  (∀ (kind : Nat) (tag : Byte) (payload : Bytes) (c : Instr) (s : State),
    requestOf kind tag payload = some c → s.calm → s.host.replies.length = 16 →
    exec c s = .next ((if movesStore kind then State.settled else chooseFrame) { s with
      host := { s.host with
        rx := .hunt, framesReceived := s.host.framesReceived + 1, overruns := s.host.overruns + 1 } })) ∧
  (∀ (tag kind : Byte) (payload : Bytes) (s : State), (kind.toNat = 0 ∨ 28 ≤ kind.toNat) → s.calm →
    (s.host.replies.length = 16 →
      exec (.badKind tag kind payload) s = .next (chooseFrame { s with
        host := { s.host with
          rx := .hunt, framesReceived := s.host.framesReceived + 1, overruns := s.host.overruns + 1 } })) ∧
    (s.host.replies.length < 16 →
      exec (.badKind tag kind payload) s = .next (s.reply tag (.refused .badKind)))) ∧
  (∀ (kind : Nat) (tag : Byte) (payload : Bytes) (c : Instr) (s : State),
     requestOf kind tag payload = some c → payload.length ≠ requestLength kind payload → s.accepts → s.calm →
     exec c s = .next (s.onlyReply kind tag (.refused .badLength))) ∧
  (∀ (kind : Nat) (tag : Byte) (payload : Bytes) (c : Instr) (s : State),
     requestOf kind tag payload = some c → alwaysAnswered kind = false →
     payload.length = requestLength kind payload →
     (s.host.phase = .restarting ∨ s.host.phase = .windingDown) →
     (s.log.flush = .none ∨ s.log.pages ≠ [] ∧ s.store.state ≠ .fault) →
     s.host.replies.length < 16 → exec c s = .next (s.onlyReply kind tag (.refused .busy))) ∧
  (∀ (kind : Nat) (tag : Byte) (payload : Bytes) (c : Instr) (s : State),
     requestOf kind tag payload = some c → s.host.phase = .draining → s.log.flush = .none →
     (chooseFrame s).host.replies ≠ [] →
     exec c s = .next ((if movesStore kind then State.settled else chooseFrame)
       { s with host := { s.host with rx := .hunt } }))

/-- R191 to R193, R9, R21, R37, R52, R57, R72, R79, R101, R126, R149, R169, R183, R189, R195: IDENTIFY is answered with the
vendor code 5742h, the part number 2300, the revision letter A and the capacities of paragraph 0.7; STATUS with the fields
of the group it names, as they stand; GET with the value in force of the setting its code and index name; a number that
names nothing is refused BAD-VALUE. Nothing else changes, also while the part is RESTARTING. The model's choices: the widths
of the fields of IDENTIFY and of the value (log entry 15), the layout of the groups beyond the order of their fields (log
entry 16), the codes that no table lists (log entry 38), that LINK counts the taking of its own STATUS (log entry 39), the
order of the log buffer pages (log entry 20), and that GET gives the new value of a feed-n-rate that waits for its line (log
entry 44). -/
def Obligations.ReadRequestsAnswerAndChangeNothing : Prop :=
  ∀ (tag : Byte) (s : State), s.host.phase ≠ .draining → s.host.replies.length < 16 →
    exec (.identify tag []) s = .next (s.reply tag (.done
      (be 2 0x5742 ++ be 2 2300 ++ [0x41#8] ++
        [2, 64, 8, 8, 2048, 48, 16, 64, 4, 32, 16, 3, 4096, 64, 32, 5, 16, 4, 200, 8, 16, 16, 256, 256, 256, 4096, 32,
         1024, 256, 64].flatMap (be 2)))) ∧
    (∀ code index : Byte,
      exec (.getSetting tag [code, index]) s = .next (s.reply tag
        (match settingOf code.toNat index.toNat with
          | some x => .done (be 4 (x.value s.settings))
          | none => .refused .badValue))) ∧
    (∀ group : Byte, (group.toNat = 0 ∨ 11 < group.toNat) →
      exec (.status tag [group]) s = .next (s.reply tag (.refused .badValue))) ∧
    (let answers := fun (group : Byte) (data : Bytes) => exec (.status tag [group]) s = .next (s.reply tag (.done data))
    let num := be 4
    let opt := fun x : Option Nat => match x with
      | none => [0#8]
      | some n => 1#8 :: be 4 n
    let optByte := fun x : Option Nat => match x with
      | none => [0#8]
      | some n => [1#8, BitVec.ofNat 8 n]
    let bit := fun b : Bool => if b then 1#8 else 0#8
    let cs := fun xs : List Count => xs.flatMap (fun n => be 4 n.toNat)
    let since := fun t : LocalTime => (s.time.now - t).toNat
    let link := fun l : KeyLink =>
      [if l.link = .up then 0#8 else 1#8] ++ cs [l.damagedReports, l.framingErrors, l.linkDowns]
    let former := fun f : Former => cs [f.closed, f.discarded, f.heldCloses, f.damagedCloses]
    let position := fun r : PosRec =>
      [byte (posStateCode r.state)] ++ num r.queue.length ++ [bit r.pending.isSome]
    let region := fun r : Region => [byte (regionCode r.state)] ++ opt r.append
    let running := fun r : Option Running => match r with
      | none => [0#8]
      | some x => [1#8, match x.op with
        | .program _ _ => 0#8
        | .erase _ => 1#8]
    let page := fun x : Option BufPage => match x with
      | none => [0#8, 0#8]
      | some q => [byte (pageCode q.state), 1#8] ++ num q.page
    let dictionary := fun d : Dict =>
      [byte (regionCode (s.store.region d).state)] ++ num (((s.dict.get d).directory.map Bucket.count).sum) ++
        num (s.dict.reservedBytes d) ++ [bit (s.dict.get d).stalled]
    let format := fun f : Fmt =>
      [bit f.capNext, bit f.lowerNext, bit f.attachNext, bit f.paraPending, byte f.speaker, byte (clsCode f.cls)]
    let feed := fun i : FeedId =>
      let f := s.feeds.feeds.get i
      let x := s.settings.feed.get i
      [byte (feedStateCode f.state), byte (tierCode x.tier), byte x.mask.toNat] ++ num f.cursor ++ num f.changes.length ++
        num f.shown.length ++ optByte (f.shown.getLast?.map (fun e => clsCode e.cls)) ++
        optByte (f.gapOwed.map (fun g => clsCode g.1)) ++ opt f.repaintTail ++
        optByte ((owedFrame (s.view i) f).map (fun g => g.1.code.toNat)) ++
        cs [f.addsSent, f.notesSent, f.gapsSent, f.repaints, f.laps, f.overflows, f.clears]
    let port := fun p : Port =>
      [byte (portStateCode p.state)] ++ num p.nextSeq.toNat ++ num p.window.length ++
        num (p.window.countP (fun x => x.sentAt.isSome)) ++ opt ((p.window.findSome? WinFrame.sentAt).map since) ++
        opt (p.probeSeq.map BitVec.toNat) ++
        cs [p.framesSent, p.framesAcked, p.framesLost, p.strayAcks, p.badReplies, p.stalls, p.recoveries, p.probes,
          p.resyncs]
    let held := fun st : UnitState => s.script.units.countP (fun u => decide (u.state = st))
    answers 1 ([if s.host.phase = .normal then 0#8 else 1#8, 0#8] ++ num s.host.replies.length ++
      num s.host.notices.length ++ num (if s.host.textPlace = none then 0 else 1) ++
      cs [s.host.framesReceived + 1, s.host.requestsTaken + 1, s.host.discards, s.host.framingErrors, s.host.overruns,
        s.host.repliesSent, s.host.noticesSent, s.host.textSent, s.host.noticesDropped, s.host.sets]) ∧
    answers 2 (link s.links.a ++ link s.links.b ++ former s.formers.a ++ former s.formers.b) ∧
    answers 3 (cs [s.floor.pos.a.strokesQueued, s.floor.pos.b.strokesQueued, s.floor.pos.a.relayDrops,
        s.floor.pos.b.relayDrops, s.floor.pos.a.overflowDrops, s.floor.pos.b.overflowDrops, s.floor.cleanPasses,
        s.floor.forcedPasses, s.floor.cancelledPasses, s.floor.floorLosses] ++
      position s.floor.pos.a ++ position s.floor.pos.b ++ [byte (floorCode s.floor.state)] ++
      opt (s.floor.waitFrom.map since)) ∧
    answers 4 (cs [s.time.syncPulses, s.time.capturesReplaced, s.time.syncAccepted, s.time.syncLate,
        s.time.syncNoCapture, s.time.steps, s.time.rateUpdates, s.time.rateClamps, s.time.heldStamps, s.time.rebases] ++
      num s.time.now.toNat ++ num s.time.anchorAt.toNat ++ num s.time.anchorCode ++ num s.time.rate ++
      num s.time.lastStamp ++ [bit s.time.prevValid, byte (captureCode s.time.capture)] ++
      opt (if s.time.capture = .current then some (since s.time.captureAt) else none) ++
      [byte (syncCode s.time.sync)] ++ opt (s.time.holdoverFrom.map since) ++
      num (min (s.time.anchorCode + since s.time.anchorAt * s.time.rate / 16777216000) 4294967295)) ∧
    answers 5 ([byte (storeCode s.store.state)] ++ (match s.store.header with
        | none => [0#8]
        | some h => [1#8] ++ be 2 h.capacity ++
            [h.log, h.j, h.pa, h.pb].flatMap (fun x => be 2 x.start ++ be 2 x.len)) ++
      (match s.store.timing with
        | none => [0#8]
        | some z => [1#8] ++ be 2 z.programMax ++ be 2 z.eraseMax ++ be 2 z.suspendLatency ++ be 2 z.resumeInterval) ++
      region s.store.log ++ region s.store.j ++ region s.store.pa ++ region s.store.pb ++ running s.store.inProgress ++
      running s.store.suspended ++
      cs [s.store.reads, s.store.programs, s.store.erases, s.store.suspends, s.store.relocations,
        s.store.programFailures, s.store.eraseFailures, s.store.timeouts, s.store.tornRecords, s.store.tornPages,
        s.log.unloggedCount, s.log.recordsRefused] ++ opt s.store.log.append ++
      [0, 1, 2, 3, 4, 5, 6, 7].flatMap (fun i => page s.log.pages[i]?) ++
      num ((s.log.openPage.map (fun q => q.records.length)).getD 0)) ∧
    answers 6 (cs [s.dict.lookupsDone, s.dict.recordsRead, s.dict.chainErrors, s.dict.addsStaged, s.dict.deletesStaged,
        s.dict.recordsProgrammed, s.dict.prefixesWritten, s.dict.opsDrained, s.dict.roomStalls, s.dict.stagedCleared] ++
      num s.dict.staging.length ++ (match s.dict.staging with
        | [] => [0#8]
        | o :: _ => [1#8, byte (dictCode o.dict), bit o.text.isNone, bit o.draining]) ++
      dictionary .j ++ dictionary .pa ++ dictionary .pb) ∧
    answers 7 (cs [s.trans.strokesTaken, s.trans.lookupsAsked, s.trans.recomputes, s.trans.retractions,
        s.trans.unitsCommitted, s.trans.holdExpiries, s.trans.forcedResolutions, s.trans.undos, s.trans.undosInHold,
        s.trans.undosBlocked, s.trans.numbers, s.trans.untranslatesMade, s.trans.badCommands,
        s.trans.untranslatesDropped, s.trans.notesInserted] ++
      [if s.trans.inFlight ≠ none then 2#8 else if s.trans.hold = [] then 0#8 else 1#8] ++ num s.trans.hold.length ++
      [match s.trans.hold with
        | [] => 2#8
        | x :: _ => byte (posCode x.pos), byte s.trans.hold.length] ++
      s.trans.hold.flatMap (fun x => be 3 x.keys.toNat) ++ opt (s.trans.timer.map (fun e => e / 1000)) ++
      format s.trans.base ++ format s.trans.after ++ num s.trans.untranslates.length ++ num s.trans.notes.length) ∧
    answers 8 (cs [s.script.unitsCreated, s.script.unitsRetracted, s.script.unitsFirmed, s.script.unitsFreed,
        s.script.edits, s.script.unitsReclassified, s.script.locksGranted, s.script.lockTimeouts, s.script.locksBroken,
        s.script.readbacks] ++
      [byte (sessionCode s.script.session)] ++ opt s.script.jobNumber ++ (match s.script.sessionNumber with
        | none => [0#8]
        | some n => [1#8] ++ be 2 n) ++
      opt s.script.epoch ++ [byte (optPosCode s.script.startingPos)] ++ num s.script.units.length ++
      opt (s.script.units.head?.map TUnit.number) ++ opt (s.script.units.getLast?.map TUnit.number) ++
      num s.script.nextNumber ++ num (held .provisional) ++ num (held .committed) ++ num (held .firm) ++
      (match s.script.lock with
        | none => [0#8]
        | some l => [1#8] ++ num l.first ++ num l.last ++ num (since l.since)) ++
      optByte (s.script.search.map (fun q => if q.collecting then 1 else 0)) ++
      num ((s.script.search.map (fun q => q.list.length)).getD 0)) ∧
    answers 9 (feed .f0 ++ feed .f1 ++ feed .f2 ++ feed .f3 ++ feed .f4 ++ num s.feeds.agedTo) ∧
    answers 10 (port s.ports.p1 ++ port s.ports.p2 ++ port s.ports.p3 ++ port s.ports.p4 ++ [byte s.fmt.high.length] ++
      s.fmt.high.map (fun m => match m with
        | .feed i => byte (feedNum i)
        | .low => 5#8) ++
      [byte s.fmt.low.length] ++ s.fmt.low.map (fun i => byte (feedNum i)) ++
      cs [s.fmt.grants.f0, s.fmt.grants.f1, s.fmt.grants.f2, s.fmt.grants.f3, s.fmt.grants.f4]) ∧
    answers 11 ([Cond.keyLinkDown .a, .keyLinkDown .b, .floorVacant, .syncHoldover, .syncUnlocked, .logNearlyFull,
      .logFull, .unloggedStrokes, .storeFault, .feedStalled .p1, .feedStalled .p2, .feedStalled .p3, .feedStalled .p4,
      .noticeOverflow, .lockBroken].flatMap (fun c =>
        let e := s.conds.get c
        [bit e.set, bit e.cause, bit e.reportOwed] ++ num e.raises.toNat)))

/-! ### Conditions, speakers, the lock, edits and readback (Sections 6, 7 and 10) -/

/-- R190: CLEAR-CONDITION is refused BAD-VALUE for a code that names no condition and STILL-ACTIVE while the cause is
present; otherwise it clears SET and REPORT-OWED of that condition and nothing else. -/
def Obligations.ClearConditionClearsTheFlags : Prop :=
  ∀ (tag code : Byte) (s : State), s.accepts →
    exec (.clearCondition tag [code]) s = .next
      (match condOfCode code.toNat with
        | none => s.reply tag (.refused .badValue)
        | some c =>
          if (s.conds.get c).cause then s.reply tag (.refused .stillActive)
          else State.reply { s with conds := s.conds.upd c (fun e => { e with set := false, reportOwed := false }) }
            tag (.done []))

/-- R121: DEFINE-SPEAKER replaces the label of a speaker 1 to 32 by one of at most 16 bytes, in every session state. That a
number outside 1 to 32 is refused BAD-VALUE before a longer label is refused TOO-LONG is the model's choice (log entry
42). -/
def Obligations.DefineSpeakerReplacesTheLabel : Prop :=
  ∀ (tag n : Byte) (label : Bytes) (s : State), s.accepts → label.length < 256 →
    exec (.defineSpeaker tag (n :: byte label.length :: label)) s = .next
      (if n.toNat < 1 ∨ 32 < n.toNat then s.reply tag (.refused .badValue)
      else if 16 < label.length then s.reply tag (.refused .tooLong)
      else State.reply { s with trans := { s.trans with speakers := s.trans.speakers.set (n.toNat - 1) label } }
        tag (.done []))

/-- R139, R140: LOCK is refused BUSY while the session is CLOSING, LOCK-HELD while a lock is held, and RANGE for a range
that is not between two held units in order, holds more than 256 units or holds a PROVISIONAL unit; otherwise the range is
locked, LOCK-TIMER starts, and DONE carries the number of units in the range, in four bytes (log entry 15). UNLOCK releases
the lock, or is refused NOT-LOCKED when none is held; when LOCK-TIMER reaches lock-timeout the lock is released and counted,
and nothing else changes but the time that passes up to that moment (log entry 2, the model's choice). -/
def Obligations.LockIsTakenAndReleased : Prop :=
  (∀ (tag : Byte) (first last : Nat) (s : State), s.accepts → first < 4294967296 → last < 4294967296 →
    exec (.lock tag (be 4 first ++ be 4 last)) s = .next
      (let range := s.script.units.filter (fun u => decide (first ≤ u.number ∧ u.number ≤ last))
      if s.script.session = .closing then s.reply tag (.refused .busy)
      else if s.script.lock ≠ none then s.reply tag (.refused .lockHeld)
      else if last < first ∨ s.script.holds first = false ∨ s.script.holds last = false ∨ 256 < range.length ∨
          range.any (fun u => decide (u.state = .provisional)) = true then s.reply tag (.refused .range)
      else State.reply { s with script := { s.script with
          lock := some { first := first, last := last, since := s.time.now }
          locksGranted := s.script.locksGranted + 1 } } tag (.done (be 4 range.length)))) ∧
  (∀ (tag : Byte) (s : State), s.accepts →
     exec (.unlock tag []) s = .next
       (if s.script.lock = none then s.reply tag (.refused .notLocked)
       else State.reply { s with script := { s.script with lock := none } } tag (.done []))) ∧
  (∀ (l : EditLock) (s : State), s.script.lock = some l →
     exec .lockTimeout s = .next
       { s.runTo l.since (s.settings.lockTimeout * 1000000) with
         script := { s.script with lock := none, lockTimeouts := s.script.lockTimeouts + 1 } })

/-- R142: EDIT-UNIT of a held unit inside the lock replaces its TEXT and JOIN, marks it EDITED, takes it off the
untranslate list, restarts LOCK-TIMER and reports the replacement to the feeds. -/
def Obligations.EditUnitReplacesTheText : Prop :=
  ∀ (tag join : Byte) (n : Nat) (text : Bytes) (s : State), s.accepts → n < 4294967296 → text.length < 256 →
    exec (.editUnit tag (be 4 n ++ join :: byte text.length :: text)) s = .next
      (if 1 < join.toNat then s.reply tag (.refused .badValue)
      else if 48 < text.length then s.reply tag (.refused .tooLong)
      else if s.script.holds n = false ∨ s.script.inLock n = false then s.reply tag (.refused .notLocked)
      else (report (.replaced n) { s with
          trans := { s.trans with untranslates := s.trans.untranslates.filter (fun e => decide (e.1 ≠ n)) }
          script := { s.script with
            lock := s.script.lock.map (fun l => { l with since := s.time.now })
            edits := s.script.edits + 1
            units := s.script.units.map (fun u =>
              if u.number = n then { u with text := text, join := decide (join.toNat = 1), edited := true }
              else u) } }).reply tag (.done []))

/-- R143, R144: RECLASSIFY is refused BAD-VALUE for a code that names no class, then RANGE, NOT-LOCKED and RELEASED; of a
range inside the lock, no unit of which a DELAYED feed has already released to viewers the new class would not reach, it
gives every unit the class, counts those whose class changes and answers the count in four bytes (log entry 15, the model's
choice). -/
def Obligations.ReclassifyChangesTheClasses : Prop :=
  (∀ (tag code : Byte) (first last : Nat) (s : State), s.accepts → first < 4294967296 → last < 4294967296 →
     (clsOfCode code.toNat = none →
       exec (.reclassify tag (be 4 first ++ be 4 last ++ [code])) s = .next (s.reply tag (.refused .badValue))) ∧
     (∀ c, clsOfCode code.toNat = some c →
       (last < first ∨ s.script.holds first = false ∨ s.script.holds last = false →
         exec (.reclassify tag (be 4 first ++ be 4 last ++ [code])) s = .next (s.reply tag (.refused .range))) ∧
       (first ≤ last ∧ s.script.holds first = true ∧ s.script.holds last = true →
         (s.script.inLock first = false ∨ s.script.inLock last = false →
           exec (.reclassify tag (be 4 first ++ be 4 last ++ [code])) s = .next (s.reply tag (.refused .notLocked))) ∧
         (s.script.inLock first = true ∧ s.script.inLock last = true ∧
             releaseFails s c (s.script.range first last) = true →
           exec (.reclassify tag (be 4 first ++ be 4 last ++ [code])) s = .next (s.reply tag (.refused .released)))))) ∧
  (∀ (tag code : Byte) (c : Cls) (first last : Nat) (s : State), s.accepts → first < 4294967296 → last < 4294967296 →
     clsOfCode code.toNat = some c → first ≤ last → s.script.holds first = true → s.script.holds last = true →
     s.script.inLock first = true → s.script.inLock last = true →
     releaseFails s c (s.script.range first last) = false →
     ∃ t, exec (.reclassify tag (be 4 first ++ be 4 last ++ [code])) s = .next t ∧
       t = { s with
         feeds := t.feeds
         script := { s.script with
           units := s.script.units.map (fun u =>
             if first ≤ u.number ∧ u.number ≤ last then { u with cls := c } else u)
           unitsReclassified := s.script.unitsReclassified +
             BitVec.ofNat 32 ((s.script.range first last).filter (fun u => decide (u.cls ≠ c))).length }
         host := s.host.answer tag
           (.done (be 4 ((s.script.range first last).filter (fun u => decide (u.cls ≠ c))).length)) .nothing })

/-- R145 to R148: READBACK is refused BAD-VALUE for a criterion of another kind, a speaker outside 1 to 32 or an empty word,
then TOO-LONG for a word above 48 bytes, then BUSY while a search is in flight. With a speaker 1 to 32 or a word of 1 to 48
bytes, and no search in flight, it is ACCEPTED and begins a search from BEFORE, or from past the newest unit when BEFORE is
0, with MAX limited to 1 to 64. A visit of the search takes the newest held unit below the cursor while searching, and the
oldest above it while collecting; a unit that passes the criterion becomes START and begins the list, a collected unit joins
the list, and nothing but the search changes while the list is shorter than MAX. The search completes when no unit lies
below the cursor, when collecting meets no unit, a unit not below BEFORE or, for a speaker, a SPEAKER-LABEL, and when the
list holds MAX numbers. The result gives FOUND, START and for each number of the list the unit as it stands, or GONE, in
parts of as many whole entries as a payload of 1024 bytes holds. The model's choices: the widths of FOUND, START, the counts
and the part number, so that five bytes of the payload are a COMPLETION's own (log entry 15), that MAX 1 completes at the
visit that finds START and a speaker in another number of bytes than one is refused BAD-VALUE (log entry 25), and the codes
of STATE and KIND (log entry 38). -/
def Obligations.ReadbackSearchesTheTranscript : Prop :=
  (∀ (tag most : Byte) (before : Nat) (arg : Bytes) (crit : Criterion) (s : State), s.accepts → before < 4294967296 →
    s.script.search = none →
    ((∃ n : Byte, arg = [n] ∧ 1 ≤ n.toNat ∧ n.toNat ≤ 32 ∧ crit = .speaker n.toNat) ∨
      (1 ≤ arg.length ∧ arg.length ≤ 48 ∧ crit = .word arg)) →
    exec (.readback tag ((match crit with
        | .speaker _ => 1#8
        | .word _ => 2#8) :: be 4 before ++ most :: byte arg.length :: arg)) s = .next
      (State.reply { s with script := { s.script with
        readbacks := s.script.readbacks + 1
        search := some
          { tag := tag, criterion := crit, before := before, most := max 1 (min most.toNat 64), collecting := false
            cursor := if before = 0 then s.script.nextNumber else before, start := none, list := [] } } } tag
        .accepted)) ∧
  (∀ (tag kind most : Byte) (before : Nat) (arg : Bytes) (s : State), s.accepts → before < 4294967296 →
    arg.length ≤ 255 →
    let read := Instr.readback tag (kind :: be 4 before ++ most :: byte arg.length :: arg)
    let badValue := (kind.toNat ≠ 1 ∧ kind.toNat ≠ 2) ∨
      (kind.toNat = 1 ∧ ¬ ∃ n : Byte, arg = [n] ∧ 1 ≤ n.toNat ∧ n.toNat ≤ 32) ∨ (kind.toNat = 2 ∧ arg = [])
    let tooLong := kind.toNat = 2 ∧ 48 < arg.length
    (badValue → exec read s = .next (s.reply tag (.refused .badValue))) ∧
    (tooLong → exec read s = .next (s.reply tag (.refused .tooLong))) ∧
    (¬ badValue → ¬ tooLong → s.script.search ≠ none → exec read s = .next (s.reply tag (.refused .busy)))) ∧
  (∀ (q : Search) (s : State), s.script.search = some q → s.host.phase = .normal →
    (∀ u ∈ s.script.units, u.text.length ≤ 48) →
    let below := (s.script.units.filter (fun x => decide (x.number < q.cursor))).getLast?
    let above := s.script.units.find? (fun x => decide (q.cursor < x.number))
    let stops := fun u : TUnit =>
      (q.before ≠ 0 ∧ q.before ≤ u.number) ∨ (∃ n, q.criterion = .speaker n) ∧ u.kind = .speakerLabel
    let entry := fun n : Nat => match s.script.units.find? (fun x => decide (x.number = n)) with
      | none => be 4 n ++ [0xFF#8]
      | some u =>
        be 4 n ++ [byte (unitStateCode u.state), byte (unitKindCode u.kind), byte (clsCode u.cls), byte u.speaker,
          beFlags [u.join, u.paragraphStart, u.suspect, u.unlogged, u.edited, u.globaled]] ++
          be 4 u.timecode ++ (match u.firstSeq with
            | none => [0#8]
            | some z => 1#8 :: be 4 z.toNat) ++ byte u.text.length :: u.text
    let completes := fun (start : Option Nat) (list : List Nat) =>
      let head := match start with
        | none => [0#8, 0#8]
        | some n => [1#8, 1#8] ++ be 4 n
      let payload := fun x : List Nat => head ++ byte x.length :: x.flatMap entry
      ∃ t, exec .readbackVisit s = .next t ∧ t.script = { s.script with search := none } ∧
        t = { s with script := t.script, host := t.host, conds := t.conds, time := t.time } ∧
        ∃ parts : List (List Nat), parts.flatten = list ∧ parts ≠ [] ∧
          (∀ x ∈ parts, 5 + (payload x).length ≤ 1024) ∧
          (∀ (i n : Nat) (x y : List Nat), parts[i]? = some x → parts[i + 1]? = some (n :: y) →
            1024 < 5 + (payload (x ++ [n])).length) ∧
          (s.host.notices.length + parts.length ≤ 32 → ∀ (i : Nat) (x : List Nat), parts[i]? = some x →
            .completion q.tag 0x1A none (i + 1) (decide (i + 1 = parts.length)) (payload x) ∈ t.host.noticeLine)
    (q.collecting = false →
      (∀ u, below = some u → q.criterion.passes u = true → 2 ≤ q.most →
        exec .readbackVisit s = .next (chooseFrame (s.withSearch (some
          { q with cursor := u.number, start := some u.number, list := [u.number], collecting := true })))) ∧
      (∀ u, below = some u → q.criterion.passes u = true → q.most ≤ 1 → completes (some u.number) [u.number]) ∧
      (∀ u, below = some u → q.criterion.passes u = false →
        exec .readbackVisit s = .next (chooseFrame (s.withSearch (some { q with cursor := u.number })))) ∧
      (below = none → completes q.start q.list)) ∧
    (q.collecting = true →
      (above = none → completes q.start q.list) ∧
      (∀ u, above = some u →
        (stops u → completes q.start q.list) ∧
        (¬ stops u → q.list.length + 1 < q.most →
          exec .readbackVisit s = .next (chooseFrame (s.withSearch (some
            { q with cursor := u.number, list := q.list ++ [u.number] })))) ∧
        (¬ stops u → q.most ≤ q.list.length + 1 → completes q.start (q.list ++ [u.number])))))

/-! ### Key links and stroke formers (Section 1) -/

/-- R2, R3, R8, R10, R11, R13, R17: a complete valid report of an UP link, whose characters come with one command or end a
report in progress, frees the latched keys it does not show; its unlatched keys open a stroke with a stamp, or join the open
stroke; the silence interval restarts. At an OFF position it forms nothing. At a DOWN link it takes the link UP and a DOWN
position to SHADOW, the cause of KEYLINK-x-DOWN becomes absent, and its unlatched keys open a stroke unless the position is
OFF. -/
def Obligations.KeyReportFormsAStroke : Prop :=
  ∀ (p : Pos) (chars : Bytes) (b0 b1 b2 b3 : Byte) (s : State), s.completes p chars b0 b1 b2 b3 →
    keyCount (keyField b0 b1 b2 b3) = countField b3 → s.calm →
    let k := keyField b0 b1 b2 b3
    let latched := (s.formers.get p).latched &&& k
    let report := exec (.keyReport p chars) s
    ((s.links.get p).link = .up →
      let links := s.links.upd p (fun l => { l with rx := .hunt, lastReport := some k, silenceFrom := some s.time.now })
      ((s.posRec p).state = .off → report = .next (State.settled { s with links := links })) ∧
      ((s.posRec p).state ≠ .off →
        ((s.formers.get p).openStroke = none →
          report = .next (State.settled
            (if k &&& ~~~latched = 0 then
              { s with links := links, formers := s.formers.upd p (fun f => { f with latched := latched }) }
            else
              { s with
                links := links
                time := s.time.stamped
                formers := s.formers.upd p (fun f =>
                  { f with
                    latched := latched
                    openStroke := some
                      { keys := k &&& ~~~latched, openTime := s.time.now, timecode := s.time.stamp, damaged := false,
                        held := false, inSession := decide (s.script.session = .opened) } }) }))) ∧
        (∀ o, (s.formers.get p).openStroke = some o → k &&& ~~~latched ≠ 0 →
          report = .next (State.settled
            { s with
              links := links
              formers := s.formers.upd p (fun f =>
                { f with latched := latched, openStroke := some { o with keys := o.keys ||| (k &&& ~~~latched) } }) })))) ∧
    ((s.links.get p).link = .down → (s.formers.get p).openStroke = none →
      ∃ t, report = .next t ∧
        t.links = s.links.upd p (fun l =>
          { l with rx := .hunt, link := .up, lastReport := some k, silenceFrom := some s.time.now }) ∧
        t.floor = { s.floor with pos := s.floor.pos.upd p (fun r =>
          if r.state = .down then { r with state := .shadow } else r) } ∧
        (t.conds.get (.keyLinkDown p)).cause = false ∧
        ((s.posRec p).state = .off → t.formers = s.formers) ∧
        ((s.posRec p).state ≠ .off →
          (k &&& ~~~latched = 0 → t.formers = s.formers.upd p (fun f => { f with latched := latched })) ∧
          (k &&& ~~~latched ≠ 0 → ∃ z, t.formers = s.formers.upd p (fun f =>
            { f with
              latched := latched
              openStroke := some
                { keys := k &&& ~~~latched, openTime := s.time.now, timecode := z, damaged := false, held := false,
                  inSession := decide (s.script.session = .opened) } }))) ∧
        t = { s with
          links := t.links, formers := t.formers, floor := t.floor, time := t.time, store := t.store, log := t.log,
          dict := t.dict, host := t.host, conds := t.conds })

/-- R12, R15, R19, R20, R25, R27, R28, R30, R32, R74: a report whose unlatched part is empty closes the open stroke with its
flags as they stand, and stroke-limit closes it HELD and latches the keys of LAST-REPORT. A stroke closed outside its
session is counted as discarded and goes nowhere. One closed in its session takes its number and its STROKE record enters
the OPEN page or a new one; a record that is refused is counted and marks the stroke UNLOGGED. The floor controller then
disposes of it by the STATE of its position: it takes a VACANT floor, begins a pass when it is the take stroke, is queued,
forces the pass when the queue of the REQUESTING position is full, is an overflow drop, or is logged only. With stroke-echo
on each close gives a STROKE notice. That time passes up to stroke-limit with the expiry is the model's choice (log entry
2). -/
def Obligations.StrokesCloseAndAreDisposedOf : Prop :=
  ∀ (p : Pos) (c : Instr) (o : OpenStroke) (limit : Bool) (s u : State) (k latched : Keys),
    s.calm → (s.formers.get p).openStroke = some o →
    (limit = false ∧ (∃ (chars : Bytes) (b0 b1 b2 b3 : Byte), c = .keyReport p chars ∧ s.completes p chars b0 b1 b2 b3 ∧
        keyCount (keyField b0 b1 b2 b3) = countField b3 ∧ k = keyField b0 b1 b2 b3) ∧
        (s.links.get p).link = .up ∧ (s.posRec p).state ≠ .off ∧ latched = (s.formers.get p).latched &&& k ∧
        k &&& ~~~latched = 0 ∧
        u = { s with links :=
          s.links.upd p (fun l => { l with rx := .hunt, lastReport := some k, silenceFrom := some s.time.now }) } ∨
      limit = true ∧ c = .strokeLimitExpiry p ∧ latched = (s.links.get p).lastReport.getD 0 ∧
        u = s.runTo o.openTime (s.settings.strokeLimit * 1000)) →
    let closed := fun f : Former =>
      { f with
        openStroke := none
        latched := latched
        closed := f.closed + 1
        heldCloses := if limit then f.heldCloses + 1 else f.heldCloses
        damagedCloses := if o.damaged then f.damagedCloses + 1 else f.damagedCloses }
    let discarded := s.formers.upd p (fun f => { closed f with discarded := f.discarded + 1 })
    let x : StrokeRec :=
      { pos := p, keys := o.keys, openTime := o.openTime, timecode := o.timecode, seq := s.seqCounter,
        damaged := o.damaged, held := limit, unlogged := false }
    let r := s.posRec p
    let record := logRecord o.keys.toNat
      (logFlags (some p) (decide (r.state = .live)) o.damaged limit (decide (o.keys = 1024#23)) false) o.timecode
      s.seqCounter.toNat (s.script.sessionNumber.getD 0) 1
    -- discarded
    ((o.inSession = false ∨ s.script.session ≠ .opened) →
      (s.settings.strokeEcho = false → exec c s = .next (State.settled { u with formers := discarded })) ∧
      (s.settings.strokeEcho = true →
        ∃ t, exec c s = .next t ∧ t.formers = discarded ∧ t.seqCounter = s.seqCounter ∧ t.floor = s.floor ∧
          (s.host.notices.length < 32 →
            .stroke p none o.keys o.timecode o.damaged limit false ∈ t.host.noticeLine) ∧
          t = { u with
            formers := t.formers, time := t.time, store := t.store, log := t.log, dict := t.dict, host := t.host
            conds := t.conds })) ∧
    -- numbered, of the LIVE position, into the OPEN page
    (∀ page, o.inSession = true → s.script.session = .opened → r.state = .live → s.store.state = .ready →
      s.log.openPage = some page → s.settings.strokeEcho = false →
      exec c s = .next (State.settled
        { u with
          formers := s.formers.upd p closed
          seqCounter := s.seqCounter + 1
          log := { s.log with pages := s.log.pages.map (BufPage.take record) }
          floor := { s.floor with pos := s.floor.pos.upd p (fun r =>
            if 64 ≤ r.queue.length ∨ r.pending ≠ none then { r with overflowDrops := r.overflowDrops + 1 }
            else { r with queue := r.queue ++ [x], strokesQueued := r.strokesQueued + 1 }) } })) ∧
    -- numbered, whatever the position and the log
    (∀ (refused : Bool) (h : Header), o.inSession = true → s.script.session = .opened → s.store.header = some h →
      (let logs := s.store.state = .ready ∨ s.store.state = .fault
      let room := s.log.pages.length < 8 ∧ ∃ a, s.store.log.append = some a ∧ a < h.log.len * 256
      (refused = true ↔ ¬ (logs ∧ (s.log.openPage ≠ none ∨ room)))) →
      let y : StrokeRec := { x with unlogged := refused }
      let take : Bool := decide (o.keys.toNat ≠ 0 ∧ o.keys.toNat = s.settings.takeOutline.get p)
      let queued := fun r : PosRec => { r with queue := r.queue ++ [y], strokesQueued := r.strokesQueued + 1 }
      ∃ t, exec c s = .next t ∧ t.formers = s.formers.upd p closed ∧ t.seqCounter = s.seqCounter + 1 ∧
        (refused = false →
          t.log.unloggedCount = s.log.unloggedCount ∧
          (∀ page, s.log.openPage = some page →
            ∃ q ∈ t.log.pages, q.page = page.page ∧ ∃ more, q.records = page.records ++ record :: more) ∧
          (∀ a, s.log.openPage = none → s.store.log.append = some a →
            ∃ q ∈ t.log.pages, q.page = a ∧ ∃ more, q.records = record :: more)) ∧
        (refused = true →
          t.log.unloggedCount = s.log.unloggedCount + 1 ∧ (t.conds.get .unloggedStrokes).set = true) ∧
        (s.settings.strokeEcho = true → s.host.notices.length < 24 →
          .stroke p (some s.seqCounter) o.keys o.timecode o.damaged limit refused ∈ t.host.noticeLine) ∧
        ((r.state = .down ∨ r.state = .shadow ∧ s.floor.state = .held ∧ take = false ∨
            r.state = .requesting ∧ take = true) → t.floor = s.floor) ∧
        (r.state = .shadow → s.floor.state = .vacant →
          t.floor = { s.floor with
            pos := s.floor.pos.upd p (fun r => { (if take = true then r else queued r) with state := .live })
            state := .held
            waitFrom := none }) ∧
        (r.state = .shadow → s.floor.state = .held → take = true → (s.posRec (otherPos p)).state = .live →
          t.floor =
            if s.trans.inFlight = none ∧ s.trans.hold = [] ∧ (s.posRec (otherPos p)).queue = [] then
              { s.floor with
                pos := (s.floor.pos.upd p (fun r => { r with state := .live, queue := [] })).upd (otherPos p)
                  (fun r => { r with state := .shadow })
                state := .held
                waitFrom := none
                cleanPasses := s.floor.cleanPasses + 1 }
            else
              { s.floor with
                pos := s.floor.pos.upd p (fun r => { r with state := .requesting, queue := [] })
                state := .passing
                waitFrom := some u.time.now }) ∧
        (r.state = .requesting → take = false → r.queue.length < 64 →
          t.floor = { s.floor with pos := s.floor.pos.upd p queued }) ∧
        (r.state = .requesting → take = false → 64 ≤ r.queue.length → s.floor.state = .passing →
          (s.posRec (otherPos p)).state = .live →
          t.floor =
            { s.floor with
              pos := (s.floor.pos.upd (otherPos p) (fun r =>
                  { r with
                    state := .shadow
                    queue := []
                    pending := none
                    relayDrops := r.relayDrops + BitVec.ofNat 32 (r.queue.length + r.pending.toList.length) })).upd p
                (fun r => { r with state := .live, pending := some y })
              state := .held
              waitFrom := none
              forcedPasses := s.floor.forcedPasses + 1 } ∧
          (s.trans.inFlight = none → t.trans.hold = []) ∧
          (s.trans.inFlight ≠ none → t.trans.resolvePending = true ∧ t.trans.hold = s.trans.hold)) ∧
        (r.state = .live →
          t.floor = { s.floor with pos := s.floor.pos.upd p (fun r =>
            if 64 ≤ r.queue.length ∨ r.pending ≠ none then { r with overflowDrops := r.overflowDrops + 1 }
            else queued r) }) ∧
        (¬ (r.state = .requesting ∧ take = false ∧ 64 ≤ r.queue.length) →
          t.trans = u.trans ∧ t.script = s.script ∧ t.feeds = s.feeds) ∧
        t = { u with
          formers := t.formers, seqCounter := t.seqCounter, floor := t.floor, time := t.time, store := t.store
          log := t.log, dict := t.dict, trans := t.trans, script := t.script, feeds := t.feeds, host := t.host
          conds := t.conds })

/-- R1, R2, R4, R14, R17: a lead byte begins a report; a report in progress that a lead byte or an errored byte meets,
and a complete report whose check fails, are damaged: counted once, and the open stroke of a position that is not OFF is
marked DAMAGED. An errored byte is counted in every case. -/
def Obligations.DamagedReportsAreCounted : Prop :=
  ∀ (p : Pos) (c : Byte) (s : State), s.calm → (s.links.get p).inBreak = false →
    let marked := if (s.posRec p).state = .off then s.formers else s.formers.upd p (fun f =>
      { f with openStroke := f.openStroke.map (fun o => { o with damaged := true }) })
    ((s.links.get p).rx = .hunt →
      (c.msb = true → exec (.leadByte p c) s = .next (State.settled
        { s with links := s.links.upd p (fun l => { l with rx := .collect [c] }) })) ∧
      exec (.erroredByte p) s = .next
        { s with links := s.links.upd p (fun l => { l with framingErrors := l.framingErrors + 1 }) }) ∧
    (∀ held, (s.links.get p).rx = .collect held →
      (c.msb = true → exec (.leadByte p c) s = .next (State.settled
        { s with
          links := s.links.upd p (fun l => { l with rx := .collect [c], damagedReports := l.damagedReports + 1 })
          formers := marked })) ∧
      exec (.erroredByte p) s = .next
        { s with
          links := s.links.upd p (fun l =>
            { l with rx := .hunt, damagedReports := l.damagedReports + 1, framingErrors := l.framingErrors + 1 })
          formers := marked }) ∧
    (∀ b0 b1 b2, (s.links.get p).rx = .collect [b0, b1, b2] → c.msb = false →
      keyCount (keyField b0 b1 b2 c) ≠ countField c →
      exec (.keyReport p [c]) s = .next (State.settled
        { s with
          links := s.links.upd p (fun l => { l with rx := .hunt, damagedReports := l.damagedReports + 1 })
          formers := marked }))

/-- R5, R6, R7, R16, R19, R20, R22, R25, R33, R34, R74: a break of an UP link, or 500 ms of silence, takes the link DOWN:
LAST-REPORT none, no silence interval, one more LINK-DOWNS, the latched set empty, the position DOWN unless it is OFF, and
the cause of KEYLINK-x-DOWN present. The open stroke is closed DAMAGED and counted; outside its session it is counted as
discarded too and goes nowhere; in its session it takes its number, its STROKE record enters the OPEN page or a new one, or
is refused, counted and marks it UNLOGGED, and at the LIVE or REQUESTING position it is a relay drop. With stroke-echo the
close gives a STROKE notice. The loss of the LIVE position has the hold list resolved, drops what the position had queued
and passes the floor to a REQUESTING position with its QUEUE, or leaves it VACANT; the loss of the REQUESTING position drops
what it had queued and cancels the pass. A break lasts until the line returns, and adds nothing to a link already DOWN. That
time passes up to 500 ms with the silence expiry is the model's choice (log entry 2). -/
def Obligations.LinkLossTakesThePositionDown : Prop :=
  ∀ (p : Pos) (s : State), s.calm →
    (∀ c u, (c = .breakDetected p ∧ (s.links.get p).inBreak = false ∧ (s.links.get p).link = .up ∧ u = s ∨
        c = .silenceIntervalExpiry p ∧ ∃ t0, (s.links.get p).silenceFrom = some t0 ∧ u = s.runTo t0 500000) →
      let r := s.posRec p
      let numbered : Bool := match (s.formers.get p).openStroke with
        | none => false
        | some o => o.inSession && decide (s.script.session = .opened)
      let gone : PosRec :=
        { r with
          state := .down
          queue := []
          pending := none
          relayDrops := r.relayDrops +
            BitVec.ofNat 32 (r.queue.length + r.pending.toList.length + (if numbered then 1 else 0)) }
      ∃ t, exec c s = .next t ∧
        t.links = s.links.upd p (fun l =>
          { l with
            rx := .hunt
            inBreak := decide (c = .breakDetected p) || l.inBreak
            link := .down
            lastReport := none
            silenceFrom := none
            linkDowns := l.linkDowns + 1
            damagedReports := if l.rx = .hunt then l.damagedReports else l.damagedReports + 1 }) ∧
        -- the open stroke
        t.formers = s.formers.upd p (fun f =>
          match f.openStroke with
          | none => { f with latched := 0 }
          | some _ =>
            { f with
              openStroke := none
              latched := 0
              closed := f.closed + 1
              damagedCloses := f.damagedCloses + 1
              discarded := if numbered then f.discarded else f.discarded + 1 }) ∧
        t.seqCounter = (if numbered then s.seqCounter + 1 else s.seqCounter) ∧
        (∀ o, (s.formers.get p).openStroke = some o → numbered = false → s.settings.strokeEcho = true →
          s.host.notices.length < 24 → .stroke p none o.keys o.timecode true false false ∈ t.host.noticeLine) ∧
        (∀ (o : OpenStroke) (refused : Bool) (h : Header), (s.formers.get p).openStroke = some o → numbered = true →
          s.store.header = some h →
          (let logs := s.store.state = .ready ∨ s.store.state = .fault
          let room := s.log.pages.length < 8 ∧ ∃ a, s.store.log.append = some a ∧ a < h.log.len * 256
          (refused = true ↔ ¬ (logs ∧ (s.log.openPage ≠ none ∨ room)))) →
          let record := logRecord o.keys.toNat
            (logFlags (some p) (decide (r.state = .live)) true false (decide (o.keys = 1024#23)) false) o.timecode
            s.seqCounter.toNat (s.script.sessionNumber.getD 0) 1
          (refused = false →
            t.log.unloggedCount = s.log.unloggedCount ∧
            (∀ page, s.log.openPage = some page →
              ∃ q ∈ t.log.pages, q.page = page.page ∧ ∃ more, q.records = page.records ++ record :: more) ∧
            (∀ a, s.log.openPage = none → s.store.log.append = some a →
              ∃ q ∈ t.log.pages, q.page = a ∧ ∃ more, q.records = record :: more)) ∧
          (refused = true →
            t.log.unloggedCount = s.log.unloggedCount + 1 ∧ (t.conds.get .unloggedStrokes).set = true) ∧
          (s.settings.strokeEcho = true → s.host.notices.length < 24 →
            .stroke p (some s.seqCounter) o.keys o.timecode true false refused ∈ t.host.noticeLine)) ∧
        -- the floor
        (t.posRec p).state = (if r.state = .off then .off else .down) ∧
        (r.state = .off → t.floor = s.floor) ∧
        (r.state = .shadow ∨ r.state = .down →
          t.floor = { s.floor with pos := s.floor.pos.upd p (fun r => { r with state := .down }) }) ∧
        (r.state = .live →
          t.floor =
            { s.floor with
              pos := (s.floor.pos.upd p (fun _ => gone)).upd (otherPos p) (fun x =>
                if x.state = .requesting then { x with state := .live } else x)
              state := if (s.posRec (otherPos p)).state = .requesting then .held else .vacant
              waitFrom := none
              floorLosses := s.floor.floorLosses + 1 } ∧
          (s.script.session = .opened →
            (t.conds.get .floorVacant).cause = decide ((s.posRec (otherPos p)).state ≠ .requesting)) ∧
          (s.trans.inFlight = none → t.trans.hold = []) ∧
          (s.trans.inFlight ≠ none → t.trans = { u.trans with resolvePending := true })) ∧
        (r.state = .requesting →
          t.floor =
            { s.floor with
              pos := s.floor.pos.upd p (fun _ => gone)
              state := .held
              waitFrom := none
              cancelledPasses := s.floor.cancelledPasses + 1 }) ∧
        (r.state ≠ .live → t.trans = u.trans ∧ t.script = s.script ∧ t.feeds = s.feeds) ∧
        (t.conds.get (.keyLinkDown p)).cause = true ∧
        t = { u with
          links := t.links, formers := t.formers, seqCounter := t.seqCounter, floor := t.floor, time := t.time,
          store := t.store, log := t.log, dict := t.dict, trans := t.trans, script := t.script, feeds := t.feeds,
          host := t.host, conds := t.conds }) ∧
    ((s.links.get p).inBreak = false → (s.links.get p).link = .down → (s.links.get p).rx = .hunt →
      exec (.breakDetected p) s = .next (State.settled
        { s with links := s.links.upd p (fun l => { l with inBreak := true }) })) ∧
    exec (.breakEnd p) s = .next { s with links := s.links.upd p (fun l => { l with inBreak := false }) }

/-! ### Writer positions and the floor (Section 2) -/

/-- R23, R17, R33, R34: WRITER-ENABLE refuses an unknown position or switch; ON makes an OFF position SHADOW or DOWN as its
link stands and latches the keys it shows; OFF abandons the open stroke and leaves the position OFF with nothing queued,
the loss of the LIVE position passing the floor to a REQUESTING one or leaving it VACANT, and that of the REQUESTING
position cancelling the pass; otherwise nothing changes. -/
def Obligations.WriterEnableSwitchesThePosition : Prop :=
  ∀ (tag pos sw : Byte) (s : State), s.accepts → s.calm →
    ((1 < pos.toNat ∨ 1 < sw.toNat) →
      exec (.writerEnable tag [pos, sw]) s = .next (s.replyAndTakeUp tag (.refused .badValue))) ∧
    (∀ p, posOfCode pos.toNat = some p →
      (sw = 1#8 → exec (.writerEnable tag [pos, sw]) s = .next (State.replyAndTakeUp
        (if (s.posRec p).state = .off then
          { s with
            floor := { s.floor with pos := s.floor.pos.upd p (fun r =>
              { r with state := if (s.links.get p).link = .up then .shadow else .down }) }
            formers := s.formers.upd p (fun f =>
              { f with latched := if (s.links.get p).link = .up then (s.links.get p).lastReport.getD 0 else 0 }) }
        else s) tag (.done []))) ∧
      (sw = 0#8 →
        ((s.posRec p).state = .off →
          exec (.writerEnable tag [pos, sw]) s = .next (s.replyAndTakeUp tag (.done []))) ∧
        ((s.posRec p).state = .shadow ∨ (s.posRec p).state = .down →
          exec (.writerEnable tag [pos, sw]) s = .next (State.replyAndTakeUp
            { s with
              floor := { s.floor with pos := s.floor.pos.upd p (fun r =>
                { r with state := .off, queue := [], pending := none }) }
              formers := s.formers.upd p (fun f =>
                { f with
                  openStroke := none
                  discarded := if f.openStroke = none then f.discarded else f.discarded + 1 }) } tag (.done []))) ∧
        ((s.posRec p).state = .live ∨ (s.posRec p).state = .requesting →
          ∃ t, exec (.writerEnable tag [pos, sw]) s = .next t ∧
            t.posRec p = { s.posRec p with
              state := .off
              queue := []
              pending := none
              relayDrops := (s.posRec p).relayDrops +
                BitVec.ofNat 32 ((s.posRec p).queue.length + (s.posRec p).pending.toList.length) } ∧
            ((s.posRec p).state = .live →
              t.floor.floorLosses = s.floor.floorLosses + 1 ∧ t.floor.cancelledPasses = s.floor.cancelledPasses ∧
              (if (s.posRec (otherPos p)).state = .requesting then
                t.floor.state = .held ∧ t.posRec (otherPos p) = { s.posRec (otherPos p) with state := .live }
              else t.floor.state = .vacant ∧ t.posRec (otherPos p) = s.posRec (otherPos p))) ∧
            ((s.posRec p).state = .requesting →
              t.floor.cancelledPasses = s.floor.cancelledPasses + 1 ∧ t.floor.floorLosses = s.floor.floorLosses ∧
              t.floor.state = .held ∧ t.floor.waitFrom = none ∧ t.posRec (otherPos p) = s.posRec (otherPos p) ∧
              t.trans = s.trans ∧ t.script = s.script ∧ t.feeds = s.feeds) ∧
            t.formers = s.formers.upd p (fun f =>
              { f with
                openStroke := none
                discarded := if f.openStroke = none then f.discarded else f.discarded + 1 }) ∧
            { tag := tag, result := .done [], after := .nothing } ∈ t.host.replyLine ∧
            t = { s with
              formers := t.formers, floor := t.floor, time := t.time, store := t.store, log := t.log, dict := t.dict,
              trans := t.trans, script := t.script, feeds := t.feeds, host := t.host, conds := t.conds })))

/-- R29, R27, R28, R30, R31, R33: HANDOVER is refused with no session OPEN, for an unknown position and for one that is OFF
or DOWN; a SHADOW position takes a VACANT floor, or begins a pass that completes at once at a clean boundary; the LIVE
position cancels a pass; otherwise nothing changes. When the floor-wait timer reaches floor-wait the pass is forced: the
off-going position becomes SHADOW and its QUEUE and PENDING become relay drops, the incoming position becomes LIVE with its
QUEUE, the floor is HELD with the timer stopped, FORCED-PASSES rises, and the translator resolves its hold list, at once or,
with a stroke in flight, at its finish. The model's choices: the time passes up to floor-wait with the expiry (log entry
2), and NO-SESSION is answered before BAD-VALUE (log entry 42). -/
def Obligations.HandoverMovesTheFloor : Prop :=
  (∀ (tag pos : Byte) (s : State), s.accepts → s.calm →
    (s.script.session ≠ .opened →
      exec (.handover tag [pos]) s = .next (s.replyAndTakeUp tag (.refused .noSession))) ∧
    (s.script.session = .opened →
      (1 < pos.toNat → exec (.handover tag [pos]) s = .next (s.replyAndTakeUp tag (.refused .badValue))) ∧
      (∀ p, posOfCode pos.toNat = some p →
        ((s.posRec p).state = .off ∨ (s.posRec p).state = .down →
          exec (.handover tag [pos]) s = .next (s.replyAndTakeUp tag (.refused .regionState))) ∧
        ((s.posRec p).state = .requesting ∨ (s.posRec p).state = .live ∧ s.floor.state = .held →
          exec (.handover tag [pos]) s = .next (s.replyAndTakeUp tag (.done []))) ∧
        (((s.posRec p).state = .shadow ∧ s.floor.state ≠ .passing ∨
            (s.posRec p).state = .live ∧ s.floor.state = .passing) →
          ∃ t, exec (.handover tag [pos]) s = .next t ∧
            { tag := tag, result := .done [], after := .nothing } ∈ t.host.replyLine ∧
            t = { s with
              floor := t.floor, time := t.time, store := t.store, log := t.log, dict := t.dict, host := t.host,
              conds := t.conds } ∧
            ((s.posRec p).state = .shadow → s.floor.state = .vacant →
              t.floor = { s.floor with
                pos := s.floor.pos.upd p (fun r => { r with state := .live }), state := .held, waitFrom := none }) ∧
            ((s.posRec p).state = .shadow → s.floor.state = .held → (s.posRec (otherPos p)).state = .live →
              t.floor =
                if s.trans.inFlight = none ∧ s.trans.hold = [] ∧ (s.posRec (otherPos p)).queue = [] then
                  { s.floor with
                    pos := (s.floor.pos.upd p (fun r => { r with state := .live, queue := [] })).upd (otherPos p)
                      (fun r => { r with state := .shadow })
                    state := .held
                    waitFrom := none
                    cleanPasses := s.floor.cleanPasses + 1 }
                else
                  { s.floor with
                    pos := s.floor.pos.upd p (fun r => { r with state := .requesting, queue := [] })
                    state := .passing
                    waitFrom := some s.time.now }) ∧
            ((s.posRec p).state = .live → s.floor.state = .passing →
              t.floor =
                { s.floor with
                  pos := s.floor.pos.upd (otherPos p) (fun r =>
                    { r with
                      state := .shadow
                      queue := []
                      pending := none
                      relayDrops := r.relayDrops + BitVec.ofNat 32 (r.queue.length + r.pending.toList.length) })
                  state := .held
                  waitFrom := none
                  cancelledPasses := s.floor.cancelledPasses + 1 }))))) ∧
  (∀ (t0 : LocalTime) (off on : Pos) (s : State), s.calm → s.floor.waitFrom = some t0 → s.floor.state = .passing →
    off ≠ on → (s.posRec off).state = .live → (s.posRec on).state = .requesting →
    ∃ t, exec .floorWaitExpiry s = .next t ∧
      t.floor =
        { s.floor with
          pos := (s.floor.pos.upd off (fun r =>
              { r with
                state := .shadow
                queue := []
                pending := none
                relayDrops := r.relayDrops + BitVec.ofNat 32 (r.queue.length + r.pending.toList.length) })).upd on
            (fun r => { r with state := .live })
          state := .held
          waitFrom := none
          forcedPasses := s.floor.forcedPasses + 1 } ∧
      (s.trans.inFlight = none → t.trans.hold = []) ∧
      (s.trans.inFlight ≠ none → t.trans.resolvePending = true ∧ t.trans.hold = s.trans.hold) ∧
      t = { s with
        floor := t.floor, time := t.time, store := t.store, log := t.log, dict := t.dict, trans := t.trans,
        script := t.script, feeds := t.feeds, host := t.host, conds := t.conds })

/-! ### The time base (Section 3) -/

/-- R41, R43, R48 to R51: an edge on SYNC-IN is captured; a capture older than 500 ms expires, with the re-base it deferred;
the mapping is re-based 2^31 µs after its anchor, unless a CURRENT capture defers it; PREVIOUS-SYNC becomes INVALID more
than 10 s after its capture. Nothing else changes but the time that passes up to those moments. 5 s after the last accepted
SYNC-MARK the time base is in HOLDOVER with its mapping as it was, the cause of SYNC-HOLDOVER is present, and a TIME notice
is made when the notice queue has room. That the time passes with these expiries is the model's choice (log entry 2). -/
def Obligations.TimeBaseEventsMoveTheMapping : Prop :=
  (∀ s : State,
    let rebased := fun t : TimeBase =>
      { t with
        anchorAt := t.now
        anchorCode :=
          min (t.anchorCode + (t.now - t.anchorAt).toNat * t.rate / 16777216000) 4294967295
        rebases := t.rebases + 1 }
    ((s.time.capture = .current → (s.time.now - s.time.captureAt).toNat ≤ 500000) →
      exec .syncPulse s = .next { s with time :=
        { s.time with
          captureAt := s.time.now
          capture := .current
          syncPulses := s.time.syncPulses + 1
          capturesReplaced :=
            if s.time.capture = .current then s.time.capturesReplaced + 1 else s.time.capturesReplaced } }) ∧
    (∀ u e, s.time.capture = .current → u = s.runTo s.time.captureAt 500001 →
      e = { u.time with capture := .expired } →
      exec .captureExpiry s = .next { u with time :=
        if (u.time.now - u.time.anchorAt).toNat < 2147483648 then e else rebased e }) ∧
    (∀ u, u = s.runTo s.time.anchorAt 2147483648 →
      exec .rebase s = .next { u with time := if s.time.capture = .current then u.time else rebased u.time }) ∧
    (∀ u, s.time.prevValid = true → u = s.runTo s.time.prevAt 10000001 →
      exec .previousSyncExpiry s = .next { u with time := { u.time with prevValid := false } })) ∧
  (∀ (t0 : LocalTime) (s : State), s.host.phase = .normal → s.time.holdoverFrom = some t0 →
    let u := s.runTo t0 5000000
    ∃ t, exec .holdoverExpiry s = .next t ∧
      t.time =
        { u.time with
          sync := .holdover, holdoverFrom := none, lastStamp := t.time.lastStamp, heldStamps := t.time.heldStamps } ∧
      (t.conds.get .syncHoldover).cause = true ∧
      (s.host.notices.length < 32 →
        ∃ z, .time .holdover .holdover 0 s.time.anchorCode s.time.rate s.time.steps z ∈ t.host.noticeLine) ∧
      t = { u with time := t.time, host := t.host, conds := t.conds })

/-- R44 to R47: SYNC-MARK with recorder time R is refused NO-CAPTURE without a capture and LATE for an expired one, which
is discarded; otherwise it locks an UNLOCKED time base to R, steps it to R for an error above 250 ms, and slews it for a
smaller one, by half the error, with the rate filter when PREVIOUS-SYNC is VALID and 0.2 to 10 s old. The model's choices: a
slewed anchor is limited to 32 bits (log entry 23), of an error outside 32 bits the low ones are sent (log entry 36), and
LOCK, STEP and SLEW are 0, 1 and 2 (log entry 38). -/
def Obligations.SyncMarkDisciplinesTheTimeBase : Prop :=
  ∀ (tag : Byte) (r : Nat) (s : State), s.accepts → r < 4294967296 →
    let p := s.time.captureAt
    let late := 500000 < (s.time.now - p).toNat
    let due := 2147483648 ≤ (s.time.now - s.time.anchorAt).toNat
    let code := s.time.anchorCode + (p - s.time.anchorAt).toNat * s.time.rate / 16777216000
    let e : Int := (r : Int) - (code : Int)
    let dt := (p - s.time.prevAt).toNat
    let m := (((r : Int) - (s.time.prevCode : Int)) * 16777216000 / (dt : Int)).toNat
    let q := (3 * s.time.rate + m) / 4
    let measured := s.time.prevValid = true ∧ 200000 ≤ dt ∧ dt ≤ 10000000
    (s.time.capture = .none →
      exec (.syncMark tag (be 4 r)) s = .next (State.reply
        { s with time := { s.time with syncNoCapture := s.time.syncNoCapture + 1 } } tag (.refused .noCapture))) ∧
    ((s.time.capture = .expired ∨ s.time.capture = .current ∧ late) → ¬ due →
      exec (.syncMark tag (be 4 r)) s = .next (State.reply
        { s with time := { s.time with capture := .none, syncLate := s.time.syncLate + 1 } } tag (.refused .late))) ∧
    (s.time.capture = .current → ¬ late →
      ∃ t, exec (.syncMark tag (be 4 r)) s = .next t ∧
        t = { s with time := t.time, host := t.host, conds := t.conds } ∧
        (∃ w ∈ t.host.replyLine, w.tag = tag ∧ w.result = .done
          (byte (if s.time.sync = .unlocked then 0 else if 250 < e.natAbs then 1 else 2) ::
            beSigned (if s.time.sync = .unlocked then 0 else e) ++ be 4 t.time.rate ++ [1#8])) ∧
        (t.conds.get .syncHoldover).cause = false ∧
        t.time =
          { s.time with
            anchorAt := p
            anchorCode :=
              if s.time.sync = .unlocked ∨ 250 < e.natAbs then r
              else min ((code : Int) + e.tdiv 2).toNat 4294967295
            rate :=
              if s.time.sync ≠ .unlocked ∧ e.natAbs ≤ 250 ∧ measured then max 16760439 (min 16793993 q)
              else s.time.rate
            rateUpdates :=
              if s.time.sync ≠ .unlocked ∧ e.natAbs ≤ 250 ∧ measured then s.time.rateUpdates + 1
              else s.time.rateUpdates
            rateClamps :=
              if s.time.sync ≠ .unlocked ∧ e.natAbs ≤ 250 ∧ measured ∧ (q < 16760439 ∨ 16793993 < q) then
                s.time.rateClamps + 1
              else s.time.rateClamps
            steps :=
              if s.time.sync ≠ .unlocked ∧ 250 < e.natAbs then s.time.steps + 1 else s.time.steps
            prevAt := p
            prevCode := r
            prevValid := true
            sync := .locked
            holdoverFrom := some s.time.now
            capture := .none
            syncAccepted := s.time.syncAccepted + 1
            lastStamp := t.time.lastStamp
            heldStamps := t.time.heldStamps })

/-! ### The note store (Section 4) -/

/-- R56, R57, R59 to R61, R70, R84, R197: an UNMOUNTED store whose memory is ready begins the mount with a read of the
header page. The header is valid when its mark, its version and its CRC-16 are right, its regions lie within the memory,
share no block and have their least lengths, and its timing values lie in their ranges. One that is not valid leaves the
store UNFORMATTED, with no header copy and no timing values, and completes a FORMAT-STORE with FAILED and UNFORMATTED; a
valid one is copied, the directories are empty and mount reads on. A dictionary region whose ready page is not valid stays
BLANK-NEEDED; otherwise it is READY, its whole records are entered in their order, each at the head of its bucket, and its
append point is where the scan ended. The last read makes the log region READY with LOG-APPEND after its last used page, and
the store READY, and completes a FORMAT-STORE with DONE and the region table. The model's choices: MEMORY_READY settles what
a power-on left unfinished (log entry 5) and changes nothing at a store that is not UNMOUNTED (log entry 3), the header
page, each region and the log take one read each (log entry 9), and an invalid header leaves no header copy and no timing
values (log entry 21). -/
def Obligations.MountReadsTheMemory : Prop :=
  (∀ (left : List Host.Cell) (s : State), s.calm →
    (s.store.state = .unmounted →
      exec (.memoryReady left) s = .next (State.settled
        { s with
          flash := { cells := settleOrphans s.flash.orphans left s.flash.cells, orphans := [] }
          store := { s.store with
            state := .mounting, mount := .header, job := none, waiting := s.store.waiting ++ [.mount] } })) ∧
    (s.store.state ≠ .unmounted → exec (.memoryReady left) s = .next s) ∧
    (s.store.reading = some .mount →
      (s.store.mount = .header → parseHeader (readBytes s.flash.cells 0 37) = none →
        let failed : Store :=
          { s.store with
            reading := none, state := .unformatted, mount := .idle, header := none, timing := none, log := .blank,
            j := .blank, pa := .blank, pb := .blank, formatTag := none }
        (s.store.formatTag = none → exec .readComplete s = .next (State.settled { s with store := failed })) ∧
        (∀ tag, s.store.formatTag = some tag →
          ∃ u, exec .readComplete s = .next (State.settled u) ∧
            u = { s with store := failed, host := u.host, conds := u.conds, time := u.time } ∧
            (s.host.notices.length < 32 →
              .completion tag 0x11 (some .unformatted) 1 true [] ∈ u.host.notices))) ∧
      (∀ h z, s.store.mount = .header → parseHeader (readBytes s.flash.cells 0 37) = some (h, z) →
        exec .readComplete s = .next (State.settled
          { s with
            dict := { s.dict with
              j := { s.dict.j with directory := [] }, pa := { s.dict.pa with directory := [] }
              pb := { s.dict.pb with directory := [] } }
            store := { s.store with
              reading := none, header := some h, timing := some z, mount := .dict .j
              waiting := s.store.waiting ++ [.mount] } })) ∧
      (∀ h d, s.store.mount = .dict d → s.store.header = some h →
        let base := (h.span d).start * 65536
        let limit := (h.span d).len * 65536
        let scan := scanRegion s.flash.cells base limit limit 256
        let goesOn := fun (r : Region) (torn : Nat) => Store.updRegion
          { s.store with
            reading := none
            mount := match d with
              | .j => .dict .pa
              | .pa => .dict .pb
              | .pb => .log
            waiting := s.store.waiting ++ [.mount]
            tornRecords := s.store.tornRecords + BitVec.ofNat 32 torn } d (fun _ => r)
        (readBytes s.flash.cells base (readyMark d).length ≠ readyMark d →
          exec .readComplete s = .next (State.settled { s with store := goesOn .blank 0 })) ∧
        (readBytes s.flash.cells base (readyMark d).length = readyMark d →
          exec .readComplete s = .next (State.settled
            { s with
              dict := enterAll d scan.records s.dict
              store := goesOn { state := .ready, append := some scan.append } scan.torn }))) ∧
      (∀ h, s.store.mount = .log → s.store.header = some h →
        ∃ t, exec .readComplete s = .next t ∧ t.store.state = .ready ∧ t.store.mount = .idle ∧
          t.store.log =
            { state := .ready
              append := some (match (usedPages (h.log.start * 65536) (h.log.len * 65536) s.flash.cells).getLast? with
                | none => 0
                | some page => page + 1) } ∧
          t.store.formatTag = none ∧
          (∀ tag, s.store.formatTag = some tag → s.host.notices.length < 28 →
            .completion tag 0x11 none 1 true
              ([h.log, h.j, h.pa, h.pb].flatMap (fun r => be 2 r.start ++ be 2 r.len)) ∈ t.host.noticeLine)))) ∧
  -- the header
  (∀ (bs : Bytes) (h : Header) (z : Timing), bs.length = 37 →
    let num := fun i : Nat => (bs.getD i 0).toNat * 256 + (bs.getD (i + 1) 0).toNat
    let span := fun i : Nat => ({ start := num i, len := num (i + 2) } : Span)
    let regions := [h.log, h.j, h.pa, h.pb]
    parseHeader bs = some (h, z) ↔
      bs.take 8 = [0x43#8, 0x41#8, 0x4C#8, 0x57#8, 0x49#8, 0x58#8, 0x4E#8, 0x4D#8] ∧ (bs.getD 8 0).toNat = 1 ∧
      num 35 = (crc16 (bs.take 35)).toNat ∧
      h = { capacity := num 9, log := span 11, j := span 15, pa := span 19, pb := span 23 } ∧
      z = { programMax := num 27, eraseMax := num 29, suspendLatency := num 31, resumeInterval := num 33 } ∧
      256 ≤ h.capacity ∧ h.capacity ≤ 4096 ∧
      (∀ r ∈ regions, 1 ≤ r.start ∧ r.start + r.len ≤ h.capacity) ∧
      regions.Pairwise (fun r q => ∀ b, ¬ (r.start ≤ b ∧ b < r.start + r.len ∧ q.start ≤ b ∧ b < q.start + q.len)) ∧
      16 ≤ h.log.len ∧ 4 ≤ h.j.len ∧ 4 ≤ h.pa.len ∧ 4 ≤ h.pb.len ∧
      100 ≤ z.programMax ∧ z.programMax ≤ 10000 ∧ 10 ≤ z.eraseMax ∧ z.eraseMax ≤ 10000 ∧
      1 ≤ z.suspendLatency ∧ z.suspendLatency ≤ 1000 ∧ z.resumeInterval ≤ 10000) ∧
  (crc16 [] = 0xFFFF#16 ∧ ∀ (bs : Bytes) (b : Byte), crc16 (bs ++ [b]) =
    (List.range 8).foldl (fun (r : BitVec 16) _ => if r.getLsbD 15 = true then (r <<< 1) ^^^ 0x1021#16 else r <<< 1)
      (crc16 bs ^^^ (b.setWidth 16 <<< 8))) ∧
  -- the scan
  (∀ (m : List Host.Cell) (base limit fuel off : Nat),
    let next := (off / 256 + 1) * 256
    let kind := (readByte m (base + off)).toNat
    let n := (readByte m (base + off + 1)).toNat
    let len := (readByte m (base + off + 2)).toNat
    let bytes := readBytes m (base + off) (8 + 3 * n + len)
    let whole := (kind = 1 ∨ (kind = 2 ∨ kind = 3) ∧ len = 0) ∧ 1 ≤ n ∧ n ≤ 8 ∧ len ≤ 48 ∧
      off + (8 + 3 * n + len) ≤ next ∧ sum8 bytes = 0
    (limit ≤ off → scanRegion m base limit (fuel + 1) off = ⟨[], 0, limit⟩) ∧
    (off < limit → kind = 255 →
      (off % 256 = 0 ∨ limit ≤ next ∨ readByte m (base + next) = 0xFF#8 →
        scanRegion m base limit (fuel + 1) off = ⟨[], 0, off⟩) ∧
      (off % 256 ≠ 0 → next < limit → readByte m (base + next) ≠ 0xFF#8 →
        scanRegion m base limit (fuel + 1) off = scanRegion m base limit fuel next)) ∧
    (off < limit → kind ≠ 255 →
      (whole → scanRegion m base limit (fuel + 1) off =
        (let x := scanRegion m base limit fuel (off + (8 + 3 * n + len))
        ⟨(bucketOf (ofStrokes n (bytes.drop 8)), off) :: x.records, x.torn, x.append⟩)) ∧
      (¬ whole → scanRegion m base limit (fuel + 1) off =
        (let x := scanRegion m base limit fuel next
        ⟨x.records, x.torn + 1, x.append⟩)))) ∧
  (∀ (d : Dict) (records : List (Nat × Nat)) (x : Dictionary) (b : Nat),
    ((enterAll d records x).get d).headOf b =
      (((records.filter (fun r => decide (r.1 = b))).getLast?.map Prod.snd).or ((x.get d).headOf b)) ∧
    ((x.get d).inOrder → ((enterAll d records x).get d).countOf b =
      (x.get d).countOf b + records.countP (fun r => decide (r.1 = b))) ∧
    (∀ e, e ≠ d → (enterAll d records x).get e = x.get e))

/-- R55, R65, R75: a program that ends without an error has written its bytes and no other, an erase has set every byte of
its block to FFh and no other; with an error the bytes outside the span are as before and one failure is counted, unless
its timeout was. A log page that has been programmed leaves the buffer. -/
def Obligations.EndedOperationsChangeTheirSpan : Prop :=
  ∀ (w : Work) (ran : Nat) (timedOut error : Bool) (left : List Host.Cell) (s : State), s.calm → s.flash.wf = true →
    (∀ addr data, s.store.inProgress = some { op := .program addr data, work := w, ran := ran, timedOut := timedOut } →
      ∃ t, exec (.pageProgramEnd error left) s = .next t ∧
        (∀ a, a < addr ∨ addr + data.length ≤ a → readByte t.flash.cells a = readByte s.flash.cells a) ∧
        (error = false → ∀ i, i < data.length → readByte t.flash.cells (addr + i) = data.getD i 0#8) ∧
        t.store.programFailures =
          (if error = true ∧ timedOut = false then s.store.programFailures + 1 else s.store.programFailures) ∧
        (error = false → timedOut = false → w = .logPage →
          t.log.pages.map (fun x => (x.page, x.records)) = (s.log.pages.drop 1).map (fun x => (x.page, x.records)))) ∧
    (∀ b, s.store.inProgress = some { op := .erase b, work := w, ran := ran, timedOut := timedOut } →
      ∃ t, exec (.blockEraseEnd error left) s = .next t ∧
        (∀ a, a < b * 65536 ∨ (b + 1) * 65536 ≤ a → readByte t.flash.cells a = readByte s.flash.cells a) ∧
        (error = false → ∀ a, b * 65536 ≤ a → a < (b + 1) * 65536 → readByte t.flash.cells a = 0xFF#8) ∧
        t.store.eraseFailures =
          (if error = true ∧ timedOut = false then s.store.eraseFailures + 1 else s.store.eraseFailures))

/-- R58, R65 to R67, R70, R71, R95: what follows the end of an operation. A failed log page moves with its later pages one
page on and is programmed again, once; a failed record is programmed again at the start of the next page, once; where there
is no next page, or a relocation has failed, and at a failed step of a format or a region erase, the store enters FAULT with
the work kept, regions being erased BLANK-NEEDED, and a waiting request completed with FAILED. A record that succeeds
becomes the head of its bucket, the append point moves past it, and its operation drains or goes on; the record of a
discarded operation is not entered (that its end is handled so is log entry 35, the model's choice), but the append point of
a READY region moves past it all the same. The moments at which PROGRAMS, ERASES, PREFIXES-WRITTEN and RELOCATIONS rise are
log entry 10, and that a store that enters FAULT completes STORE-RECOVER is log entry 29, the model's choices. A successful
step of a format or a region erase starts the next one; the last begins the mount, or makes the region READY. In the mount
that follows a format every region state stands as it was, ERASING: log entry 43, the model's choice. -/
def Obligations.EndedWorkIsCarriedOn : Prop :=
  ∀ (op : FlashOp) (w : Work) (ran : Nat) (timedOut error : Bool) (left : List Host.Cell) (h : Header) (c : Instr)
    (s : State), s.calm → s.store.header = some h →
    s.store.inProgress = some { op := op, work := w, ran := ran, timedOut := timedOut } →
    c = (match op with
      | .program _ _ => .pageProgramEnd error left
      | .erase _ => .blockEraseEnd error left) →
    let failed := error = true ∨ timedOut = true
    let fresh : Count := if error = true ∧ timedOut = false then 1 else 0
    let ended : Store :=
      { s.store with
        inProgress := none
        suspendAt := none
        programFailures := s.store.programFailures + (match op with
          | .program _ _ => fresh
          | .erase _ => 0)
        eraseFailures := s.store.eraseFailures + (match op with
          | .program _ _ => 0
          | .erase _ => fresh) }
    let faulted := fun (f : FailedWork) (st : Store) =>
      ({ st with
        state := .fault, failed := some f, recovering := none, logRelocated := false, recoverTag := none } : Store)
    -- a failed log page
    (failed → w = .logPage →
      (∀ page, s.store.logRelocated = false → s.log.pages.getLast? = some page → page.page + 1 < h.log.len * 256 →
        ∃ u, exec c s = .next (State.settled u) ∧
          u = { s with
            flash := { s.flash with cells := u.flash.cells }
            store := { ended with
              relocations := s.store.relocations + 1
              log := { s.store.log with append := s.store.log.append.map (· + 1) }
              logRelocated := true }
            log := { s.log with pages := s.log.pages.map (fun q => { q with page := q.page + 1 }) }
            host := u.host, conds := u.conds, time := u.time }) ∧
      (s.store.logRelocated = true ∨ (∀ page, s.log.pages.getLast? = some page → h.log.len * 256 ≤ page.page + 1) →
        ∃ u, exec c s = .next (State.settled u) ∧
          u = { s with
            flash := { s.flash with cells := u.flash.cells }
            store := faulted (.logPage (!s.store.logRelocated)) ended
            log := { s.log with flushTag := none }
            host := u.host, conds := u.conds, time := u.time } ∧
          (u.conds.get .storeFault).cause = true ∧
          (∀ tag n, s.log.flushTag = some (tag, n) → s.host.notices.length < 28 →
            .completion tag 0x14 (some (if s.store.logRelocated = true then .storeFault else .regionFull)) 1 true [] ∈
              u.host.notices))) ∧
    -- a failed dictionary record
    (∀ p, failed → w = .dictRecord p →
      let next := (p.offset / 256 + 1) * 256
      let room := next + p.data.length ≤ (h.span p.dict).len * 65536
      (p.relocated = false → room →
        let queued : Store :=
          { ended with
            relocations := s.store.relocations + 1
            dictWork := { p with offset := next, relocated := true } :: s.store.dictWork }
        let moved := fun r : Region => if r.state = .ready then { r with append := some next } else r
        ∃ u, exec c s = .next (State.settled u) ∧
          u = { s with
            flash := { s.flash with cells := u.flash.cells }
            store := Store.updRegion queued p.dict moved }) ∧
      (p.relocated = true ∨ ¬ room →
        ∃ u, exec c s = .next (State.settled u) ∧
          u = { s with
            flash := { s.flash with cells := u.flash.cells }
            store := faulted (.dictRecord p) ended
            log := { s.log with flushTag := none }
            host := u.host, conds := u.conds, time := u.time } ∧
          (u.conds.get .storeFault).cause = true)) ∧
    -- a failed step of a format or a region erase
    (failed → w = .job →
      ∃ u, exec c s = .next (State.settled u) ∧
        (∀ hd z step, s.store.job = some { kind := .format hd z, step := step } →
          u.store = { faulted .job ended with
            formatTag := none, eraseTag := none, log := .blank, j := .blank, pa := .blank, pb := .blank } ∧
          (∀ tag, s.store.formatTag = some tag → s.host.notices.length < 28 →
            .completion tag 0x11 (some .storeFault) 1 true [] ∈ u.host.notices)) ∧
        (∀ d step, s.store.job = some { kind := .region d, step := step } →
          u.store =
            Store.updRegion { faulted .job ended with formatTag := none, eraseTag := none } d (fun _ => .blank) ∧
          (∀ tag, s.store.eraseTag = some tag → s.host.notices.length < 28 →
            .completion tag 0x10 (some .storeFault) 1 true [] ∈ u.host.notices)) ∧
        (u.conds.get .storeFault).cause = true ∧ u.dict = s.dict ∧ u.log.pages = s.log.pages) ∧
    -- a record programmed
    (∀ p, ¬ failed → w = .dictRecord p →
      (p.discarded = true → s.store.recovering = none →
        ∃ u, exec c s = .next (State.settled u) ∧
          u = { s with
            flash := { s.flash with cells := u.flash.cells }
            store := Store.updRegion ended p.dict (fun r =>
              if r.state = .ready then { r with append := some (p.offset + p.data.length) } else r) }) ∧
      (∀ front o back, p.discarded = false → s.dict.staging = front ++ o :: back → o.draining = true →
        (s.dict.get o.dict).stalled = false →
        (∀ q ∈ front, q.draining = true → (s.dict.get q.dict).stalled = true) →
        ∃ t, exec c s = .next t ∧
          ((s.store.region p.dict).state = .ready →
            t.store.region p.dict = { state := .ready, append := some (p.offset + p.data.length) }) ∧
          ((s.store.region p.dict).state ≠ .ready → t.store.region p.dict = s.store.region p.dict) ∧
          (∀ b, (t.dict.get p.dict).headOf b =
            (if b = p.bucket then some p.offset else (s.dict.get p.dict).headOf b)) ∧
          ((s.dict.get p.dict).inOrder → ∀ b, (t.dict.get p.dict).countOf b =
            (s.dict.get p.dict).countOf b + (if b = p.bucket then 1 else 0)) ∧
          (∀ e, e ≠ p.dict → (t.dict.get e).directory = (s.dict.get e).directory) ∧
          t.dict.recordsProgrammed = s.dict.recordsProgrammed + 1 ∧
          t.dict.prefixesWritten = s.dict.prefixesWritten + (if p.isPrefix = true then 1 else 0) ∧
          (let shape := fun q : StagedOp => (q.dict, q.outline, q.text, q.reserves)
          (∀ j, o.next = .pfx j →
            let y := o.outline.take j
            t.dict.opsDrained = s.dict.opsDrained ∧
            t.dict.staging.map shape =
              (front ++ { o with reserves := o.reserves.erase (bucketOf y, 2 * (8 + 3 * y.length) - 1) } :: back).map
                shape) ∧
          (o.next = .entry ∨ o.next = .tombstone →
            t.dict.opsDrained = s.dict.opsDrained + 1 ∧
            t.dict.staging.map shape = (front ++ back).map shape)))) ∧
    -- a step of a format or a region erase done
    (¬ failed → w = .job → s.store.recovering = none →
      (∀ hd z step, s.store.job = some { kind := .format hd z, step := step } →
        let goesOn := fun (next : JobStep) (x : FlashOp) =>
          s.store.state = .formatting → s.store.reading = none → s.store.suspended = none →
          ∃ u, exec c s = .next (chooseFrame u) ∧
            u = { s with
              flash := { s.flash with cells := u.flash.cells }
              store := { ended with
                job := some { kind := .format hd z, step := next }
                inProgress := some { op := x, work := .job, ran := 0, timedOut := false }
                programs := s.store.programs + (match x with
                  | .program _ _ => 1
                  | .erase _ => 0)
                erases := s.store.erases + (match x with
                  | .program _ _ => 0
                  | .erase _ => 1) } }
        (∀ b, step = .erase b → b + 1 < hd.capacity → goesOn (.erase (b + 1)) (.erase (b + 1))) ∧
        (∀ b, step = .erase b → hd.capacity ≤ b + 1 → goesOn .header (.program 0 (headerBytes hd z))) ∧
        (step = .header → goesOn (.ready .j) (.program (hd.j.start * 65536) (readyMark .j))) ∧
        (step = .ready .j → goesOn (.ready .pa) (.program (hd.pa.start * 65536) (readyMark .pa))) ∧
        (step = .ready .pa → goesOn (.ready .pb) (.program (hd.pb.start * 65536) (readyMark .pb))) ∧
        (step = .ready .pb →
          ∃ u, exec c s = .next (State.settled u) ∧
            u = { s with
              flash := { s.flash with cells := u.flash.cells }
              store := { ended with
                state := .mounting, mount := .header, job := none
                waiting := s.store.waiting ++ [.mount] } })) ∧
      (∀ d step, s.store.job = some { kind := .region d, step := step } →
        (∀ b, step = .erase b →
          let next : JobStep := if b + 1 < (h.span d).start + (h.span d).len then .erase (b + 1) else .ready d
          ∃ u, exec c s = .next (State.settled u) ∧
            u = { s with
              flash := { s.flash with cells := u.flash.cells }
              store := { ended with job := some { kind := .region d, step := next } } }) ∧
        (step = .ready d →
          let ready : Region := { state := .ready, append := some 256 }
          ∃ u, exec c s = .next (State.settled u) ∧
            u = { s with
              flash := { s.flash with cells := u.flash.cells }
              store := Store.updRegion { ended with job := none, eraseTag := none } d (fun _ => ready)
              host := u.host, conds := u.conds, time := u.time } ∧
            (∀ tag, s.store.eraseTag = some tag → s.host.notices.length < 32 →
              .completion tag 0x10 none 1 true [] ∈ u.host.notices))))

/-- R63, R65, R67: an operation still BUSY when suspend-latency has passed is suspended and counted; once resume-interval
has passed the step ends with what the store takes up; an operation that runs for longer than its limit is counted as
failed and timed out, and when the same limit passes again the store enters FAULT with its work kept. The model's choices:
the time passes with the command (log entry 2); a timeout cancels a SUSPEND whose latency runs, and the operation on which
the store has entered FAULT is not acted on again (log entry 29). -/
def Obligations.OperationsSuspendAndTimeOut : Prop :=
  ∀ s : State, s.calm →
    (∀ t0 z r, s.store.suspendAt = some t0 → s.store.timing = some z → s.store.inProgress = some r →
      let u := s.runTo t0 z.suspendLatency
      exec (.suspendLatencyExpiry .busy) s = .next (State.settled
        { u with store := { u.store with
          suspendAt := none, suspended := u.store.inProgress, inProgress := none, suspends := u.store.suspends + 1 } })) ∧
    (∀ e z, s.store.sinceResume = some e → s.store.timing = some z →
      exec .resumeIntervalExpiry s = .next (State.settled (s.advance (z.resumeInterval - e)))) ∧
    (∀ op w ran z, s.store.timing = some z →
      let limit := match op with
        | .program _ _ => z.programMax
        | .erase _ => z.eraseMax * 1000
      (s.store.inProgress = some { op := op, work := w, ran := ran, timedOut := false } →
        let u := if ran < limit + 1 then s.advance (limit + 1 - ran) else s
        exec .operationTimeout s = .next (State.settled
          { u with store := { u.store with
            timeouts := u.store.timeouts + 1
            suspendAt := none
            inProgress := some { op := op, work := w, ran := 0, timedOut := true }
            programFailures := u.store.programFailures + (match op with
              | .program _ _ => 1
              | .erase _ => 0)
            eraseFailures := u.store.eraseFailures + (match op with
              | .program _ _ => 0
              | .erase _ => 1) } })) ∧
      (s.store.inProgress = some { op := op, work := w, ran := ran, timedOut := true } → w ≠ .abandoned →
        ∃ t, exec .timeoutStillBusy s = .next t ∧ t.store.state = .fault ∧ t.store.failed = some w.kept ∧
          t.store.inProgress.map (fun r => (r.op, r.work)) = some (op, .abandoned) ∧
          (t.conds.get .storeFault).cause = true))

/-- R75, R78: at log-age the OPEN page closes and waits to be programmed; LOG-FLUSH is refused as the store stands or
while another is outstanding, answered DONE when no page is occupied, and otherwise ACCEPTED, with the OPEN page closed
and every occupied page waited for. The model's choices: the time passes with the expiry (log entry 2), and the refusals are
tested in the order of the rule's table (log entry 42). -/
def Obligations.LogPagesCloseByAgeAndFlush : Prop :=
  ∀ (tag : Byte) (s : State), s.calm →
    let closed := s.log.pages.map (fun x => if x.state = .opened then { x with state := .waiting } else x)
    (∀ page, s.log.openPage = some page →
      exec .logAgeExpiry s = .next (State.settled
        { s.runTo page.since (s.settings.logAge * 1000) with log := { s.log with pages := closed } })) ∧
    (s.accepts → exec (.logFlush tag []) s = .next
      (match s.store.state with
      | .unmounted => s.replyAndTakeUp tag (.refused .notMounted)
      | .mounting => s.replyAndTakeUp tag (.refused .notMounted)
      | .unformatted => s.replyAndTakeUp tag (.refused .unformatted)
      | .fault => s.replyAndTakeUp tag (.refused .storeFault)
      | _ =>
        if s.log.flushTag ≠ none then s.replyAndTakeUp tag (.refused .busy)
        else if s.log.pages = [] then s.replyAndTakeUp tag (.done [])
        else State.replyAndTakeUp
          { s with log := { s.log with pages := closed, flushTag := some (tag, s.log.pages.length) } } tag .accepted))

/-- R77: LOG-READ is refused for a count outside 1 to 60, an index past the log region, and as the store and the region
stand; otherwise it is ACCEPTED, for as many slots as the region still has. Slots of buffered pages, one page after another,
are taken at once as they are held, an unfilled one as FFh bytes; the first page that is not buffered waits for a read. When
that read ends the slots of its page are taken from the note memory, then again those of buffered pages, up to the next page
that is not buffered. With the last slot the result gives the index, the number of slots and the slots. The layout of the
result, the index in four bytes and the count in one, is log entry 15, the model's choice. Without a header copy the index
is not tested (log entry 26), and the refusals are tested in the order of the rule's table (log entry 42): the model's
choices. -/
def Obligations.LogReadAnswersItsSlots : Prop :=
  (∀ (tag count : Byte) (index : Nat) (s : State), s.accepts → s.calm → index < 4294967296 → s.store.header = none →
    let read := Instr.logRead tag (be 4 index ++ [count])
    ((count.toNat < 1 ∨ 60 < count.toNat) → exec read s = .next (s.replyAndTakeUp tag (.refused .badValue))) ∧
    (1 ≤ count.toNat → count.toNat ≤ 60 →
      (s.store.state = .unmounted ∨ s.store.state = .mounting →
        exec read s = .next (s.replyAndTakeUp tag (.refused .notMounted))) ∧
      (s.store.state = .unformatted → exec read s = .next (s.replyAndTakeUp tag (.refused .unformatted))) ∧
      (s.store.state = .formatting → exec read s = .next (s.replyAndTakeUp tag (.refused .busy))))) ∧
  (∀ (tag count : Byte) (index : Nat) (h : Header) (s : State), s.accepts → s.calm → index < 4294967296 →
    s.store.header = some h →
    let payload := be 4 index ++ [count]
    let total := min count.toNat (h.log.len * 4096 - index)
    let buffered := fun k : Nat => ∃ page ∈ s.log.pages, page.page = k / 16
    let held := fun k : Nat => match s.log.pages.find? (fun x => decide (x.page = k / 16)) with
      | some page => page.records.getD (k % 16) (List.replicate 16 0xFF#8)
      | none => []
    ((count.toNat < 1 ∨ 60 < count.toNat) →
      exec (.logRead tag payload) s = .next (s.replyAndTakeUp tag (.refused .badValue))) ∧
    (1 ≤ count.toNat → count.toNat ≤ 60 →
      (h.log.len * 4096 ≤ index →
        exec (.logRead tag payload) s = .next (s.replyAndTakeUp tag (.refused .range))) ∧
      (index < h.log.len * 4096 →
        (s.store.state = .unmounted ∨ s.store.state = .mounting →
          exec (.logRead tag payload) s = .next (s.replyAndTakeUp tag (.refused .notMounted))) ∧
        (s.store.state = .unformatted →
          exec (.logRead tag payload) s = .next (s.replyAndTakeUp tag (.refused .unformatted))) ∧
        (s.store.state = .formatting ∨
            (s.store.state = .ready ∨ s.store.state = .fault) ∧ s.store.logRead ≠ none →
          exec (.logRead tag payload) s = .next (s.replyAndTakeUp tag (.refused .busy))) ∧
        ((s.store.state = .ready ∨ s.store.state = .fault) → s.store.logRead = none →
          (s.store.log.state ≠ .ready →
            exec (.logRead tag payload) s = .next (s.replyAndTakeUp tag (.refused .regionState))) ∧
          (s.store.log.state = .ready →
            (∀ m, m < total → (m = 0 ∨ (index + m) % 16 = 0) → (∀ i, i < m → buffered (index + i)) →
              ¬ buffered (index + m) →
              exec (.logRead tag payload) s = .next (State.replyAndTakeUp
                { s with store := { s.store with
                  logRead := some
                    { tag := tag, index := index, count := total
                      slots := (List.range m).map (fun i => held (index + i)) }
                  waiting := s.store.waiting ++ [.logRead] } } tag .accepted)) ∧
            ((∀ i, i < total → buffered (index + i)) → s.host.notices.length < 32 →
              ∃ t, exec (.logRead tag payload) s = .next t ∧
                { tag := tag, result := .accepted, after := .nothing } ∈ t.host.replyLine ∧
                .completion tag 0x13 none 1 true (be 4 index ++ byte total ::
                  ((List.range total).map (fun i => held (index + i))).flatten) ∈ t.host.noticeLine ∧
                t.store.logRead = none)))))) ∧
  -- the end of a read
  (∀ (q : LogReading) (h : Header) (s : State), s.calm → s.store.reading = some .logRead → s.store.logRead = some q →
    s.store.header = some h → q.slots.length < q.count →
    let first := q.index + q.slots.length
    let taken := q.slots.length + min (q.count - q.slots.length) (16 - first % 16)
    let buffered := fun k : Nat => ∃ page ∈ s.log.pages, page.page = k / 16
    let slot := fun k : Nat => match s.log.pages.find? (fun x => decide (x.page = k / 16)) with
      | some page => page.records.getD (k % 16) (List.replicate 16 0xFF#8)
      | none => readBytes s.flash.cells (h.log.start * 65536 + k * 16) 16
    let upTo := fun m : Nat => q.slots ++ (List.range (m - q.slots.length)).map (fun i => slot (first + i))
    (∀ m, taken ≤ m → m < q.count → (q.index + m) % 16 = 0 →
      (∀ i, taken ≤ i → i < m → buffered (q.index + i)) → ¬ buffered (q.index + m) →
      exec .readComplete s = .next (State.settled { s with store := { s.store with
        reading := none, logRead := some { q with slots := upTo m }, waiting := s.store.waiting ++ [.logRead] } })) ∧
    ((∀ i, taken ≤ i → i < q.count → buffered (q.index + i)) →
      ∃ u, exec .readComplete s = .next (State.settled u) ∧
        u = { s with
          store := { s.store with reading := none, logRead := none }
          host := u.host, conds := u.conds, time := u.time } ∧
        (s.host.notices.length < 32 →
          .completion q.tag 0x13 none 1 true (be 4 q.index ++ byte q.count :: (upTo q.count).flatten) ∈
            u.host.notices)))

/-- R66 to R68: STORE-RECOVER in any state but FAULT is answered DONE and changes nothing; in FAULT it is ACCEPTED. When the
failed work can be retried, the store leaves FAULT, for FORMATTING when the work belongs to a format, and the work is the
work being retried. A log page that has no page left to move to, or a record that has none in its region, cannot be retried:
the store stays in FAULT with the work and its place kept, and the COMPLETION is FAILED with STORE-FAULT. The success of the
retry completes STORE-RECOVER with DONE, a further failure with FAILED and STORE-FAULT in FAULT. The retry of a step that
only erases a block before its page program ends with that program. That a retry is not counted in RELOCATIONS is log entry
10, the model's choice. -/
def Obligations.StoreRecoverRetriesTheFailedWork : Prop :=
  (∀ (tag : Byte) (s : State), s.accepts → s.calm →
    (s.store.state ≠ .fault → exec (.storeRecover tag []) s = .next (s.replyAndTakeUp tag (.done []))) ∧
    (∀ f, s.store.state = .fault → s.store.failed = some f →
      (match f with
        | .logPage _ => canShift s = true
        | .dictRecord p => canMove s p = true
        | .job => True) →
      ∃ t, exec (.storeRecover tag []) s = .next t ∧
        { tag := tag, result := .accepted, after := .nothing } ∈ t.host.replyLine ∧
        (t.store.state = .formatting ↔
          f = .job ∧ ∃ h z step, s.store.job = some { kind := .format h z, step := step }) ∧
        (t.store.state = .formatting ∨ t.store.state = .ready) ∧
        t.store.failed = none ∧ t.store.recovering = some f ∧ t.store.recoverTag = some tag ∧
        (t.conds.get .storeFault).cause = false ∧ t.store.relocations = s.store.relocations ∧
        (∀ x, f = .logPage x →
          t.log.pages.map (fun q => (q.page, q.records)) = s.log.pages.map (fun q => (q.page + 1, q.records)))) ∧
    -- no page for the retry
    (∀ f kept, s.store.state = .fault → s.store.failed = some f →
      ((∃ x, f = .logPage x) ∧ canShift s = false ∧ kept = .logPage true ∨
        ∃ p, f = .dictRecord p ∧ canMove s p = false ∧ kept = f) →
      ∃ t, exec (.storeRecover tag []) s = .next t ∧
        { tag := tag, result := .accepted, after := .nothing } ∈ t.host.replyLine ∧
        t.store.state = .fault ∧ t.store.failed = some kept ∧ t.store.recovering = none ∧ t.store.recoverTag = none ∧
        t.store.inProgress = s.store.inProgress ∧ t.store.relocations = s.store.relocations ∧
        t.store.dictWork = s.store.dictWork ∧ t.store.job = s.store.job ∧ (t.conds.get .storeFault).cause = true ∧
        t.log.pages.map (fun q => (q.page, q.records)) = s.log.pages.map (fun q => (q.page, q.records)) ∧
        (s.host.notices.length < 28 →
          .completion tag 0x12 (some .storeFault) 1 true [] ∈ t.host.noticeLine))) ∧
  -- what can be retried
  (∀ s : State,
    (canShift s = true ↔ ∃ page h, s.log.pages.getLast? = some page ∧ s.store.header = some h ∧
      page.page + 1 < h.log.len * 256) ∧
    (∀ p, canMove s p = true ↔ ∃ h, s.store.header = some h ∧
      (p.offset / 256 + 1) * 256 + p.data.length ≤ (h.span p.dict).len * 65536)) ∧
  -- the end of the retry
  (∀ (op : FlashOp) (w : Work) (ran : Nat) (timedOut error : Bool) (left : List Host.Cell) (f : FailedWork) (c : Instr)
    (tag : Byte) (s : State), s.calm →
    s.store.inProgress = some { op := op, work := w, ran := ran, timedOut := timedOut } →
    c = (match op with
      | .program _ _ => .pageProgramEnd error left
      | .erase _ => .blockEraseEnd error left) →
    s.store.recovering = some f → s.store.recoverTag = some tag → s.host.notices.length < 24 →
    (w = .logPage ∧ (∃ x, f = .logPage x) ∧ s.store.logRelocated = true ∨
      (∃ p q, w = .dictRecord p ∧ f = .dictRecord q ∧ p.relocated = true) ∨ w = .job ∧ f = .job) →
    (error = true ∨ timedOut = true →
      ∃ t, exec c s = .next t ∧ t.store.state = .fault ∧ t.store.recovering = none ∧ t.store.recoverTag = none ∧
        .completion tag 0x12 (some .storeFault) 1 true [] ∈ t.host.noticeLine) ∧
    (error = false → timedOut = false →
      (∀ k, s.store.job = some k → w = .job → k.step ≠ .againHeader ∧ ∀ d, k.step ≠ .againReady d) →
      ∃ t, exec c s = .next t ∧ t.store.recovering = none ∧ t.store.recoverTag = none ∧
        .completion tag 0x12 none 1 true [] ∈ t.host.noticeLine) ∧
    (error = false → timedOut = false → w = .job →
      (∀ k, s.store.job = some k → k.step = .againHeader ∨ ∃ d, k.step = .againReady d) → s.store.job ≠ none →
      ∃ t, exec c s = .next t ∧ t.store.recovering = some .job ∧ t.store.recoverTag = some tag))

/-- R69: FORMAT-STORE is refused while a session is OPEN or CLOSING, while the store is not mounted or is FORMATTING, and
for a capacity, a region length or a timing value outside its limits; otherwise it is ACCEPTED and the store is FORMATTING:
every region ERASING, nothing waiting, nothing failed, the timing values copied, the log buffer, the directories and the
staging list empty, and the erase of block 0 its next step. That the refusals are tested in the order of the rule's table is
the model's choice (log entry 42). -/
def Obligations.FormatStoreTakesTheMemory : Prop :=
  ∀ (tag : Byte) (capacity log j pa pb programMax eraseMax latency interval : Nat) (s : State), s.accepts → s.calm →
    capacity < 65536 → log < 65536 → j < 65536 → pa < 65536 → pb < 65536 → programMax < 65536 → eraseMax < 65536 →
    latency < 65536 → interval < 65536 →
    let payload := be 2 capacity ++ be 2 log ++ be 2 j ++ be 2 pa ++ be 2 pb ++ be 2 programMax ++ be 2 eraseMax ++
      be 2 latency ++ be 2 interval
    let good := 256 ≤ capacity ∧ capacity ≤ 4096 ∧ 16 ≤ log ∧ 4 ≤ j ∧ 4 ≤ pa ∧ 4 ≤ pb ∧
      1 + log + j + pa + pb ≤ capacity ∧ 100 ≤ programMax ∧ programMax ≤ 10000 ∧ 10 ≤ eraseMax ∧ eraseMax ≤ 10000 ∧
      1 ≤ latency ∧ latency ≤ 1000 ∧ interval ≤ 10000
    (s.script.session ≠ .closed →
      exec (.formatStore tag payload) s = .next (s.replyAndTakeUp tag (.refused .sessionOpen))) ∧
    (s.script.session = .closed →
      (s.store.state = .unmounted ∨ s.store.state = .mounting →
        exec (.formatStore tag payload) s = .next (s.replyAndTakeUp tag (.refused .notMounted))) ∧
      (s.store.state = .formatting →
        exec (.formatStore tag payload) s = .next (s.replyAndTakeUp tag (.refused .busy))) ∧
      (s.store.state = .unformatted ∨ s.store.state = .ready ∨ s.store.state = .fault →
        (¬ good → exec (.formatStore tag payload) s = .next (s.replyAndTakeUp tag (.refused .badValue))) ∧
        (good → ∃ t, exec (.formatStore tag payload) s = .next t ∧
          { tag := tag, result := .accepted, after := .nothing } ∈ t.host.replyLine ∧
          t.store.state = .formatting ∧ t.store.formatTag = some tag ∧
          t.store.timing = some
            { programMax := programMax, eraseMax := eraseMax, suspendLatency := latency, resumeInterval := interval } ∧
          t.store.log = { state := .erasing, append := none } ∧
          t.store.j = { state := .erasing, append := none } ∧ t.store.pa = { state := .erasing, append := none } ∧
          t.store.pb = { state := .erasing, append := none } ∧
          t.store.job = some
            { kind := .format
                { capacity := capacity, log := ⟨1, log⟩, j := ⟨1 + log, j⟩, pa := ⟨1 + log + j, pa⟩
                  pb := ⟨1 + log + j + pa, pb⟩ }
                { programMax := programMax, eraseMax := eraseMax, suspendLatency := latency
                  resumeInterval := interval }
              step := .erase 0 } ∧
          t.store.waiting = [] ∧ t.store.dictWork = [] ∧ t.store.failed = none ∧ t.store.recovering = none ∧
          t.store.logRead = none ∧ t.store.eraseTag = none ∧ t.store.recoverTag = none ∧ t.log.flushTag = none ∧
          t.log.pages = [] ∧ t.dict.staging = [] ∧ t.dict.lookups = [] ∧ t.dict.j.directory = [] ∧
          t.dict.pa.directory = [] ∧ t.dict.pb.directory = [] ∧ (t.conds.get .storeFault).cause = false ∧
          t.flash = s.flash)))

/-- R71, R99: ERASE-REGION is refused in the order of the rule's table, with or without a header copy; otherwise it is
ACCEPTED: the region is ERASING with no append point, its directory and its staged operations are cleared, no record program
for it waits, and the erase of its first block is the next step of the erase continuation. That the refusals are tested in
that order is the model's choice (log entry 42). -/
def Obligations.EraseRegionClearsTheDictionary : Prop :=
  ∀ (tag region : Byte) (s : State), s.accepts → s.calm →
    (region.toNat = 0 ∨ 3 < region.toNat →
      exec (.eraseRegion tag [region]) s = .next (s.replyAndTakeUp tag (.refused .badValue))) ∧
    (∀ d, dictOfCode region.toNat = some d →
      (s.store.state = .unmounted ∨ s.store.state = .mounting →
        exec (.eraseRegion tag [region]) s = .next (s.replyAndTakeUp tag (.refused .notMounted))) ∧
      (s.store.state = .unformatted →
        exec (.eraseRegion tag [region]) s = .next (s.replyAndTakeUp tag (.refused .unformatted))) ∧
      (s.store.state = .fault →
        exec (.eraseRegion tag [region]) s = .next (s.replyAndTakeUp tag (.refused .storeFault))) ∧
      (s.store.state = .formatting ∨ s.store.state = .ready ∧ s.store.job ≠ none →
        exec (.eraseRegion tag [region]) s = .next (s.replyAndTakeUp tag (.refused .busy))) ∧
      (s.store.state = .ready → s.store.job = none →
        (s.script.session ≠ .closed → d = .j →
          exec (.eraseRegion tag [region]) s = .next (s.replyAndTakeUp tag (.refused .sessionOpen))) ∧
        (∀ p, s.script.session ≠ .closed → d = personal p → (s.posRec p).state ≠ .off →
          exec (.eraseRegion tag [region]) s = .next (s.replyAndTakeUp tag (.refused .regionState))) ∧
        (∀ h, s.store.header = some h →
          (s.script.session = .closed ∨ ∃ p, d = personal p ∧ (s.posRec p).state = .off) →
          ∃ t, exec (.eraseRegion tag [region]) s = .next t ∧
            { tag := tag, result := .accepted, after := .nothing } ∈ t.host.replyLine ∧
            t.store.region d = { state := .erasing, append := none } ∧ t.store.eraseTag = some tag ∧
            t.store.job = some { kind := .region d, step := .erase (h.span d).start } ∧
            (t.dict.get d).directory = [] ∧ (t.dict.get d).stalled = false ∧
            (∀ o ∈ t.dict.staging, o.dict ≠ d) ∧ (∀ l ∈ t.dict.lookups, l.dict ≠ d) ∧
            (∀ w ∈ t.store.dictWork, w.dict ≠ d) ∧ t.flash = s.flash)))

/-! ### Dictionaries (Section 5) -/

/-- R82: the number h of an outline starts at 0 and becomes (h x 31 + k) mod 2^32 at each stroke value k; the bucket is the
low twelve bits of the exclusive-or of h with the floor of h / 4096, a number from 0 to 4095, that outlines of different
lengths may share and that the prefixes of an outline generally do not. -/
def Obligations.BucketFollowsTheOutline : Prop :=
  outlineHash [] = 0 ∧
  (∀ (o : List Nat) (k : Nat), outlineHash (o ++ [k]) = (outlineHash o * 31 + k) % 4294967296) ∧
  (∀ (o : List Nat) (i : Nat), (bucketOf o).testBit i =
    (decide (i < 12) && ((outlineHash o).testBit i ^^ (outlineHash o / 4096).testBit i))) ∧
  (∀ o : List Nat, bucketOf o ≤ 4095) ∧
  bucketOf [32] = bucketOf [1, 1] ∧ bucketOf [1, 1] ≠ bucketOf [1]

/-- R85, R86, R88: ENTRY-LOOKUP is refused in the order of the rule's table; for a region that is not READY it is answered
DONE at once with no text; otherwise it is ACCEPTED, with the staging scan made, and completes at once when the bucket has
no record, or waits for the read of the bucket's newest record. A record read for it that passes its tests may decide the
text or set the longer flag when its outline is the one asked for, and the walk goes on at a LINK below it and past the
ready page; a LINK of FFFFFFFFh ends the lookup, any other LINK and a record that fails a test end it with a chain error
counted. The widths of BUCKET and of the counts and the code of DECIDED-BY in the result are log entry 15, the model's
choice. -/
def Obligations.EntryLookupScansThenWalks : Prop :=
  (∀ (tag dict : Byte) (o : List Nat) (s : State), s.accepts → s.calm → o.length < 256 → (∀ k ∈ o, k < 16777216) →
    let payload := dict :: byte o.length :: beStrokes o
    ((dict.toNat = 0 ∨ 3 < dict.toNat ∨ o = [] ∨ ∃ k ∈ o, k = 0 ∨ 8388607 < k) →
      exec (.entryLookup tag payload) s = .next (s.replyAndTakeUp tag (.refused .badValue))) ∧
    (∀ d, dictOfCode dict.toNat = some d → o ≠ [] → (∀ k ∈ o, 1 ≤ k ∧ k ≤ 8388607) →
      (8 < o.length → exec (.entryLookup tag payload) s = .next (s.replyAndTakeUp tag (.refused .tooLong))) ∧
      (o.length ≤ 8 →
        (s.store.state = .unmounted ∨ s.store.state = .mounting →
          exec (.entryLookup tag payload) s = .next (s.replyAndTakeUp tag (.refused .notMounted))) ∧
        (s.store.state = .unformatted →
          exec (.entryLookup tag payload) s = .next (s.replyAndTakeUp tag (.refused .unformatted))) ∧
        (s.store.state = .ready ∨ s.store.state = .fault ∨ s.store.state = .formatting →
          (s.dict.lookupTag ≠ none →
            exec (.entryLookup tag payload) s = .next (s.replyAndTakeUp tag (.refused .busy))) ∧
          (s.dict.lookupTag = none → (s.store.region d).state ≠ .ready →
            exec (.entryLookup tag payload) s = .next (s.replyAndTakeUp tag (.done
              ([0#8, 2#8, 0#8] ++ be 4 (bucketOf o) ++ be 4 ((s.dict.get d).countOf (bucketOf o)) ++ be 4 0)))) ∧
          (s.dict.lookupTag = none → (s.store.region d).state = .ready →
            let text := ((s.dict.staging.filter (fun x => decide (x.dict = d ∧ x.outline = o))).getLast?).map
              StagedOp.text
            let longer := s.dict.staging.any (fun x =>
              decide (x.dict = d) && x.text.isSome && decide (o.length < x.outline.length) &&
                decide (x.outline.take o.length = o))
            (∀ head, (s.dict.get d).headOf (bucketOf o) = some head →
              exec (.entryLookup tag payload) s = .next (State.replyAndTakeUp
                { s with
                  dict := { s.dict with
                    lookupTag := some tag
                    lookups := s.dict.lookups ++
                      [{ client := .request, dict := d, outline := o, bucket := bucketOf o, decided := text
                         byStaging := text.isSome, longer := longer, prefixMet := false, next := head, reads := 0 }] }
                  store := { s.store with waiting := s.store.waiting ++ [.lookup .request] } } tag .accepted)) ∧
            ((s.dict.get d).headOf (bucketOf o) = none → s.host.notices.length < 32 →
              ∃ t, exec (.entryLookup tag payload) s = .next t ∧
                { tag := tag, result := .accepted, after := .nothing } ∈ t.host.replyLine ∧
                .completion tag 0x0F none 1 true (beOpt ((text.getD none).map beText) ++
                    [byte (if text.isSome then 0 else 2), beBool longer] ++ be 4 (bucketOf o) ++
                    be 4 ((s.dict.get d).countOf (bucketOf o)) ++ be 4 0) ∈ t.host.noticeLine ∧
                t.dict.lookupTag = none)))))) ∧
  (∀ (l : Lookup) (h : Header) (s : State), s.calm → s.store.reading = some (.lookup .request) →
    s.dict.lookups.find? (fun x => decide (x.client = .request)) = some l → s.store.header = some h →
    let at_ := (h.span l.dict).start * 65536 + l.next
    let kind := (readByte s.flash.cells at_).toNat
    let n := (readByte s.flash.cells (at_ + 1)).toNat
    let size := 8 + 3 * n + (readByte s.flash.cells (at_ + 2)).toNat
    let bytes := readBytes s.flash.cells at_ size
    let link := be4At bytes 4
    let good := 1 ≤ kind ∧ kind ≤ 3 ∧ 1 ≤ n ∧ n ≤ 8 ∧ l.next + size ≤ (h.span l.dict).len * 65536 ∧ sum8 bytes = 0
    let same := ofStrokes n (bytes.drop 8) = l.outline
    let met : Lookup :=
      { l with
        reads := l.reads + 1
        decided :=
          if same ∧ kind ≠ 3 ∧ l.decided = none then some (if kind = 1 then some (bytes.drop (8 + 3 * n)) else none)
          else l.decided
        longer := l.longer || decide (same ∧ kind = 3)
        prefixMet := l.prefixMet || decide (same ∧ kind = 3) }
    let ends := fun (q : Lookup) (errors : Count) =>
      ∃ u, exec .readComplete s = .next (State.settled u) ∧
        u = { s with
          dict := { s.dict with
            recordsRead := s.dict.recordsRead + 1
            chainErrors := s.dict.chainErrors + errors
            lookupsDone := s.dict.lookupsDone + 1
            lookups := s.dict.lookups.filter (fun x => decide (x.client ≠ .request))
            lookupTag := none }
          store := { s.store with reading := none }
          host := u.host, conds := u.conds, time := u.time } ∧
        (∀ tag, s.dict.lookupTag = some tag → s.host.notices.length < 32 →
          .completion tag 0x0F none 1 true (beOpt ((q.decided.getD none).map beText) ++
              [byte (if q.byStaging = true then 0 else if q.decided.isSome = true then 1 else 2), beBool q.longer] ++
              be 4 q.bucket ++ be 4 ((s.dict.get q.dict).countOf q.bucket) ++ be 4 q.reads) ∈ u.host.notices)
    (¬ good → ends { l with reads := l.reads + 1 } 1) ∧
    (good → link = 4294967295 → ends met 0) ∧
    (good → link ≠ 4294967295 → (l.next ≤ link ∨ link < 256) → ends met 1) ∧
    (good → link ≠ 4294967295 → link < l.next → 256 ≤ link →
      exec .readComplete s = .next (State.settled
        { s with
          dict := { s.dict with
            recordsRead := s.dict.recordsRead + 1
            lookups := s.dict.lookups.map (fun x => if x.client = .request then { met with next := link } else x) }
          store := { s.store with reading := none, waiting := s.store.waiting ++ [.lookup .request] } })))

/-- R89 to R93: ENTRY-ADD and ENTRY-DELETE are refused in the order of the rules' table; one that no test refuses joins the
end of the staging list, STAGED, with a reservation for every record it may program, is counted, and is answered DONE with
the free places of the list; the store may begin to drain it in the same step. With GLOBAL on for J, each entry of the
untranslate list for the outline is rewritten, unless its unit lies in the lock, and the reply carries both counts. That
these counts and STAGING-FREE have four bytes is log entry 15, and that malformed commands leave the text without being
counted in BAD-COMMANDS is log entry 30, the model's choices. -/
def Obligations.EntryAddAndDeleteAreStaged : Prop :=
  ∀ (tag dict options : Byte) (o : List Nat) (text : Bytes) (s : State), s.accepts → s.calm →
    o.length < 256 → text.length < 256 → (∀ k ∈ o, k < 16777216) →
    let add := Instr.entryAdd tag (dict :: options :: byte o.length :: byte text.length :: (beStrokes o ++ text))
    let delete := Instr.entryDelete tag (dict :: byte o.length :: beStrokes o)
    let global := options.getLsbD 0 = true
    ((dict.toNat = 0 ∨ 3 < dict.toNat ∨ o = [] ∨ ∃ k ∈ o, k = 0 ∨ 8388607 < k) →
      exec add s = .next (s.replyAndTakeUp tag (.refused .badValue)) ∧
      exec delete s = .next (s.replyAndTakeUp tag (.refused .badValue))) ∧
    (∀ d, dictOfCode dict.toNat = some d → o ≠ [] → (∀ k ∈ o, 1 ≤ k ∧ k ≤ 8388607) →
      let prefixes := (List.range (o.length - 1)).map (fun i =>
        (bucketOf (o.take (i + 1)), 2 * (8 + 3 * (o.take (i + 1)).length) - 1))
      let adds := prefixes ++ [(bucketOf o, 2 * (8 + 3 * o.length + text.length) - 1)]
      let deletes := [(bucketOf o, 2 * (8 + 3 * o.length) - 1)]
      let region := s.store.region d
      let full := fun (rs : List (Nat × Nat)) (r : Nat × Nat) => decide
        (64 < (s.dict.get d).countOf r.1 + s.dict.bucketReserved d r.1 + rs.countP (fun q => decide (q.1 = r.1)))
      let refusal := fun rs : List (Nat × Nat) =>
        if s.store.state = .unmounted ∨ s.store.state = .mounting then some Reason.notMounted
        else if s.store.state = .unformatted then some .unformatted
        else if region.state ≠ .ready then some .regionState
        else if (s.dict.get d).stalled = true then some .regionFull
        else if 32 ≤ s.dict.staging.length then some .stagingFull
        else if rs.any (full rs) = true then some .bucketFull
        else if s.regionEnd d - region.append.getD 0 < s.dict.reservedBytes d + (rs.map Prod.snd).sum then
          some .regionFull
        else none
      let staged := fun (t : Option Bytes) (rs : List (Nat × Nat)) => s.dict.staging ++
        [{ dict := d, text := t, outline := o, draining := false, next := .entry, reserves := rs }]
      let added : Dictionary :=
        { s.dict with staging := staged (some text) adds, addsStaged := s.dict.addsStaged + 1 }
      let free := be 4 (31 - s.dict.staging.length)
      (global → d ≠ .j → exec add s = .next (s.replyAndTakeUp tag (.refused .badValue))) ∧
      (¬ global ∨ d = .j →
        (8 < o.length ∨ 48 < text.length → exec add s = .next (s.replyAndTakeUp tag (.refused .tooLong))) ∧
        (o.length ≤ 8 → text.length ≤ 48 →
          (∀ r, refusal adds = some r → exec add s = .next (s.replyAndTakeUp tag (.refused r))) ∧
          (refusal adds = none →
            (¬ global → exec add s = .next (State.replyAndTakeUp { s with dict := added } tag (.done free))) ∧
            (global → (s.trans.untranslates.map Prod.fst).Nodup →
              let same := s.trans.untranslates.filter (fun e => decide ([e.2] = o))
              let skipped := same.filter (fun e => s.script.inLock e.1)
              let rewritten := (same.filter (fun e => !s.script.inLock e.1)).map Prod.fst
              let lits := literals (pieces text)
              ∃ u : State, u = { s with
                  dict := added
                  trans := { s.trans with untranslates :=
                    s.trans.untranslates.filter (fun e => decide (e.1 ∉ rewritten)) }
                  script := { s.script with units := s.script.units.map (fun x : TUnit =>
                    if x.number ∈ rewritten then
                      { x with
                        kind := .word
                        source := .j
                        globaled := true
                        text :=
                          if x.snapshot.capNext = true then mapFirst upperByte lits
                          else if x.snapshot.lowerNext = true then mapFirst lowerByte lits
                          else lits }
                    else x) }
                  feeds := u.feeds } ∧
                exec add s = .next (u.replyAndTakeUp tag
                  (.done (free ++ be 4 rewritten.length ++ be 4 skipped.length))))))) ∧
      (8 < o.length → exec delete s = .next (s.replyAndTakeUp tag (.refused .tooLong))) ∧
      (o.length ≤ 8 →
        (∀ r, refusal deletes = some r → exec delete s = .next (s.replyAndTakeUp tag (.refused r))) ∧
        (refusal deletes = none → exec delete s = .next (State.replyAndTakeUp
          { s with dict := { s.dict with
            staging := staged none deletes, deletesStaged := s.dict.deletesStaged + 1 } } tag (.done free)))))

/-! ### The translator (Section 6) -/

/-- R107: a stroke is a number stroke when it contains # and a digit key and every key in it is #, E, U or a digit key; its
text is the digits in index order, in reverse when it contains E or U, 1 to 10 bytes; the unit has source NUMBER, and its
commit alone adds one to NUMBERS. -/
def Obligations.NumberStrokesGiveTheirDigits : Prop :=
  (∀ k : Keys, isNumberStroke k = true ↔
    k.getLsbD 0 = true ∧ (∃ i ∈ [1, 2, 4, 6, 8, 9, 13, 15, 17, 19], k.getLsbD i = true) ∧
      ∀ i, k.getLsbD i = true → i ∈ [0, 11, 12] ∨ i ∈ [1, 2, 4, 6, 8, 9, 13, 15, 17, 19]) ∧
  (∀ k : Keys, ∀ digits : Bytes,
    digits = [(1, 1), (2, 2), (4, 3), (6, 4), (8, 5), (9, 0), (13, 6), (15, 7), (17, 8), (19, 9)].filterMap
      (fun d : Nat × Nat => if k.getLsbD d.1 then some (byte (0x30 + d.2)) else none) →
    numberText k = (if k.getLsbD 11 = true ∨ k.getLsbD 12 = true then digits.reverse else digits) ∧
    (isNumberStroke k = true → 1 ≤ digits.length ∧ digits.length ≤ 10)) ∧
  (isNumberStroke 0x203#23 = true ∧ numberText 0x203#23 = [0x31#8, 0x30#8]) ∧
  (isNumberStroke 0xA03#23 = true ∧ numberText 0xA03#23 = [0x30#8, 0x31#8]) ∧
  (∀ (capPara : Bool) (labels : List Bytes) (w : Fmt) (u : ParseUnit) (x : StrokeRec), u.entry = .number →
    u.strokes = [x] →
    (formUnit capPara labels w u).kind = .number ∧ (formUnit capPara labels w u).text = numberText x.keys ∧
      (formUnit capPara labels w u).source = .number) ∧
  (∀ (n : Nat) (kind : UnitKind) (o : List Nat) (t : Translator),
    (Translator.committed n kind o t).numbers = (if kind = .number then t.numbers + 1 else t.numbers))

/-- R26, R103, R107, R108, R119, R120: the translator takes the front stroke of the LIVE queue, which a PENDING stroke then
joins. A stroke whose own bucket in J has a record is left in flight with its work list. With no dictionary to ask and
nothing held, the stroke becomes at once a unit of one stroke, a number or its steno notation, formed from BASE. The undo
stroke at an empty hold list retracts the newest unit and gives BASE its snapshot, or is blocked: by an empty transcript,
then by a newest unit that is FIRM, of the other position or of none, or in the edit lock, and then neither the transcript
nor BASE changes, and the UNDO-BLOCKED notice gives the reason and the unit. With strokes held the undo stroke is left in
flight with the hold list without its last stroke; where that is empty, every PROVISIONAL unit is retracted at once and the
hold list is empty. -/
def Obligations.StrokeTakeTakesTheFrontStroke : Prop :=
  ∀ (x : StrokeRec) (rest : List StrokeRec) (s : State), s.calm → s.script.session = .opened →
    s.trans.inFlight = none → s.floor.live = some x.pos → (s.posRec x.pos).queue = x :: rest →
    ∃ t, exec .strokeTake s = .next t ∧
      (t.posRec x.pos).queue = rest ++ (s.posRec x.pos).pending.toList ∧ (t.posRec x.pos).pending = none ∧
      t.trans.strokesTaken = s.trans.strokesTaken + 1 ∧
      (x.keys ≠ undoValue → (s.store.region .j).state = .ready →
        s.dict.j.headOf (bucketOf [x.keys.toNat]) ≠ none →
        t.trans.timer = some 0 ∧
        ∃ results, t.trans.inFlight = some { stroke := x, work := s.trans.hold ++ [x], results := results }) ∧
      (x.keys ≠ undoValue → s.trans.hold = [] → s.trans.notes = [] → (s.store.region .j).state ≠ .ready →
        (s.store.region (personal x.pos)).state ≠ .ready → (∀ u ∈ s.script.units, u.state ≠ .provisional) →
        (∀ l ∈ s.dict.lookups, l.isRun = false) →
        t.trans.hold = [] ∧ t.trans.inFlight = none ∧ t.trans.timer = none ∧
        t.trans.base = { s.trans.base with
          capNext := false, lowerNext := false, attachNext := false, paraPending := false } ∧
        t.script.nextNumber = s.script.nextNumber + 1 ∧
        ∃ u, t.script.units.getLast? = some u ∧
          u = { u with
            number := s.script.nextNumber
            kind := if isNumberStroke x.keys then .number else .untranslate
            text := if isNumberStroke x.keys then numberText x.keys else stenoText x.keys
            source := if isNumberStroke x.keys then .number else .none
            pos := some x.pos
            firstSeq := some x.seq
            outline := [x.keys.toNat]
            join := s.trans.base.attachNext
            paragraphStart := s.trans.base.paraPending
            cls := s.trans.base.cls
            speaker := s.trans.base.speaker
            timecode := x.timecode
            commitTime := some s.time.now
            snapshot := s.trans.base
            suspect := x.damaged || x.held
            unlogged := x.unlogged
            edited := false
            globaled := false }) ∧
      (x.keys = undoValue → s.trans.hold = [] → s.trans.notes = [] →
        (∀ u, s.script.units.getLast? = some u → u.state ≠ .firm → u.pos = some x.pos →
          s.script.inLock u.number = false →
          t.script.units = s.script.units.filter (fun y => decide (y.number < u.number)) ∧
          t.trans.undos = s.trans.undos + 1 ∧ t.trans.base = u.snapshot ∧ t.trans.inFlight = none ∧
          t.trans.untranslates = s.trans.untranslates.filter (fun e => decide (e.1 ≠ u.number))) ∧
        (let blocked := fun (reason : UndoBlock) (number : Option Nat) =>
          t.script.units = s.script.units ∧ t.script.nextNumber = s.script.nextNumber ∧ t.trans.base = s.trans.base ∧
          t.trans.undosBlocked = s.trans.undosBlocked + 1 ∧ t.trans.undos = s.trans.undos ∧ t.trans.inFlight = none ∧
          t.trans.untranslates = s.trans.untranslates ∧
          (s.host.notices.length < 32 → .undoBlocked x.pos x.seq reason number x.timecode ∈ t.host.noticeLine)
        (s.script.units = [] → blocked .empty none) ∧
        (∀ u, s.script.units.getLast? = some u →
          (u.state = .firm → blocked .firm (some u.number)) ∧
          (u.state ≠ .firm → u.pos ≠ some x.pos → blocked .otherPosition (some u.number)) ∧
          (u.state ≠ .firm → u.pos = some x.pos → s.script.inLock u.number = true →
            blocked .locked (some u.number))))) ∧
      (x.keys = undoValue → s.trans.hold ≠ [] →
        ((s.store.region .j).state = .ready →
          (∃ y ∈ s.trans.hold.dropLast, s.dict.j.headOf (bucketOf [y.keys.toNat]) ≠ none) →
          t.trans.timer = some 0 ∧ t.script = s.script ∧ t.trans.hold = s.trans.hold ∧
          ∃ results, t.trans.inFlight = some { stroke := x, work := s.trans.hold.dropLast, results := results }) ∧
        (∀ y front old, s.trans.hold = [y] → s.trans.notes = [] → (∀ l ∈ s.dict.lookups, l.isRun = false) →
          s.script.units = front ++ old → (∀ u ∈ front, u.state ≠ .provisional) →
          (∀ u ∈ old, u.state = .provisional) → s.script.units.Pairwise (fun a b => a.number < b.number) →
          t.script.units = front ∧ t.script.nextNumber = s.script.nextNumber ∧ t.trans.hold = [] ∧
          t.trans.inFlight = none ∧ t.trans.timer = none ∧ t.trans.base = s.trans.base ∧
          t.trans.undosInHold = s.trans.undosInHold + 1 ∧ t.trans.undos = s.trans.undos))

/-- R104 to R115, R119: the parse takes the longest run with a combined text, J's before the personal
dictionary's, or one stroke alone, and uses every stroke once; the units from the first open remainder on are PROVISIONAL.
An entry divides into literal bytes and commands, and a malformed command is removed with the bytes its case names and
counted in BAD-COMMANDS. An entry with a SPEAKER forms a SPEAKER-LABEL with the label of the last one, or "(Speaker n)"; one
with a literal byte a WORD cased and joined by the leading commands, whose trailing commands act on the next unit; one with
neither a COMMAND. A NUMBER and an UNTRANSLATE are not cased. When the read of a stroke's last lookup ends its chain, the
stroke is finished: of the PROVISIONAL units those equal to the new ones in their places are kept, the rest leave, the
remaining new units are created with the next numbers, the hold list holds the strokes of the units left PROVISIONAL, and
BASE is the state the last COMMITTED unit left. -/
def Obligations.FinishedStrokesBecomeUnits : Prop :=
  (∀ (rs : List RunResult) (p : Pos) (i j : Nat),
    combinedText rs p i j =
      (((resultFor rs i j .j).bind RunResult.text).map (fun t => (t, Dict.j))).or
        (((resultFor rs i j (personal p)).bind RunResult.text).map (fun t => (t, personal p)))) ∧
  (∀ (rs : List RunResult) (p : Pos) (i n len : Nat) (t : Bytes) (d : Dict),
    longestRun rs p i n = some (len, t, d) ↔
      1 ≤ len ∧ len ≤ n ∧ combinedText rs p i (i + len - 1) = some (t, d) ∧
        ∀ m, len < m → m ≤ n → combinedText rs p i (i + m - 1) = none) ∧
  (∀ (rs : List RunResult) (p : Pos) (i : Nat) (x : StrokeRec) (rest : List StrokeRec),
    let parse := fun (k : Nat) (work : List StrokeRec) => parseFrom rs p work.length k work
    (parse i (x :: rest)).flatMap ParseUnit.strokes = x :: rest ∧
    (∀ len t d, longestRun rs p i (min 8 (rest.length + 1)) = some (len, t, d) →
      parse i (x :: rest) =
        { start := i, strokes := (x :: rest).take len, entry := .word t d } :: parse (i + len) ((x :: rest).drop len)) ∧
    (longestRun rs p i (min 8 (rest.length + 1)) = none →
      parse i (x :: rest) =
        { start := i, strokes := [x], entry := if isNumberStroke x.keys = true then .number else .untranslate } ::
          parse (i + 1) rest)) ∧
  (∀ (rs : List RunResult) (p : Pos) (k i : Nat) (us : List ParseUnit),
    (markUnits rs p k us)[i]? = us[i]?.map (fun u =>
      (u, (us.take (i + 1)).all (fun v => !(combinedLonger rs p v.start (k - 1) && decide (k - v.start < 8)))))) ∧
  (∀ (capPara : Bool) (labels : List Bytes) (w : Fmt) (u : ParseUnit) (t : Bytes) (d : Dict),
    u.entry = .word t d → 0x1B#8 ∉ t →
    formUnit capPara labels w u =
      if t = [] then
        { kind := .command, text := [], join := false, paragraphStart := false, cls := w.cls, speaker := w.speaker
          source := dictSource d, after := w }
      else
        { kind := .word
          text := if w.capNext = true then mapFirst upperByte t else if w.lowerNext = true then mapFirst lowerByte t else t
          join := w.attachNext, paragraphStart := w.paraPending, cls := w.cls, speaker := w.speaker
          source := dictSource d
          after := { w with capNext := false, lowerNext := false, attachNext := false, paraPending := false } }) ∧
  -- the division of an entry
  (pieces [] = [] ∧ pieces [0x1B#8] = [.bad] ∧
    (∀ (b : Byte) (rest : Bytes), b ≠ 0x1B#8 → pieces (b :: rest) = .lit b :: pieces rest) ∧
    (∀ (c : Byte) (rest : Bytes), pieces (0x1B#8 :: c :: rest) =
      match c.toNat with
      | 0x43 => .cmd .capNext :: pieces rest
      | 0x4C => .cmd .lowerNext :: pieces rest
      | 0x3C => .cmd .attachLeft :: pieces rest
      | 0x3E => .cmd .attachRight :: pieces rest
      | 0x50 => .cmd .paragraph :: pieces rest
      | 0x53 => (match rest with
        | [] => [.bad]
        | a :: more =>
          (if 1 ≤ a.toNat ∧ a.toNat ≤ 32 then .cmd (.speaker a.toNat) else .bad) :: pieces more)
      | 0x4B => (match rest with
        | [] => [.bad]
        | a :: more =>
          (match a.toNat with
            | 0 => .cmd (.cls .record)
            | 1 => .cmd (.cls .bench)
            | 2 => .cmd (.cls .sealed)
            | 3 => .cmd (.cls .offRecord)
            | _ => .bad) :: pieces more)
      | _ => .bad :: pieces rest) ∧
    (∀ u : ParseUnit, u.bads = match u.entry with
      | .word t _ => (pieces t).countP (fun x => decide (x = .bad))
      | _ => 0)) ∧
  -- the commands of an entry
  (∀ (capPara : Bool) (labels : List Bytes) (w : Fmt) (u : ParseUnit) (t : Bytes) (d : Dict),
    u.entry = .word t d →
    let isLit := fun x : Piece => match x with
      | .lit _ => true
      | _ => false
    let cmds := fun ps : List Piece => ps.filterMap (fun x => match x with
      | .cmd c => some c
      | _ => none)
    let lits := (pieces t).filterMap (fun x => match x with
      | .lit b => some b
      | _ => none)
    let all := cmds (pieces t)
    let leading := cmds ((pieces t).takeWhile (fun x => !isLit x))
    let trailing := cmds ((pieces t).dropWhile (fun x => !isLit x))
    let lead := fun (f : Fmt) (c : Cmd) => match c with
      | .capNext => { f with capNext := true, lowerNext := false }
      | .lowerNext => { f with lowerNext := true, capNext := false }
      | .paragraph =>
        { f with
          paraPending := true, capNext := capPara || f.capNext, lowerNext := !capPara && f.lowerNext }
      | .speaker n => { f with speaker := n }
      | .cls c => { f with cls := c }
      | .attachLeft | .attachRight => f
    let trail := fun (f : Fmt) (c : Cmd) => if c = .attachLeft then { f with attachNext := true } else lead f c
    let attached := fun f : Fmt => { f with attachNext := f.attachNext || decide (.attachRight ∈ all) }
    let consumed := fun f : Fmt =>
      { f with capNext := false, lowerNext := false, attachNext := false, paraPending := false }
    -- SPEAKER-LABEL
    (∀ n more, all.reverse.filterMap (fun c => match c with
        | .speaker k => some k
        | _ => none) = n :: more →
      let f := all.foldl lead w
      let label := labels.getD (n - 1) []
      formUnit capPara labels w u =
        { kind := .speakerLabel
          text := if label ≠ [] then label
            else [0x28#8, 0x53#8, 0x70#8, 0x65#8, 0x61#8, 0x6B#8, 0x65#8, 0x72#8, 0x20#8] ++
              (if n < 10 then [byte (0x30 + n)] else [byte (0x30 + n / 10), byte (0x30 + n % 10)]) ++ [0x29#8]
          join := false, paragraphStart := true, cls := f.cls, speaker := n, source := dictSource d
          after := attached { consumed f with capNext := true } }) ∧
    ((∀ n, .speaker n ∉ all) →
      -- a text unit
      (lits ≠ [] →
        let f := leading.foldl lead w
        formUnit capPara labels w u =
          { kind := .word
            text := if f.capNext = true then mapFirst upperByte lits
              else if f.lowerNext = true then mapFirst lowerByte lits else lits
            join := f.attachNext || decide (.attachLeft ∈ leading), paragraphStart := f.paraPending, cls := f.cls
            speaker := f.speaker, source := dictSource d, after := attached (trailing.foldl trail (consumed f)) }) ∧
      -- a COMMAND unit
      (lits = [] →
        let f := all.foldl lead w
        formUnit capPara labels w u =
          { kind := .command, text := [], join := false, paragraphStart := false, cls := f.cls, speaker := f.speaker
            source := dictSource d, after := attached f }))) ∧
  (∀ (capPara : Bool) (labels : List Bytes) (w : Fmt) (u : ParseUnit) (x : StrokeRec) (rest : List StrokeRec),
    u.strokes = x :: rest →
    let formed := fun (kind : UnitKind) (text : Bytes) (source : Source) =>
      ({ kind := kind, text := text, join := w.attachNext, paragraphStart := w.paraPending, cls := w.cls
         speaker := w.speaker, source := source
         after := { w with capNext := false, lowerNext := false, attachNext := false, paraPending := false } } : Formed)
    (u.entry = .number → formUnit capPara labels w u = formed .number (numberText x.keys) .number) ∧
    (u.entry = .untranslate → formUnit capPara labels w u = formed .untranslate (stenoText x.keys) .none)) ∧
  -- the finish
  (∀ (l : Lookup) (first last : Nat) (d : Dict) (h : Header) (fl : InFlight) (front old : List TUnit) (s : State),
    s.calm → s.script.session = .opened → s.store.reading = some (.lookup (.run first last d)) →
    s.dict.lookups = [l] → l.client = .run first last d → s.store.header = some h → s.trans.inFlight = some fl →
    s.trans.expiryPending = false → s.trans.resolvePending = false → s.trans.notes = [] →
    s.floor.state ≠ .passing → s.script.units = front ++ old → (∀ u ∈ front, u.state ≠ .provisional) →
    (∀ u ∈ old, u.state = .provisional) → s.script.units.Pairwise (fun x y => x.number < y.number) →
    (∀ u ∈ s.script.units, u.number < s.script.nextNumber) →
    let at_ := (h.span l.dict).start * 65536 + l.next
    let kind := (readByte s.flash.cells at_).toNat
    let n := (readByte s.flash.cells (at_ + 1)).toNat
    let size := 8 + 3 * n + (readByte s.flash.cells (at_ + 2)).toNat
    let bytes := readBytes s.flash.cells at_ size
    1 ≤ kind → kind ≤ 3 → 1 ≤ n → n ≤ 8 → l.next + size ≤ (h.span l.dict).len * 65536 → sum8 bytes = 0 →
    be4At bytes 4 = 4294967295 →
    let same := ofStrokes n (bytes.drop 8) = l.outline
    let result : RunResult :=
      { first := first
        last := last
        dict := l.dict
        text := (if same ∧ kind ≠ 3 ∧ l.decided = none then
            some (if kind = 1 then some (bytes.drop (8 + 3 * n)) else none) else l.decided).getD none
        longer := l.longer || decide (same ∧ kind = 3) }
    let new := newUnits s { fl with results := fl.results ++ [result] }
    let kept := ((old.zip new).takeWhile (fun x => decide (x.2.unit =
      { x.1 with
        number := x.2.unit.number, state := x.2.unit.state, commitTime := x.2.unit.commitTime }))).length
    let row := fun (number : Nat) (x : NewUnit) =>
      (number, x.unit.kind, x.unit.outline, x.unit.text, x.unit.cls, !x.committed)
    s.script.units.length + new.length ≤ 2048 →
    ∃ t, exec .readComplete s = .next t ∧
      t.trans.inFlight = none ∧
      t.trans.hold = (new.filter (fun x => !x.committed)).flatMap NewUnit.strokes ∧
      t.trans.timer = (if t.trans.hold = [] then none else s.trans.timer) ∧
      t.trans.base = (match (new.filter NewUnit.committed).getLast? with
        | some x => x.after
        | none => s.trans.base) ∧
      t.trans.badCommands = s.trans.badCommands + BitVec.ofNat 32
        ((parseFrom (fl.results ++ [result]) fl.stroke.pos fl.work.length 0 fl.work).map ParseUnit.bads).sum ∧
      t.trans.undosInHold = (if fl.stroke.keys = undoValue then s.trans.undosInHold + 1 else s.trans.undosInHold) ∧
      t.script.nextNumber = s.script.nextNumber + (new.length - kept) ∧
      t.script.units.map (fun u => (u.number, u.kind, u.outline, u.text, u.cls, decide (u.state = .provisional))) =
        front.map (fun u => (u.number, u.kind, u.outline, u.text, u.cls, false)) ++
        ((old.zip new).take kept).map (fun x => row x.1.number x.2) ++
        (new.drop kept).mapIdx (fun i x => row (s.script.nextNumber + i) x))

/-- R117, R118, R131: when the hold timer reaches hold-time the hold list is resolved: every PROVISIONAL unit stays in its
place with its number, text, outline and class and is COMMITTED, its commit time the moment at which the expiry is due, or
FIRM where more than undo-depth units would be COMMITTED from it on; the FIRM units stay as they were, and of a COMMITTED
one only STATE may change, in the same way. BASE becomes the state the newest unit left, the list is empty, the timer stops
and HOLD-EXPIRIES rises; a pass with nothing left to relay completes. Queued notes follow the units held; in a session that
is CLOSING all units are then FIRM (R137). With a stroke in flight the resolution is left to its finish; with nothing held
nothing but time moves, and a stopped timer or a hold-time of 0 has no expiry. That the time passes with the expiry is the
model's choice (log entry 2), and so is that an expiry without a running timer changes nothing (log entry 3). -/
def Obligations.HoldExpiryCommitsTheHoldList : Prop :=
  ∀ s : State, s.calm →
    ((s.trans.timer = none ∨ s.settings.holdTime = 0) → exec .holdTimerExpiry s = .next s) ∧
    (∀ (e : Nat) (u : State), s.trans.timer = some e → s.settings.holdTime ≠ 0 →
      u = (if e < s.settings.holdTime * 1000 then s.advance (s.settings.holdTime * 1000 - e) else s) →
      (s.trans.inFlight = none → s.trans.hold = [] → exec .holdTimerExpiry s = .next (State.settled u)) ∧
      (s.trans.inFlight = none → s.trans.hold ≠ [] →
        let units := s.script.units
        let fromOn := fun x : TUnit => units.countP (fun y => decide (x.number ≤ y.number ∧ y.state ≠ .firm))
        let resolved := units.map (fun x =>
          if x.state = .firm then x
          else
            { x with
              state :=
                if (∃ y ∈ units, y.state = .provisional) ∧ s.settings.undoDepth < fromOn x then .firm else .committed
              commitTime := if x.state = .provisional then some u.time.now else x.commitTime })
        let firm := fun x : TUnit => { x with state := .firm }
        ∃ t, exec .holdTimerExpiry s = .next t ∧ t.trans.hold = [] ∧ t.trans.timer = none ∧
          t.trans.base = s.trans.after ∧ t.trans.holdExpiries = s.trans.holdExpiries + 1 ∧
          (∀ x ∈ t.script.units, x.state ≠ .provisional) ∧
          (units.Pairwise (fun x y => x.number < y.number) → units.length + s.trans.notes.length ≤ 2048 →
            (t.script.units.take units.length).map firm = resolved.map firm ∧
            t.script.units.length = units.length + s.trans.notes.length ∧
            (s.trans.notes = [] →
              t.script.units =
                if s.script.session = .closing ∧ s.script.resolved = false then resolved.map firm else resolved)) ∧
          (s.script.session = .opened → s.floor.state ≠ .passing → t.floor = s.floor) ∧
          (∀ p, s.script.session = .opened → s.floor.state = .passing → (s.posRec p).state = .live →
            (s.posRec (otherPos p)).state = .requesting →
            t.floor =
              if (s.posRec p).queue = [] then
                { s.floor with
                  pos := (s.floor.pos.upd p (fun r => { r with state := .shadow })).upd (otherPos p)
                    (fun r => { r with state := .live })
                  state := .held
                  waitFrom := none
                  cleanPasses := s.floor.cleanPasses + 1 }
              else s.floor) ∧
          t = { u with
            floor := t.floor, time := t.time, store := t.store, log := t.log, dict := t.dict, trans := t.trans
            script := t.script, feeds := t.feeds, host := t.host, conds := t.conds }) ∧
      (s.trans.inFlight ≠ none →
        exec .holdTimerExpiry s = .next (State.settled { u with trans := { u.trans with expiryPending := true } })))

/-- R123, R124: INSERT-NOTE is refused in the order of the rule's table; at an AT-REST translator with an empty note queue
the note is created at once as a COMMITTED unit of kind NOTE, and the reply carries its number, in four bytes (log entry 15,
the model's choice); its NOTE-MARK record enters the OPEN page or a new one, or is refused and counted. Otherwise it joins
the note queue. -/
def Obligations.InsertNoteMakesANote : Prop :=
  ∀ (tag code : Byte) (text : Bytes) (s : State), s.accepts → s.calm → text.length < 256 →
    let payload := code :: byte text.length :: text
    (3 < code.toNat →
      exec (.insertNote tag payload) s = .next (s.replyAndTakeUp tag (.refused .badValue))) ∧
    (∀ c, clsOfCode code.toNat = some c →
      (48 < text.length →
        exec (.insertNote tag payload) s = .next (s.replyAndTakeUp tag (.refused .tooLong))) ∧
      (text.length ≤ 48 →
        (s.script.session ≠ .opened →
          exec (.insertNote tag payload) s = .next (s.replyAndTakeUp tag (.refused .noSession))) ∧
        (s.script.session = .opened →
          (4 ≤ s.trans.notes.length →
            exec (.insertNote tag payload) s = .next (s.replyAndTakeUp tag (.refused .busy))) ∧
          (s.trans.notes.length < 4 → (s.trans.inFlight ≠ none ∨ s.trans.hold ≠ [] ∨ s.trans.notes ≠ []) →
            exec (.insertNote tag payload) s = .next (State.replyAndTakeUp
              { s with trans := { s.trans with
                notes := s.trans.notes ++ [{ tag := tag, text := text, cls := c }] } } tag .accepted)) ∧
          (s.trans.inFlight = none → s.trans.hold = [] → s.trans.notes = [] →
            ∃ t, exec (.insertNote tag payload) s = .next t ∧
              { tag := tag, result := .done (be 4 s.script.nextNumber), after := .nothing } ∈ t.host.replyLine ∧
              t.script.nextNumber = s.script.nextNumber + 1 ∧
              t.trans = { s.trans with
                notesInserted := s.trans.notesInserted + 1, untranslates := t.trans.untranslates } ∧
              (∃ u, t.script.units.getLast? = some u ∧
                u = { u with
                  number := s.script.nextNumber
                  kind := .note
                  pos := none
                  firstSeq := none
                  outline := []
                  text := text
                  join := false
                  paragraphStart := true
                  cls := c
                  speaker := s.trans.base.speaker
                  timecode := s.time.stamp
                  commitTime := some s.time.now
                  snapshot := s.trans.base
                  source := .none
                  suspect := false
                  unlogged := false
                  edited := false
                  globaled := false }) ∧
              (let mark := logRecord 0 (logFlags none false false false false false) s.time.stamp s.script.nextNumber
                s.logSession 5
              let refused := t.log.recordsRefused = s.log.recordsRefused + 1 ∧
                t.log.pages.map (fun q => (q.page, q.records)) = s.log.pages.map (fun q => (q.page, q.records))
              (s.store.state = .ready ∨ s.store.state = .fault →
                (∀ page, s.log.openPage = some page →
                  ∃ q ∈ t.log.pages, q.page = page.page ∧ q.records = page.records ++ [mark]) ∧
                (∀ h a, s.log.openPage = none → s.store.header = some h → s.store.log.append = some a →
                  (s.log.pages.length < 8 → a < h.log.len * 256 →
                    (∃ q ∈ t.log.pages, q.page = a ∧ q.records = [mark]) ∧ t.store.log.append = some (a + 1)) ∧
                  (8 ≤ s.log.pages.length ∨ h.log.len * 256 ≤ a → refused))) ∧
              (s.store.state ≠ .ready → s.store.state ≠ .fault → refused))))))

/-! ### The transcript and its sessions (Section 7) -/

/-- R132: when the oldest COMMITTED unit reaches firm-time, every COMMITTED unit that has reached it becomes FIRM and is
counted; no other unit changes. Beside the units, the time passes up to that moment (log entry 2, the model's choice) and
the feeds are told, and no other field changes; what the feeds do is not stated here. -/
def Obligations.FirmTimeMakesUnitsFirm : Prop :=
  ∀ (c : TUnit) (t0 : LocalTime) (s u : State),
    s.script.units.find? (fun x => decide (x.state = .committed)) = some c → c.commitTime = some t0 →
    u = s.runTo t0 (s.settings.firmTime * 1000000) →
    List.Pairwise (fun x y : TUnit => x.number < y.number) s.script.units →
    let due := fun x : TUnit => decide (x.state = .committed) && (match x.commitTime with
      | none => false
      | some z => decide (s.settings.firmTime * 1000000 ≤ (u.time.now - z).toNat))
    List.Pairwise (fun x y : TUnit => x.state = .committed → due y = true → due x = true) s.script.units →
    ∃ t, exec .firmTimeExpiry s = .next t ∧
      t = { u with
        script := { s.script with
          units := s.script.units.map (fun x => if due x then { x with state := .firm } else x)
          unitsFirmed := s.script.unitsFirmed + BitVec.ofNat 32 (s.script.units.countP due) }
        feeds := t.feeds }

/-- R134, R135, R27, R53: OPEN-SESSION is refused for a session number of 0 or an unknown starting position, while a
session is OPEN or CLOSING, and while the store is not READY; otherwise the transcript is empty and OPEN with the values
of the request, the sequence counter is 1, an UNLOCKED time base runs from EPOCH, the translator's lists and counts are
cleared but for the speaker table, UNLOGGED-COUNT is 0, and the starting position takes the floor if it is SHADOW. -/
def Obligations.OpenSessionStartsAfresh : Prop :=
  ∀ (tag pos : Byte) (job session epoch : Nat) (s : State), s.accepts → s.calm → job < 4294967296 → session < 65536 →
    epoch < 4294967296 →
    let payload := be 4 job ++ be 2 session ++ be 4 epoch ++ [pos]
    ((session = 0 ∨ 1 < pos.toNat) →
      exec (.openSession tag payload) s = .next (s.replyAndTakeUp tag (.refused .badValue))) ∧
    (∀ p, session ≠ 0 → posOfCode pos.toNat = some p →
      (s.script.session ≠ .closed →
        exec (.openSession tag payload) s = .next (s.replyAndTakeUp tag (.refused .sessionOpen))) ∧
      (s.script.session = .closed →
        (s.store.state = .unmounted ∨ s.store.state = .mounting ∨ s.store.state = .formatting →
          exec (.openSession tag payload) s = .next (s.replyAndTakeUp tag (.refused .notMounted))) ∧
        (s.store.state = .unformatted →
          exec (.openSession tag payload) s = .next (s.replyAndTakeUp tag (.refused .unformatted))) ∧
        (s.store.state = .fault →
          exec (.openSession tag payload) s = .next (s.replyAndTakeUp tag (.refused .storeFault))) ∧
        (s.store.state = .ready →
          ∃ t, exec (.openSession tag payload) s = .next t ∧
            t.script =
              { Transcript.reset with
                session := .opened, jobNumber := some job, sessionNumber := some session, epoch := some epoch
                startingPos := some p } ∧
            t.seqCounter = 1 ∧
            (s.time.sync = .unlocked → t.time.anchorCode = epoch ∧ t.time.anchorAt = s.time.now) ∧
            (s.time.sync ≠ .unlocked →
              t.time.anchorCode = s.time.anchorCode ∧ t.time.anchorAt = s.time.anchorAt) ∧
            t.trans =
              { Translator.reset with
                inFlight := s.trans.inFlight, hold := s.trans.hold, timer := s.trans.timer
                expiryPending := s.trans.expiryPending, resolvePending := s.trans.resolvePending
                speakers := s.trans.speakers } ∧
            t.log.unloggedCount = 0 ∧ t.feeds.agedTo = 0 ∧
            t.floor.pos.get (otherPos p) =
              { PosRec.reset with state := (s.posRec (otherPos p)).state } ∧
            t.floor.pos.get p =
              { PosRec.reset with
                state := if (s.posRec p).state = .shadow then .live else (s.posRec p).state } ∧
            t.floor.state = (if (s.posRec p).state = .shadow then .held else s.floor.state) ∧
            (t.conds.get .floorVacant).cause = decide (t.floor.state = .vacant) ∧
            (t.conds.get .syncUnlocked).cause = decide (s.time.sync = .unlocked) ∧
            (∃ z, { tag := tag, result := .done (be 4 z ++ [byte (floorCode t.floor.state),
              byte (optPosCode t.floor.live)]), after := .nothing } ∈ t.host.replyLine) ∧
            t.settings = s.settings ∧ t.flash = s.flash)))

/-- R136, R137, R35, R74, R75: CLOSE-SESSION is refused NO-SESSION while CLOSED and BUSY while CLOSING; while OPEN it is
ACCEPTED, the lock is released and open strokes leave the session. With a stroke in flight the session is CLOSING and the
resolution is left to its finish. At an AT-REST or HOLDING translator, in the same step, the units held stay in their places
and are all FIRM, those that were PROVISIONAL committed at this moment, and queued notes follow them; the floor is released,
with its FLOOR notice; its FLOOR record and then the SESSION-CLOSE record go to the OPEN page or to a new one, or are
counted as refused; no page stays OPEN, and the flush of the close waits for the pages occupied. When none is occupied, or
the store is FAULT, the session is CLOSED and the COMPLETION is sent with the session number, the number of units held,
NEXT-NUMBER, the sequence counter and UNLOGGED-COUNT. So it is at the end of the program of the last page, with DONE, and at
a failure that is not relocated, with FAILED and REGION-FULL when no page was left for the relocation, STORE-FAULT
otherwise. The model's choices: the reason of a flush that finds the store in FAULT (log entry 41), the place of the
COMPLETION among the notices of its step (log entry 11), and the widths of its data (log entry 15). -/
def Obligations.CloseSessionResolvesAndFlushes : Prop :=
  let data := fun t : State =>
    be 2 (t.script.sessionNumber.getD 0) ++ be 4 t.script.units.length ++ be 4 t.script.nextNumber ++
      be 4 t.seqCounter.toNat ++ be 4 t.log.unloggedCount.toNat
  (∀ (tag : Byte) (s : State), s.accepts → s.calm →
    (s.script.session = .closed →
      exec (.closeSession tag []) s = .next (s.replyAndTakeUp tag (.refused .noSession))) ∧
    (s.script.session = .closing →
      exec (.closeSession tag []) s = .next (s.replyAndTakeUp tag (.refused .busy))) ∧
    (s.script.session = .opened →
      ∃ t, exec (.closeSession tag []) s = .next t ∧
        { tag := tag, result := .accepted, after := .nothing } ∈ t.host.replyLine ∧
        t.script.lock = none ∧
        (∀ p, t.formers.get p =
          { s.formers.get p with
            openStroke := (s.formers.get p).openStroke.map (fun o => { o with inSession := false }) }) ∧
        (t.conds.get .floorVacant).cause = false ∧ (t.conds.get .syncUnlocked).cause = false ∧
        t = { s with
          formers := t.formers, floor := t.floor, time := t.time, store := t.store, log := t.log, dict := t.dict
          trans := t.trans, script := t.script, feeds := t.feeds, host := t.host, conds := t.conds } ∧
        (s.trans.inFlight ≠ none →
          t.script = { s.script with session := .closing, resolved := false, closeTag := some tag, lock := none } ∧
          t.trans = { s.trans with resolvePending := true } ∧ t.floor = s.floor) ∧
        (s.trans.inFlight = none →
          t.trans.hold = [] ∧ t.trans.notes = [] ∧ t.script.resolved = true ∧
          -- the units
          (∀ x ∈ t.script.units, x.state ≠ .committed) ∧
          (s.script.units.Pairwise (fun x y => x.number < y.number) →
            s.script.units.length + s.trans.notes.length ≤ 2048 →
            t.script.units.take s.script.units.length = s.script.units.map (fun x =>
              match x.state with
              | .firm => x
              | .committed => { x with state := .firm }
              | .provisional =>
                if s.trans.hold = [] then x else { x with state := .firm, commitTime := some s.time.now }) ∧
            t.script.units.length = s.script.units.length + s.trans.notes.length ∧
            ((s.trans.hold = [] → ∀ x ∈ s.script.units, x.state ≠ .provisional) →
              ∀ x ∈ t.script.units, x.state = .firm)) ∧
          -- the floor
          (let released := fun p (r : PosRec) =>
            { r with
              queue := []
              pending := none
              relayDrops := r.relayDrops + BitVec.ofNat 32 (r.queue.length + r.pending.toList.length)
              state :=
                if r.state = .live ∨ r.state = .requesting then
                  (if (s.links.get p).link = .up then .shadow else .down)
                else r.state }
          t.floor = { s.floor with
            pos := ⟨released .a s.floor.pos.a, released .b s.floor.pos.b⟩, state := .vacant, waitFrom := none }) ∧
          -- the flush
          (∀ q ∈ t.log.pages, q.state ≠ .opened) ∧
          t.script.session = (if t.log.pages = [] ∨ t.store.state = .fault then .closed else .closing) ∧
          t.log.flush = (if t.script.session = .closed then .none else .close) ∧
          t.script.closeTag = (if t.script.session = .closed then none else some tag) ∧
          (t.script.session = .closed → s.host.notices.length < 12 →
            .completion tag 0x08
              (if t.log.pages = [] then none
              else some (if s.store.failed = some (.logPage true) then .regionFull else .storeFault)) 1 true (data t) ∈
                t.host.noticeLine) ∧
          -- the records
          (s.trans.notes = [] → ∃ floorAt closeAt,
            let record := fun (value timecode : Nat) (kind : Byte) =>
              logRecord value (logFlags none false false false false false) timecode s.seqCounter.toNat
                (s.script.sessionNumber.getD 0) kind
            let released := record 9 floorAt 4
            let closes := record 0 closeAt 3
            let logs := s.store.state = .ready ∨ s.store.state = .fault
            let dropped := (s.posRec .a).queue.length + (s.posRec .a).pending.toList.length +
              ((s.posRec .b).queue.length + (s.posRec .b).pending.toList.length)
            (s.host.notices.length < 12 →
              .floor .vacant none none .release dropped floorAt ∈ t.host.noticeLine) ∧
            (∀ page, logs → s.log.openPage = some page → page.records.length ≤ 14 →
              t.log.recordsRefused = s.log.recordsRefused ∧
              ∃ q ∈ t.log.pages, q.page = page.page ∧ q.records = page.records ++ [released, closes]) ∧
            (∀ h, s.store.header = some h →
              let room := s.log.pages.length < 8 ∧ ∃ a, s.store.log.append = some a ∧ a < h.log.len * 256
              (∀ page, logs → s.log.openPage = some page → page.records.length = 15 →
                (∃ q ∈ t.log.pages, q.page = page.page ∧ q.records = page.records ++ [released]) ∧
                (room → t.log.recordsRefused = s.log.recordsRefused ∧
                  ∃ q ∈ t.log.pages, some q.page = s.store.log.append ∧ q.records = [closes]) ∧
                (¬ room → t.log.recordsRefused = s.log.recordsRefused + 1)) ∧
              (logs → s.log.openPage = none → room →
                t.log.recordsRefused = s.log.recordsRefused ∧
                ∃ q ∈ t.log.pages, some q.page = s.store.log.append ∧ q.records = [released, closes]) ∧
              (¬ logs ∨ s.log.openPage = none ∧ ¬ room → t.log.recordsRefused = s.log.recordsRefused + 2)))))) ∧
  -- the end of the flush
  (∀ (tag : Byte) (addr ran : Nat) (bytes : Bytes) (left : List Host.Cell) (x : BufPage) (rest : List BufPage) (h : Header)
    (s : State), s.host.phase = .normal → s.script.session = .closing → s.log.flush = .close →
    s.script.closeTag = some tag → s.store.state = .ready → s.store.header = some h → s.log.pages = x :: rest →
    s.store.inProgress = some { op := .program addr bytes, work := .logPage, ran := ran, timedOut := false } →
    s.host.notices.length < 24 →
    let closed := { s.script with session := .closed, closeTag := none }
    let shifts := s.store.logRelocated = false ∧ ((x :: rest).getLastD x).page + 1 < h.log.len * 256
    (∃ t, exec (.pageProgramEnd false left) s = .next t ∧
      t.log.pages.map (fun q => (q.page, q.records)) = rest.map (fun q => (q.page, q.records)) ∧
      (rest ≠ [] → t.script = s.script ∧ t.log.flush = .close) ∧
      (rest = [] → t.script = closed ∧ t.log.flush = .none ∧
        .completion tag 0x08 none 1 true (data s) ∈ t.host.noticeLine)) ∧
    (∃ t, exec (.pageProgramEnd true left) s = .next t ∧
      (shifts → t.script = s.script ∧ t.log.flush = .close ∧ t.store.state = .ready) ∧
      (¬ shifts →
        t.script = closed ∧ t.log.flush = .none ∧ t.store.state = .fault ∧
        t.log.pages.map (fun q => (q.page, q.records)) = s.log.pages.map (fun q => (q.page, q.records)) ∧
        .completion tag 0x08 (some (if s.store.logRelocated = true then .storeFault else .regionFull)) 1 true (data s) ∈
          t.host.noticeLine)))

/-! ### Feeds and the formatter (Sections 8 and 9) -/

/-- R150, R152 to R155: a unit is eligible for a feed by its tier, for a DELAYED one when it is FIRM and released, and
showable when the mask holds its class and its text is not empty. Settling changes the cursor and GAP-OWED alone. It passes
no unit that is not eligible, lies above the tail of a repaint or is showable, and no excluded text after accepted text; it
stops at the first unit that it may not pass, and there a GAP is owed when the unit's text is excluded and the newest entry
shown is of an accepted class. While a GAP is owed it goes no further, and an OFF or STALLED feed is not settled. -/
def Obligations.SettlingMovesTheCursor : Prop :=
  (∀ (v : FeedView) (u : TUnit),
    (v.eligible u = true ↔ match v.cfg.tier with
      | .live => True
      | .settled => u.state ≠ .provisional
      | .delayed => u.state = .firm ∧
          (u.number ≤ v.agedTo ∨ ∃ t, u.commitTime = some t ∧ v.cfg.delay * 1000000 ≤ (v.now - t).toNat)) ∧
    (v.showable u = true ↔ v.accepts u.cls = true ∧ u.text ≠ []) ∧
    v.accepts u.cls = v.cfg.mask.getLsbD (match u.cls with
      | .record => 0
      | .bench => 1
      | .sealed => 2
      | .offRecord => 3)) ∧
  (∀ (v : FeedView) (f : Feed),
    v.units.Pairwise (fun x y => x.number < y.number) → f.shown.Pairwise (fun x y => x.number < y.number) →
    let waits := fun u : TUnit =>
      v.eligible u = false ∨ f.state = .repaint ∧ ∃ n, f.repaintTail = some n ∧ n < u.number
    let marked := ∃ e ∈ f.shown, (∀ x ∈ f.shown, x.number ≤ e.number) ∧ v.accepts e.cls = true
    let g := settle v f
    (f.state = .off ∨ f.state = .stalled → g = f) ∧
    (f.state = .active ∨ f.state = .repaint →
      g = { f with cursor := g.cursor, gapOwed := g.gapOwed } ∧
      (f.gapOwed ≠ none → g = f) ∧
      f.cursor ≤ g.cursor ∧ (g.cursor = f.cursor ∨ ∃ u ∈ v.units, u.number = g.cursor) ∧
      (∀ u ∈ v.units, f.cursor < u.number → u.number ≤ g.cursor →
        ¬ waits u ∧ (u.text = [] ∨ v.accepts u.cls = false ∧ ¬ marked)) ∧
      (f.gapOwed = none →
        ((∀ u ∈ v.units, u.number ≤ g.cursor) → g.gapOwed = none) ∧
        (∀ u, v.units.find? (fun x => decide (g.cursor < x.number)) = some u →
          (waits u → g.gapOwed = none) ∧
          (¬ waits u → u.text ≠ [] ∧ (v.accepts u.cls = true → g.gapOwed = none) ∧
            (v.accepts u.cls = false → marked ∧ g.gapOwed = some (u.cls, u.number)))))))

/-- R150, R153, R156, R157, R162: a delivering feed owes CLEAR, REPAINT-BEGIN, its oldest change note, GAP, REPAINT-END and
ADD in this order, and nothing else; the frame carries what the rule names, a REPLACE the unit as it stands, and forming it
changes the record as the rule says: the cursor and SHOWN with a GAP or an ADD. From a record in the form that every step
keeps, a DELAYED feed is sent no retraction, confirmation, replacement or redaction and no unit that is not FIRM and
released, a SETTLED feed no PROVISIONAL unit, and no feed the text of a unit whose class its mask excludes. -/
def Obligations.FeedsOweFramesInOrder : Prop :=
  ∀ (v : FeedView) (f : Feed),
    let above := v.units.find? (fun u => decide (f.cursor < u.number))
    let sends := fun (frame : Frame) (g : Feed) => owedFrame v f = some (frame, g)
    let noted := fun rest : List ChangeNote => { f with changes := rest, notesSent := f.notesSent + 1 }
    let ended := f.state = .repaint ∧ ∀ u, above = some u → ∃ n, f.repaintTail = some n ∧ n < u.number
    let adds := fun u : TUnit => v.eligible u = true ∧ v.accepts u.cls = true ∧ u.text ≠ []
    (f.state = .off ∨ f.state = .stalled → owedFrame v f = none) ∧
    (f.state = .active ∨ f.state = .repaint →
      (f.clearOwed = true → sends .clear { f with clearOwed := false }) ∧
      (f.clearOwed = false →
        (∀ n, f.beginOwed = true → f.repaintTail = some n → sends (.repaintBegin n) { f with beginOwed := false }) ∧
        (f.beginOwed = false →
          (∀ n rest, f.changes = .retractFrom n :: rest → sends (.retractFrom n) (noted rest)) ∧
          (∀ n rest, f.changes = .redact n :: rest → sends (.redact n) (noted rest)) ∧
          (∀ n rest, f.changes = .confirm n :: rest → sends (.confirm n) (noted rest)) ∧
          (∀ n rest u, f.changes = .replace n :: rest → v.units.find? (fun x => decide (x.number = n)) = some u →
            sends (.replace n u.cls u.join u.text) (noted rest)) ∧
          (f.changes = [] →
            (∀ c n, f.gapOwed = some (c, n) →
              sends (.gap c n)
                { f with
                  cursor := n
                  shown := f.shown ++ [{ number := n, kind := .gap, cls := c }]
                  gapOwed := none
                  gapsSent := f.gapsSent + 1 }) ∧
            (f.gapOwed = none →
              (ended → sends .repaintEnd { f with state := .active, repaintTail := none }) ∧
              (¬ ended →
                (∀ u, above = some u → adds u →
                  sends (.add u.number u.cls u.speaker u.join u.paragraphStart (decide (u.state = .provisional)) u.suspect
                      u.text)
                    { f with
                      cursor := u.number
                      shown := f.shown ++ [{
                        number := u.number, cls := u.cls
                        kind := if u.state = .provisional then .provisional else .final }]
                      addsSent := f.addsSent + 1 }) ∧
                ((∀ u, above = some u → ¬ adds u) → owedFrame v f = none))))))) ∧
    (f.truthful v → ∀ frame g, sends frame g →
      (v.cfg.tier = .delayed →
        ∀ n, frame ≠ .retractFrom n ∧ frame ≠ .redact n ∧ frame ≠ .confirm n ∧ ∀ c j t, frame ≠ .replace n c j t) ∧
      (∀ n c j t, frame = .replace n c j t →
        v.accepts c = true ∧ ∃ u ∈ v.units, u.number = n ∧ u.cls = c ∧ u.join = j ∧ u.text = t) ∧
      (∀ n c sp j par prov sus t, frame = .add n c sp j par prov sus t →
        v.accepts c = true ∧ t ≠ [] ∧ (v.cfg.tier = .settled → prov = false) ∧
        ∃ u ∈ v.units, u.number = n ∧ u.cls = c ∧ u.text = t ∧ (prov = true ↔ u.state = .provisional) ∧
          (v.cfg.tier = .delayed → u.state = .firm ∧ v.released u = true)))

/-- R129, R151, R157 to R160, R163, R167: what a report of the transcript manager does to each feed. A delivering LIVE or
SETTLED feed takes the retracted units off SHOWN, lowers its cursor and raises RETRACT-FROM; raises REPLACE for a unit it
has been sent, or REDACT when the new class is excluded; a LIVE feed confirms what it has shown as PROVISIONAL; a DELAYED
feed is only settled. The old class that RECLASSIFIED carries makes no difference. A raised note is merged with the queued
ones and appended, or, where the list would hold 17, the feed overflows and a repaint begins. A freed unit leaves SHOWN and
the list, or laps the feed, which then repaints. CLEARED empties the record and owes CLEAR. A STALLED feed keeps its cursor
right and nothing else; an OFF feed is left alone. -/
def Obligations.ReportsReachTheFeeds : Prop :=
  (∀ (r : Report) (s : State) (i : FeedId),
    (report r s).feeds.feeds.get i = onReport (s.view i) r (s.feeds.feeds.get i) ∧
    report r s = { s with feeds := { s.feeds with feeds := (report r s).feeds.feeds } }) ∧
  (∀ (v : FeedView) (f : Feed) (n : Nat) (old : Cls),
    let repainted := fun g : Feed => settle v
      { g with
        changes := [], shown := [], gapOwed := none, cursor := repaintCursor v, repaintTail := some (repaintEndsAt v)
        state := .repaint, beginOwed := true, repaints := g.repaints + 1 }
    let raised := fun (kept : List ChangeNote) (note : ChangeNote) (g : Feed) =>
      if kept.length ≤ 15 then { g with changes := kept ++ [note] }
      else repainted { g with overflows := g.overflows + 1 }
    let lowered := { f with cursor := if n ≤ f.cursor then n - 1 else f.cursor }
    let sent := ∃ e ∈ f.shown, e.number = n ∧ (e.kind = .provisional ∨ e.kind = .final)
    let forgotten :=
      { f with
        shown := f.shown.filter (fun e => decide (e.number ≠ n))
        changes := f.changes.filter (fun q => decide (q ≠ .replace n) && decide (q ≠ .redact n)) }
    let lapped :=
      { f with cursor := n, laps := f.laps + 1, shown := f.shown.filter (fun e => decide (e.number ≠ n)) }
    let cleared :=
      { f with changes := [], shown := [], gapOwed := none, beginOwed := false, repaintTail := none, cursor := 0 }
    -- OFF and STALLED
    (f.state = .off → ∀ r, onReport v r f = f) ∧
    (f.state = .stalled →
      (∀ r ∈ [Report.added n, .committed n, .firmed n, .replaced n, .reclassified n old], onReport v r f = f) ∧
      onReport v (.retractedFrom n) f = lowered ∧
      onReport v (.freed n) f = (if n ≤ f.cursor then forgotten else lapped) ∧
      onReport v .cleared f = { cleared with clearOwed := false }) ∧
    (f.state = .active ∨ f.state = .repaint →
      onReport v (.added n) f = settle v f ∧ onReport v (.firmed n) f = settle v f ∧
      -- COMMITTED
      (let confirmed :=
        { f with shown := f.shown.map (fun e =>
            if e.number ≤ n ∧ e.kind = .provisional then { e with kind := .final } else e) }
      let others := f.changes.filter (fun q => match q with
        | .confirm _ => false
        | _ => true)
      let any := ∃ e ∈ f.shown, e.number ≤ n ∧ e.kind = .provisional
      (v.cfg.tier = .live ∧ any → onReport v (.committed n) f = settle v (raised others (.confirm n) confirmed)) ∧
      (v.cfg.tier ≠ .live ∨ ¬ any → onReport v (.committed n) f = settle v f)) ∧
      -- RETRACTED-FROM
      (let kept := f.changes.filterMap (fun q => match q with
        | .confirm m => if m < n then some (.confirm m) else if n = 1 then none else some (.confirm (n - 1))
        | .retractFrom m => if m < n then some (.retractFrom m) else none
        | .replace m => if m < n then some (.replace m) else none
        | .redact m => if m < n then some (.redact m) else none)
      let any := ∃ e ∈ f.shown, n ≤ e.number
      (v.cfg.tier = .delayed → onReport v (.retractedFrom n) f = settle v f) ∧
      (v.cfg.tier ≠ .delayed → any → onReport v (.retractedFrom n) f = settle v (raised kept (.retractFrom n)
        { lowered with shown := f.shown.filter (fun e => decide (e.number < n)) })) ∧
      (v.cfg.tier ≠ .delayed → ¬ any → onReport v (.retractedFrom n) f = settle v lowered)) ∧
      -- REPLACED
      (v.cfg.tier = .delayed ∨ ¬ sent ∨ .replace n ∈ f.changes → onReport v (.replaced n) f = settle v f) ∧
      (v.cfg.tier ≠ .delayed → sent → .replace n ∉ f.changes →
        onReport v (.replaced n) f = settle v (raised f.changes (.replace n) f)) ∧
      -- RECLASSIFIED
      (∀ u, v.units.find? (fun x => decide (x.number = n)) = some u →
        let shown := fun redacted : Bool => f.shown.map (fun e =>
          if e.number = n then { e with cls := u.cls, kind := if redacted then .redacted else e.kind } else e)
        (v.cfg.tier = .delayed ∨ ¬ sent → onReport v (.reclassified n old) f = settle v f) ∧
        (v.cfg.tier ≠ .delayed → sent →
          (v.accepts u.cls = true → .replace n ∈ f.changes →
            onReport v (.reclassified n old) f = settle v { f with shown := shown false }) ∧
          (v.accepts u.cls = true → .replace n ∉ f.changes →
            onReport v (.reclassified n old) f = settle v (raised f.changes (.replace n) { f with shown := shown false })) ∧
          (v.accepts u.cls = false →
            onReport v (.reclassified n old) f = settle v
              (raised (f.changes.filter (fun q => decide (q ≠ .replace n))) (.redact n)
                { f with shown := shown true })))) ∧
      -- FREED and CLEARED
      (n ≤ f.cursor → onReport v (.freed n) f = settle v forgotten) ∧
      (f.cursor < n → onReport v (.freed n) f = repainted lapped) ∧
      onReport v .cleared f =
        settle v { cleared with state := .active, clearOwed := true, clears := f.clears + 1 }))

/-- R154: the release timer of a delivering DELAYED feed runs on the first held unit above its cursor while that unit is
FIRM and above AGED-TO; when it expires the feed is settled at that moment, and the unit is then released. AGED-TO becomes
the number of the highest held unit above it that has reached 120 s, and every feed is settled. That the time passes up to
the due moment with the expiry, that an overdue one acts at once and that an expiry whose timer does not run changes nothing
is the model's choice (log entry 2). -/
def Obligations.TimedReleasesSettleTheFeeds : Prop :=
  ∀ (t0 : LocalTime) (s : State),
    (∀ i u, releaseUnit (s.view i) (s.feeds.feeds.get i) = some u ↔
      ((s.feeds.feeds.get i).state = .active ∨ (s.feeds.feeds.get i).state = .repaint) ∧
        (s.settings.feed.get i).tier = .delayed ∧ u.state = .firm ∧ s.feeds.agedTo < u.number ∧
        s.script.units.find? (fun x => decide ((s.feeds.feeds.get i).cursor < x.number)) = some u) ∧
    (∀ i, releaseUnit (s.view i) (s.feeds.feeds.get i) = none → exec (.releaseTimerExpiry i) s = .next s) ∧
    (∀ i u v, releaseUnit (s.view i) (s.feeds.feeds.get i) = some u → u.commitTime = some t0 →
      v = s.runTo t0 ((s.settings.feed.get i).delay * 1000000) →
      exec (.releaseTimerExpiry i) s = .next
        { v with feeds := { v.feeds with feeds := v.feeds.feeds.upd i (settle (v.view i)) } } ∧
      ((s.settings.feed.get i).delay ≤ 120 → (v.view i).eligible u = true)) ∧
    (∀ v w, (s.script.units.filter (fun u : TUnit => decide (s.feeds.agedTo < u.number))).findSome? TUnit.commitTime = some t0 →
      v = s.runTo t0 120000000 →
      w = { v with feeds := { v.feeds with
        agedTo := match (s.script.units.filter (fun u : TUnit =>
            decide (s.feeds.agedTo < u.number) && u.aged v.time.now 120000000)).getLast? with
          | some u => u.number
          | none => s.feeds.agedTo } } →
      exec .agedToExpiry s = .next
        { w with feeds := { w.feeds with feeds := w.feeds.feeds.mapId (fun i f => settle (w.view i) f) } })

/-- R164, R161: FEED-REPAINT of a number that is no feed is refused BAD-VALUE, of an OFF feed REGION-STATE, of a STALLED
feed BUSY; otherwise the repaint begins: nothing queued or shown, the delivered cursor before the DEPTH-th most recent of
the units that are eligible and showable, or before the head when fewer are held, the tail at the newest eligible unit,
REPAINT-BEGIN owed, and the feed settled. Feed 0 has DEPTH 2048. -/
def Obligations.FeedRepaintBeginsARepaint : Prop :=
  State.reset.settings.feed.f0.depth = 2048 ∧
  (∀ v : FeedView, v.units.Pairwise (fun x y => x.number < y.number) → 1 ≤ v.cfg.depth →
    let shows := fun u : TUnit => v.eligible u && v.showable u
    (∀ u ∈ v.units, shows u = true →
      v.units.countP (fun x => shows x && decide (u.number ≤ x.number)) = v.cfg.depth →
      repaintCursor v = u.number - 1) ∧
    (v.units.countP shows < v.cfg.depth →
      repaintCursor v = match v.units with
        | u :: _ => u.number - 1
        | [] => v.nextNumber - 1) ∧
    (∀ u ∈ v.units, v.eligible u = true → (∀ x ∈ v.units, u.number < x.number → v.eligible x = false) →
      repaintEndsAt v = u.number) ∧
    ((∀ u ∈ v.units, v.eligible u = false) → repaintEndsAt v = repaintCursor v)) ∧
  (∀ (v : FeedView) (f : Feed), beginRepaint v f = settle v
    { f with
      changes := [], shown := [], gapOwed := none, cursor := repaintCursor v, repaintTail := some (repaintEndsAt v)
      state := .repaint, beginOwed := true, repaints := f.repaints + 1 }) ∧
  ∀ (tag n : Byte) (s : State), s.accepts →
    (4 < n.toNat → exec (.feedRepaint tag [n]) s = .next (s.reply tag (.refused .badValue))) ∧
    (∀ i, feedOfNum n.toNat = some i →
      ((s.feeds.feeds.get i).state = .off →
        exec (.feedRepaint tag [n]) s = .next (s.reply tag (.refused .regionState))) ∧
      ((s.feeds.feeds.get i).state = .stalled →
        exec (.feedRepaint tag [n]) s = .next (s.reply tag (.refused .busy))) ∧
      ((s.feeds.feeds.get i).state = .active ∨ (s.feeds.feeds.get i).state = .repaint →
        exec (.feedRepaint tag [n]) s = .next (State.reply
          { s with feeds := { s.feeds with feeds := s.feeds.feeds.upd i (fun f => settle (s.view i)
            { f with
              changes := []
              shown := []
              gapOwed := none
              cursor := repaintCursor (s.view i)
              repaintTail := some (repaintEndsAt (s.view i))
              state := .repaint
              beginOwed := true
              repaints := f.repaints + 1 }) } } tag (.done []))))

/-- R171 to R173, R175: a feed of a display port requests while it owes a frame, its port is RUNNING and fewer than 4 frames
are in WINDOW, feed 0 while it owes a frame and the TEXT place is empty, the LOW member while a feed of the LOW list
requests. The grant goes to the first requesting member of the HIGH list, which moves to its end; where that is the LOW
member, it goes to the first requesting feed of the LOW list, which moves to the end of that list; where no member requests
there is no grant, and that a GRANT then changes nothing is the model's choice (log entry 3). The frame the feed owes is
formed and enters the window of its port with the next sequence number, or the TEXT place of the host link. The end of a
frame of the window marks it SENT, and the line begins its next frame. -/
def Obligations.GrantsHandOnOwedFrames : Prop :=
  ∀ s : State, s.host.phase = .normal →
    -- who requests
    (∀ p, requests s (portFeed p) = true ↔
      (owedFrame (s.view (portFeed p)) (s.feeds.feeds.get (portFeed p))).isSome = true ∧
        (s.ports.get p).state = .running ∧ (s.ports.get p).window.length < 4) ∧
    (requests s .f0 = true ↔
      (owedFrame (s.view .f0) (s.feeds.feeds.get .f0)).isSome = true ∧ s.host.textPlace = none) ∧
    (∀ i, memberRequests s (.feed i) = requests s i) ∧
    (memberRequests s .low = true ↔ ∃ i ∈ s.fmt.low, requests s i = true) ∧
    -- the grant
    (nextGrant s = none → exec .grant s = .next s) ∧
    (∀ front i back, s.fmt.high = front ++ .feed i :: back → (∀ m ∈ front, memberRequests s m = false) →
      requests s i = true → nextGrant s = some (i, .feed i)) ∧
    (∀ front i back lowFront lowBack, s.fmt.high = front ++ .low :: back → (∀ m ∈ front, memberRequests s m = false) →
      s.fmt.low = lowFront ++ i :: lowBack → (∀ j ∈ lowFront, requests s j = false) → requests s i = true →
      nextGrant s = some (i, .low)) ∧
    ((∀ i, .feed i ∈ s.fmt.high → requests s i = false) →
      (.low ∈ s.fmt.high → ∀ i ∈ s.fmt.low, requests s i = false) → nextGrant s = none) ∧
    (∀ i m f g, nextGrant s = some (i, m) → owedFrame (s.view i) (s.feeds.feeds.get i) = some (f, g) →
      ∃ t, exec .grant s = .next t ∧
        t.feeds = { s.feeds with feeds := s.feeds.feeds.upd i (fun _ => settle (s.view i) g) } ∧
        t.fmt =
          { high := s.fmt.high.filter (fun y => decide (y ≠ m)) ++ [m]
            low := (match m with
              | .low => s.fmt.low.filter (fun y => decide (y ≠ i)) ++ [i]
              | .feed _ => s.fmt.low)
            grants := s.fmt.grants.upd i (· + 1) } ∧
        (feedPort i = none → t.host.textPlace = some f ∧ t.ports = s.ports) ∧
        (∀ p, feedPort i = some p →
          (t.ports.get p).window =
            (s.ports.get p).window ++ [{ seq := (s.ports.get p).nextSeq, frame := f, sentAt := none }] ∧
          (t.ports.get p).nextSeq = (s.ports.get p).nextSeq + 1 ∧ t.host.textPlace = s.host.textPlace) ∧
        t = { s with
          feeds := t.feeds, fmt := t.fmt, ports := t.ports, host := t.host, conds := t.conds, time := t.time }) ∧
    (∀ p x, (s.ports.get p).sending = some x →
      exec (.frameSent p) s = .next { s with ports := s.ports.upd p (fun q =>
        Port.begin (s.settings.feed.get (portFeed p)).rate
          { q with
            sending := none
            framesSent := q.framesSent + 1
            window := if x.inWindow then markSent s.time.now q.window else q.window }) })

/-! ### Display ports (Section 9) -/

/-- R176, R177, R180, R181: an ACK of a RUNNING port takes the SENT frame it names and every frame before it out of the
window, or is stray; an ACK of the latest probe, or any RESYNC, recovers a STALLED port, whose feed begins a repaint; a
RESYNC of a RUNNING port discards the window and repaints the feed; an OFF port discards replies. A reply in progress is
malformed by a framing error and by a gap of more than 5 ms, and a complete reply of unknown kind is: each is counted and
the receiver hunts; in HUNT, and at an OFF port, nothing of the kind happens. The model's choices: the gap passes with the
command and is due at 5001 us (log entry 2), and the characters of a command are run through the receiver (log entry 7). -/
def Obligations.RepliesMoveThePort : Prop :=
  (∀ (p : PortId) (seq : Byte) (s : State), s.host.phase = .normal →
    let feedRepainted := s.feeds.feeds.upd (portFeed p) (fun f =>
      if f.state = .stalled then beginRepaint (s.view (portFeed p)) f else f)
    ((s.ports.get p).state = .off →
      exec (.ack p seq) s = .next (chooseFrame { s with ports := s.ports.upd p (fun q => { q with rx := .hunt }) }) ∧
      exec (.resync p seq) s = .next (chooseFrame
        { s with ports := s.ports.upd p (fun q => { q with rx := .hunt }) })) ∧
    ((s.ports.get p).state = .running →
      (∀ a x b, (s.ports.get p).window = a ++ x :: b → x.seq = seq → x.sentAt ≠ none →
        (∀ y ∈ a, y.seq ≠ seq) →
        exec (.ack p seq) s = .next (chooseFrame { s with ports := s.ports.upd p (fun q =>
          { q with
            rx := .hunt, window := b, framesAcked := q.framesAcked + BitVec.ofNat 32 (a.length + 1) }) })) ∧
      ((∀ y ∈ (s.ports.get p).window, y.seq = seq → y.sentAt = none) →
        exec (.ack p seq) s = .next (chooseFrame { s with ports := s.ports.upd p (fun q =>
          { q with rx := .hunt, strayAcks := q.strayAcks + 1 }) })) ∧
      exec (.resync p seq) s = .next (chooseFrame
        { s with
          ports := s.ports.upd p (fun q =>
            { q with
              rx := .hunt
              window := []
              framesLost := q.framesLost + BitVec.ofNat 32 q.window.length
              sending := q.sending.map (fun x => { x with inWindow := false })
              resyncs := q.resyncs + 1 })
          feeds := { s.feeds with feeds := s.feeds.feeds.upd (portFeed p) (fun f =>
            if f.state = .off then f else beginRepaint (s.view (portFeed p)) (feedStall f)) } })) ∧
    ((s.ports.get p).state = .stalled →
      ((s.ports.get p).probeSeq ≠ some seq →
        exec (.ack p seq) s = .next (chooseFrame { s with ports := s.ports.upd p (fun q =>
          { q with rx := .hunt, strayAcks := q.strayAcks + 1 }) })) ∧
      (∀ c, (c = .ack p seq ∧ (s.ports.get p).probeSeq = some seq ∨ c = .resync p seq) →
        ∃ t, exec c s = .next t ∧
          t.ports = s.ports.upd p (fun q =>
            { q with
              rx := .hunt
              state := .running
              window := []
              probeSeq := none
              probeFrom := none
              recoveries := q.recoveries + 1
              resyncs := if c = .resync p seq then q.resyncs + 1 else q.resyncs }) ∧
          t.feeds = { s.feeds with feeds := feedRepainted } ∧ (t.conds.get (.feedStalled p)).cause = false ∧
          t = { s with ports := t.ports, feeds := t.feeds, time := t.time, host := t.host, conds := t.conds }))) ∧
  (∀ (p : PortId) (held : Bytes) (t0 : LocalTime) (kind seq : Byte) (s : State),
    ((s.ports.get p).state = .off ∨ (s.ports.get p).rx = .hunt →
      exec (.malformedReply p [] true) s = .next s) ∧
    ((s.ports.get p).rx = .hunt → exec (.replyGapTimeout p []) s = .next s) ∧
    ((s.ports.get p).state ≠ .off →
      ((s.ports.get p).rx = .collect held t0 →
        exec (.malformedReply p [] true) s = .next { s with ports := s.ports.upd p (fun q =>
          { q with rx := .hunt, badReplies := q.badReplies + 1 }) } ∧
        exec (.replyGapTimeout p []) s = .next { s.runTo t0 5001 with ports := s.ports.upd p (fun q =>
          { q with rx := .hunt, badReplies := q.badReplies + 1 }) }) ∧
      ((s.ports.get p).rx = .hunt → kind.toNat ≠ 1 → kind.toNat ≠ 2 →
        exec (.malformedReply p [0xA5#8, kind, seq] false) s = .next { s with ports := s.ports.upd p (fun q =>
          { q with badReplies := q.badReplies + 1 }) })))

/-- R178, R179, R167, R182: a RUNNING port whose oldest frame has been SENT for feed-n-ack-timeout stalls: its window is
discarded and counted, the probe timer starts, its feed is STALLED if it was delivering, and the cause of FEED-n-STALLED
is present; a STALLED port forms a PROBE each second, whose number alone is then the one that recovers it. That the time
passes with the expiry is the model's choice (log entry 2). -/
def Obligations.OverdueFramesStallThePort : Prop :=
  ∀ (p : PortId) (s : State), s.host.phase = .normal →
    (∀ x w t0 u, (s.ports.get p).state = .running → (s.ports.get p).window = x :: w → x.sentAt = some t0 →
      u = s.runTo t0 ((s.settings.feed.get (portFeed p)).ackTimeout * 1000) →
      ∃ t, exec (.ackTimeout p) s = .next t ∧
        t.ports = s.ports.upd p (fun q =>
          { q with
            state := .stalled
            window := []
            framesLost := q.framesLost + BitVec.ofNat 32 q.window.length
            sending := q.sending.map (fun y => { y with inWindow := false })
            stalls := q.stalls + 1
            probeFrom := some u.time.now
            probeSeq := none }) ∧
        t.feeds = { s.feeds with feeds := s.feeds.feeds.upd (portFeed p) (fun f =>
          if f.state = .active ∨ f.state = .repaint then
            { f with
              state := .stalled, changes := [], shown := [], gapOwed := none, beginOwed := false
              repaintTail := none }
          else f) } ∧
        (t.conds.get (.feedStalled p)).cause = true ∧
        t = { u with ports := t.ports, feeds := t.feeds, time := t.time, host := t.host, conds := t.conds }) ∧
    (∀ t0 u, (s.ports.get p).probeFrom = some t0 → u = s.runTo t0 1000000 →
      exec (.probeTimerExpiry p) s = .next { u with ports := u.ports.upd p (fun q =>
        Port.begin (s.settings.feed.get (portFeed p)).rate
          { q with
            probeSeq := some q.nextSeq
            probesWaiting := q.probesWaiting ++ [q.nextSeq]
            nextSeq := q.nextSeq + 1
            probes := q.probes + 1
            probeFrom := some (t0 + 1000000#32) }) })

/-! ### The host link (Section 10) -/

/-- R184: a frame whose length field is outside 2 to 1026, or whose check fails, is discarded and counted; so is a frame
in progress at a character with a framing error, which is counted itself, and after a gap of more than 2 ms. The model's
choices: the gap passes with the command and is due at 2001 us (log entry 2), and the characters of a command are run
through the receiver (log entry 7). -/
def Obligations.BadHostFramesAreDiscarded : Prop :=
  ∀ s : State,
    (∀ l0 l1 : Byte, s.host.rx = .hunt → (l0.toNat * 256 + l1.toNat < 2 ∨ 1026 < l0.toNat * 256 + l1.toNat) →
      exec (.frameDiscarded [0xC3#8, l0, l1]) s = .next
        { s with host := { s.host with discards := s.host.discards + 1 } }) ∧
    (∀ held t0 c, s.host.rx = .frame held t0 → 2 ≤ held.length → 2 ≤ frameLength (held ++ [c]) →
      frameLength (held ++ [c]) ≤ 1026 → held.length = frameLength (held ++ [c]) + 4 →
      framePasses (held ++ [c]) = false →
      exec (.frameDiscarded [c]) s = .next
        { s with host := { s.host with rx := .hunt, discards := s.host.discards + 1 } }) ∧
    (s.host.rx = .hunt →
      exec (.hostFramingError []) s = .next
        { s with host := { s.host with framingErrors := s.host.framingErrors + 1 } } ∧
      exec (.hostGapTimeout []) s = .next s) ∧
    (∀ held t0, s.host.rx = .frame held t0 →
      exec (.hostFramingError []) s = .next
        { s with host := { s.host with
          rx := .hunt, discards := s.host.discards + 1, framingErrors := s.host.framingErrors + 1 } } ∧
      exec (.hostGapTimeout []) s = .next
        { s.runTo t0 2001 with host := { s.host with rx := .hunt, discards := s.host.discards + 1 } })

/-- R187: when the last byte of a host frame has left the line it is counted by its kind, a TEXT notice leaves its place,
a reply to SET host-rate puts the new rate in force, and the line is free for the next frame. That the event changes
nothing while no frame is being sent, when it cannot occur, is the model's choice (log entry 3). -/
def Obligations.SentHostFramesAreCounted : Prop :=
  ∀ s : State, s.calm →
    (s.host.sending = none → exec .hostFrameSent s = .next s) ∧
    (∀ r : Reply, s.host.sending = some (.reply r) → r.after ≠ .restart →
      exec .hostFrameSent s = .next (State.settled { s with host := { s.host with
        sending := none
        repliesSent := s.host.repliesSent + 1
        rate := match r.after with
          | .rate baud => baud
          | _ => s.host.rate } })) ∧
    (∀ n : Notice, s.host.sending = some (.notice n) →
      exec .hostFrameSent s = .next (State.settled { s with host := { s.host with
        sending := none, noticesSent := s.host.noticesSent + 1 } })) ∧
    (∀ f : Frame, s.host.sending = some (.text f) →
      exec .hostFrameSent s = .next (State.settled { s with host := { s.host with
        sending := none, textPlace := none, textSent := s.host.textSent + 1 } }))

/-- R191, R165, R166, R171, R174: SET of a code and index that name no setting, or of a value a listed setting does not
allow, is refused BAD-VALUE; otherwise the value is in force in the same step, limited to its range, SETS rises, and DONE
carries it, in four bytes (log entry 15, the model's choice), a feed-n-rate that waits for its line too (log entry 44, the
model's choice). A value already in force starts nothing, host-rate aside,
whose reply carries the rate. A changed enable repaints or stops the feed and its port (that a reply in progress is then
dropped uncounted is log entry 34, the model's choice), a changed tier or mask repaints a delivering feed under the new
value, and a changed group moves the feed in the grant order. A hold-time, a stroke-limit, a floor-wait or a feed's
ack-timeout that what is running has reached already does what its expiry does, in the same step, and a changed lock-timeout
or log-age releases the lock or closes the OPEN page; a stroke-limit that both open strokes have reached closes both, A's
first (log entry 37, the model's choice). A lower undo-depth makes the oldest COMMITTED units FIRM, and a firm-time those
that have reached it; a changed delay settles its feed; a changed rate is taken by an idle line at once, by a busy one
later. Where nothing has been reached, and for the other settings, nothing but the value changes. -/
def Obligations.SetPutsTheValueInForce : Prop :=
  ∀ (tag code index : Byte) (v : Nat) (s : State), s.accepts → s.calm → v < 4294967296 →
    let set := Instr.setSetting tag (code :: index :: be 4 v)
    let named := (code.toNat ∈ [1, 2, 3, 4, 5, 7, 8, 9, 10, 11] ∧ index.toNat = 0) ∨
      (code.toNat = 6 ∧ index.toNat ≤ 1) ∨ (code.toNat ∈ [12, 19] ∧ index.toNat ≤ 4) ∨
      (code.toNat ∈ [13, 14, 15, 16, 17, 18] ∧ 1 ≤ index.toNat ∧ index.toNat ≤ 4)
    let limited := fun lo hi : Nat => some (max lo (min v hi))
    let inForce : Option Nat :=
      match code.toNat with
      | 1 => if v = 0 then some 0 else limited 300 5000
      | 2 => limited 1 16
      | 3 => limited 2 60
      | 4 => limited 500 4000
      | 5 => limited 500 10000
      | 6 => if v ≤ 8388607 then some v else none
      | 7 => limited 5 300
      | 8 => limited 500 10000
      | 11 => if v ∈ [115200, 230400, 460800, 921600] then some v else none
      | 13 => if v ≤ 2 then some v else none
      | 14 => if v < 16 then some v else none
      | 15 => limited 1 120
      | 16 => limited 8 256
      | 17 => limited 50 2000
      | 18 => if v ∈ [9600, 19200, 38400, 57600, 115200] then some v else none
      | _ => if v ≤ 1 then some v else none
    (¬ named → exec set s = .next (s.replyAndTakeUp tag (.refused .badValue))) ∧
    (named → inForce = none → exec set s = .next (s.replyAndTakeUp tag (.refused .badValue))) ∧
    (∀ w, named → inForce = some w →
      ∃ x, settingOf code.toNat index.toNat = some x ∧
        (∃ t, exec set s = .next t ∧ t.settings = x.put w s.settings ∧ x.value t.settings = w ∧
          t.host.sets = s.host.sets + 1 ∧ (∃ r ∈ t.host.replyLine, r.tag = tag ∧ r.result = .done (be 4 w))) ∧
        (x ≠ .hostRate → x.value s.settings = w →
          exec set s = .next (State.replyAndTakeUp
            { s with host := { s.host with sets := s.host.sets + 1 } } tag (.done (be 4 w))))) ∧
    -- an enable changed
    (∀ i, code.toNat = 12 → feedOfNum index.toNat = some i →
      let newer := { s.settings with feed := s.settings.feed.upd i (fun f => { f with enable := decide (v = 1) }) }
      (v = 1 → (s.settings.feed.get i).enable = false →
        exec set s = .next (State.replyAndTakeUp
          { s with
            settings := newer
            host := { s.host with sets := s.host.sets + 1 }
            feeds := { s.feeds with feeds := s.feeds.feeds.upd i (fun f =>
              beginRepaint (State.view { s with settings := newer } i) { f with clearOwed := false }) }
            ports := match feedPort i with
              | none => s.ports
              | some p => s.ports.upd p (fun q => { q with state := .running, window := [] }) } tag (.done (be 4 1)))) ∧
      (v = 0 → (s.settings.feed.get i).enable = true →
        ∃ t, exec set s = .next t ∧
          t.feeds = { s.feeds with feeds := s.feeds.feeds.upd i (fun f =>
            { f with
              state := .off, changes := [], shown := [], gapOwed := none, clearOwed := false, beginOwed := false
              repaintTail := none, cursor := 0 }) } ∧
          (feedPort i = none → t.ports = s.ports) ∧
          (∀ p, feedPort i = some p →
            t.ports = s.ports.upd p (fun q =>
              { q with
                state := .off
                window := []
                framesLost := q.framesLost + BitVec.ofNat 32 q.window.length
                sending := q.sending.map (fun x => { x with inWindow := false })
                probeSeq := none, probeFrom := none, probesWaiting := [], rx := .hunt }) ∧
            (t.conds.get (.feedStalled p)).cause = false))) ∧
    -- a tier or a mask changed
    (∀ p, (code.toNat = 13 ∨ code.toNat = 14) → portOfNum index.toNat = some p → inForce = some v →
      let i := portFeed p
      let newer := { s.settings with feed := s.settings.feed.upd i (fun f =>
        if code.toNat = 13 then { f with tier := if v = 0 then .live else if v = 1 then .settled else .delayed }
        else { f with mask := BitVec.ofNat 4 v }) }
      newer ≠ s.settings →
      exec set s = .next (State.replyAndTakeUp
        { s with
          settings := newer
          host := { s.host with sets := s.host.sets + 1 }
          feeds := { s.feeds with feeds := s.feeds.feeds.upd i (fun f =>
            if f.state = .active ∨ f.state = .repaint then
              beginRepaint (State.view { s with settings := newer } i) f
            else f) } } tag (.done (be 4 v)))) ∧
    -- a group changed
    (∀ i, code.toNat = 19 → feedOfNum index.toNat = some i → v ≤ 1 →
      (s.settings.feed.get i).high ≠ decide (v = 0) →
      exec set s = .next (State.replyAndTakeUp
        { s with
          settings := { s.settings with feed := s.settings.feed.upd i (fun f => { f with high := decide (v = 0) }) }
          host := { s.host with sets := s.host.sets + 1 }
          fmt := { s.fmt with
            low := if v = 0 then s.fmt.low.filter (fun f => decide (f ≠ i)) else s.fmt.low ++ [i]
            high :=
              if v = 0 then
                (if s.fmt.low.filter (fun f => decide (f ≠ i)) = [] then
                  s.fmt.high.filter (fun m => decide (m ≠ .low))
                else s.fmt.high) ++ [.feed i]
              else
                s.fmt.high.filter (fun m => decide (m ≠ .feed i)) ++ (if s.fmt.low = [] then [.low] else []) } } tag
        (.done (be 4 v)))) ∧
    -- what is running when the value comes into force
    (∀ w x, inForce = some w → settingOf code.toNat index.toNat = some x → x.value s.settings ≠ w →
      let newer := { s with settings := x.put w s.settings }
      let counted := { newer with host := { s.host with sets := s.host.sets + 1 } }
      let taken := fun u : State => exec set s = .next (u.replyAndTakeUp tag (.done (be 4 w)))
      let firmed := fun (due : TUnit → Bool) => ∃ feeds, taken
        { counted with
          script := { s.script with
            units := s.script.units.map (fun y => if due y then { y with state := .firm } else y)
            unitsFirmed := s.script.unitsFirmed + BitVec.ofNat 32 (s.script.units.countP due) }
          feeds := feeds }
      let expires := fun c : Instr => ∃ t v, exec set s = .next t ∧ exec c newer = .next v ∧
        t = { v with host := t.host, conds := t.conds, time := t.time }
      let rises := s.script.units.Pairwise (fun y z : TUnit => y.number < z.number)
      -- hold-time
      (x = .holdTime → ∀ e, s.trans.timer = some e → w ≠ 0 → w * 1000 ≤ e → expires .holdTimerExpiry) ∧
      (x = .holdTime → (w = 0 ∨ ∀ e, s.trans.timer = some e → e < w * 1000) → taken counted) ∧
      -- undo-depth, firm-time
      (x = .undoDepth → rises → firmed (fun y =>
        decide (y.state = .committed ∧
          w < s.script.units.countP (fun z => decide (y.number ≤ z.number ∧ z.state = .committed))))) ∧
      (x = .firmTime → rises →
        let due := fun y : TUnit => decide (y.state = .committed) && (match y.commitTime with
          | none => false
          | some c => decide (w * 1000000 ≤ (s.time.now - c).toNat))
        s.script.units.Pairwise (fun y z : TUnit => y.state = .committed → due z = true → due y = true) →
        firmed due) ∧
      -- stroke-limit
      (x = .strokeLimit →
        let reached := fun p => ∃ o, (s.formers.get p).openStroke = some o ∧ w * 1000 ≤ (s.time.now - o.openTime).toNat
        (∀ p, reached p → ¬ reached (otherPos p) → expires (.strokeLimitExpiry p)) ∧
        ((∀ p, ¬ reached p) → taken counted) ∧
        ((∀ p, reached p) → ∃ t, exec set s = .next t ∧
          ∀ p o, (s.formers.get p).openStroke = some o →
            let inSession : Bool := o.inSession && decide (s.script.session = .opened)
            let later : Bool := decide (p = .b) && (match s.formers.a.openStroke with
              | none => false
              | some a => a.inSession)
            t.formers.get p =
              { s.formers.get p with
                openStroke := none
                latched := (s.links.get p).lastReport.getD 0
                closed := (s.formers.get p).closed + 1
                heldCloses := (s.formers.get p).heldCloses + 1
                damagedCloses := (s.formers.get p).damagedCloses + (if o.damaged then 1 else 0)
                discarded := (s.formers.get p).discarded + (if inSession then 0 else 1) } ∧
            (inSession = true → s.settings.strokeEcho = true → s.host.notices.length < 12 →
              ∃ unlogged, .stroke p (some (if later then s.seqCounter + 1 else s.seqCounter)) o.keys o.timecode o.damaged
                true unlogged ∈ t.host.noticeLine))) ∧
      -- floor-wait, lock-timeout, log-age
      (x = .floorWait → ∀ z, s.floor.waitFrom = some z →
        (w * 1000 ≤ (s.time.now - z).toNat → expires .floorWaitExpiry) ∧
        ((s.time.now - z).toNat < w * 1000 → taken counted)) ∧
      (x = .lockTimeout → taken
        { counted with script :=
          match s.script.lock with
          | none => s.script
          | some l =>
            if w * 1000000 ≤ (s.time.now - l.since).toNat then
              { s.script with lock := none, lockTimeouts := s.script.lockTimeouts + 1 }
            else s.script }) ∧
      (x = .logAge → taken
        { counted with log :=
          match s.log.openPage with
          | none => s.log
          | some page =>
            if w * 1000 ≤ (s.time.now - page.since).toNat then
              { s.log with pages := s.log.pages.map (fun q => if q.state = .opened then { q with state := .waiting } else q) }
            else s.log }) ∧
      -- the settings of a feed
      (∀ p, x = .delay p → taken
        { counted with feeds := { s.feeds with
          feeds := s.feeds.feeds.upd (portFeed p) (settle (State.view newer (portFeed p))) } }) ∧
      (∀ p, x = .ackTimeout p →
        (∀ z, (s.ports.get p).timed = some z → w * 1000 ≤ (s.time.now - z).toNat →
          ∃ t v, exec set s = .next t ∧ exec (.ackTimeout p) newer = .next v ∧
            t = { v with
              host := t.host, conds := t.conds, time := t.time, store := s.takeUp.store, log := s.takeUp.log
              dict := s.takeUp.dict }) ∧
        ((∀ z, (s.ports.get p).timed = some z → (s.time.now - z).toNat < w * 1000) → taken counted)) ∧
      (∀ p, x = .rate p → taken
        { counted with ports := s.ports.upd p (fun q =>
          if q.state = .off then { q with rate := w } else q.begin w) }) ∧
      -- the others
      (x ∈ [.takeOutline .a, .takeOutline .b, .capAfterParagraph, .strokeEcho, .depth .p1, .depth .p2, .depth .p3,
          .depth .p4] → taken counted))

/-- R194, R138, R125, R72, R101, R35: RESTART is answered DONE and the part is RESTARTING. When that reply has been sent, an
OPEN session is closed, SESSION-STATE meanwhile CLOSING (log entry 13, the model's choice): every unit is FIRM, the floor
VACANT, and its FLOOR record of cause RELEASE and a SESSION-CLOSE record with ABORTED close the OPEN page; reads, record
programs and the erase continuation are abandoned, no region stays ERASING (from this moment on: log entry 40, the model's
choice) and the log is flushed. With nothing to flush or to end, no lookup and no other reply waiting, every block takes its
power-on values at once; otherwise it does so when the last page has been programmed and the operation in progress or
suspended, if any, has been let end (log entries 18 and 35, the model's choices where R72 and R194 leave the moment open).
The note memory keeps its bytes, and what it was doing is left to it (log entry 5, the model's choice). -/
def Obligations.RestartEndsInPowerOn : Prop :=
  (∀ (tag : Byte) (s : State), s.accepts → s.calm →
    exec (.restart tag []) s = .next
      { s.takeUp with host := { s.host.answer tag (.done []) .restart with phase := .restarting } }) ∧
  (∀ (r : Reply) (s : State), s.host.sending = some (.reply r) → r.after = .restart → s.host.phase = .restarting →
    s.log.flush = .none →
    (s.script.session = .closed → s.log.pages = [] → s.dict.lookups = [] → s.host.replies = [] →
      (s.store.inProgress = none ∧ s.store.suspended = none ∨ s.store.state = .fault) →
      exec .hostFrameSent s = .next { State.reset with
        flash := { s.flash with orphans := s.flash.orphans ++ s.store.unfinished }
        pending := s.pending }) ∧
    (∀ page, s.script.session = .opened → s.store.state = .ready → s.log.openPage = some page →
      page.records.length ≤ 14 →
      ∃ t, exec .hostFrameSent s = .next t ∧
        t.host.phase = .windingDown ∧ t.script.session = .closing ∧ t.script.lock = none ∧ t.script.search = none ∧
        t.trans.inFlight = none ∧ t.trans.hold = [] ∧ t.trans.notes = [] ∧ (∀ u ∈ t.script.units, u.state = .firm) ∧
        t.floor.state = .vacant ∧
        (∀ p, (t.posRec p).queue = [] ∧ (t.posRec p).pending = none ∧ (t.formers.get p).openStroke = none) ∧
        t.log.flush = .restart ∧ (∀ q ∈ t.log.pages, q.state ≠ .opened) ∧
        (∃ q ∈ t.log.pages, ∃ floorAt closeAt, q.page = page.page ∧ q.records = page.records ++
          [logRecord 9 (logFlags none false false false false false) floorAt s.seqCounter.toNat
              (s.script.sessionNumber.getD 0) 4,
            logRecord 0 (logFlags none false false false false true) closeAt s.seqCounter.toNat
              (s.script.sessionNumber.getD 0) 3]) ∧
        t.store.job = none ∧ t.store.dictWork = [] ∧ t.store.waiting = [] ∧ t.store.logRead = none ∧
        t.store.log.state ≠ .erasing ∧ (∀ d, (t.store.region d).state ≠ .erasing) ∧ t.dict.lookups = [])) ∧
  (∀ (op : FlashOp) (w : Work) (ran : Nat) (left : List Host.Cell) (c : Instr) (s : State), s.host.replies = [] →
    s.store.inProgress = some { op := op, work := w, ran := ran, timedOut := false } →
    s.store.waiting = [] → s.store.dictWork = [] → s.store.job = none → s.store.recovering = none →
    c = (match op with
      | .program _ _ => .pageProgramEnd false left
      | .erase _ => .blockEraseEnd false left) →
    let off : State :=
      { State.reset with flash := { s.flash with cells := op.apply s.flash.cells }, pending := s.pending }
    (∀ page, s.host.phase = .windingDown → s.log.flush = .restart → w = .logPage → s.log.pages = [page] →
      (s.store.suspended = none → exec c s = .next off) ∧
      (∀ r, s.store.state = .ready → s.store.suspended = some r → s.store.reading = none →
        ∃ t, exec c s = .next t ∧ t.host.phase = .draining ∧ t.store.inProgress = some r ∧
          t.store.suspended = none)) ∧
    (s.host.phase = .draining → s.log.flush = .none → w = .job → s.log.pages = [] → s.store.suspended = none →
      exec c s = .next off))

/-- R62 to R64, R94, R187: what the end of a step takes up changes nothing but the dictionaries' drain, the store controller
and the state of buffer pages, whose assigned pages and records stay; the choice of the next host frame loses no reply and
no notice, and changes nothing but the host link, the flags of owed conditions and the stamp their notices take. -/
def Obligations.EndOfStepKeepsTheOtherBlocks : Prop :=
  ∀ s : State,
    s.takeUp = { s with dict := s.takeUp.dict, store := s.takeUp.store, log := s.takeUp.log } ∧
    s.takeUp.log = { s.log with pages := s.takeUp.log.pages } ∧
    s.takeUp.log.pages.map (fun x => (x.page, x.records, x.since)) =
      s.log.pages.map (fun x => (x.page, x.records, x.since)) ∧
    chooseFrame s =
      { s with host := (chooseFrame s).host, conds := (chooseFrame s).conds, time := (chooseFrame s).time } ∧
    (chooseFrame s).host.replyLine = s.host.replyLine ∧
    (∃ owed, (chooseFrame s).host.noticeLine = s.host.noticeLine ++ owed)
end

