-- ==== Sys2Proof/Laws/State.lean ====
section
/-! SUPPORT. One lemma per field per update of the state, so that no later proof unfolds a record update. -/

namespace Sys2Proof.Machine

@[simp] theorem onLinks_links (s : State) (f : Two KeyLink → Two KeyLink) : (s.onLinks f).links = f s.links := rfl
@[simp] theorem onLinks_formers (s : State) (f : Two KeyLink → Two KeyLink) : (s.onLinks f).formers = s.formers := rfl
@[simp] theorem onLinks_seqCounter (s : State) (f : Two KeyLink → Two KeyLink) : (s.onLinks f).seqCounter = s.seqCounter := rfl
@[simp] theorem onLinks_floor (s : State) (f : Two KeyLink → Two KeyLink) : (s.onLinks f).floor = s.floor := rfl
@[simp] theorem onLinks_time (s : State) (f : Two KeyLink → Two KeyLink) : (s.onLinks f).time = s.time := rfl
@[simp] theorem onLinks_flash (s : State) (f : Two KeyLink → Two KeyLink) : (s.onLinks f).flash = s.flash := rfl
@[simp] theorem onLinks_store (s : State) (f : Two KeyLink → Two KeyLink) : (s.onLinks f).store = s.store := rfl
@[simp] theorem onLinks_log (s : State) (f : Two KeyLink → Two KeyLink) : (s.onLinks f).log = s.log := rfl
@[simp] theorem onLinks_dict (s : State) (f : Two KeyLink → Two KeyLink) : (s.onLinks f).dict = s.dict := rfl
@[simp] theorem onLinks_trans (s : State) (f : Two KeyLink → Two KeyLink) : (s.onLinks f).trans = s.trans := rfl
@[simp] theorem onLinks_script (s : State) (f : Two KeyLink → Two KeyLink) : (s.onLinks f).script = s.script := rfl
@[simp] theorem onLinks_feeds (s : State) (f : Two KeyLink → Two KeyLink) : (s.onLinks f).feeds = s.feeds := rfl
@[simp] theorem onLinks_fmt (s : State) (f : Two KeyLink → Two KeyLink) : (s.onLinks f).fmt = s.fmt := rfl
@[simp] theorem onLinks_ports (s : State) (f : Two KeyLink → Two KeyLink) : (s.onLinks f).ports = s.ports := rfl
@[simp] theorem onLinks_host (s : State) (f : Two KeyLink → Two KeyLink) : (s.onLinks f).host = s.host := rfl
@[simp] theorem onLinks_conds (s : State) (f : Two KeyLink → Two KeyLink) : (s.onLinks f).conds = s.conds := rfl
@[simp] theorem onLinks_settings (s : State) (f : Two KeyLink → Two KeyLink) : (s.onLinks f).settings = s.settings := rfl
@[simp] theorem onLinks_pending (s : State) (f : Two KeyLink → Two KeyLink) : (s.onLinks f).pending = s.pending := rfl
@[simp] theorem onFormers_links (s : State) (f : Two Former → Two Former) : (s.onFormers f).links = s.links := rfl
@[simp] theorem onFormers_formers (s : State) (f : Two Former → Two Former) : (s.onFormers f).formers = f s.formers := rfl
@[simp] theorem onFormers_seqCounter (s : State) (f : Two Former → Two Former) : (s.onFormers f).seqCounter = s.seqCounter := rfl
@[simp] theorem onFormers_floor (s : State) (f : Two Former → Two Former) : (s.onFormers f).floor = s.floor := rfl
@[simp] theorem onFormers_time (s : State) (f : Two Former → Two Former) : (s.onFormers f).time = s.time := rfl
@[simp] theorem onFormers_flash (s : State) (f : Two Former → Two Former) : (s.onFormers f).flash = s.flash := rfl
@[simp] theorem onFormers_store (s : State) (f : Two Former → Two Former) : (s.onFormers f).store = s.store := rfl
@[simp] theorem onFormers_log (s : State) (f : Two Former → Two Former) : (s.onFormers f).log = s.log := rfl
@[simp] theorem onFormers_dict (s : State) (f : Two Former → Two Former) : (s.onFormers f).dict = s.dict := rfl
@[simp] theorem onFormers_trans (s : State) (f : Two Former → Two Former) : (s.onFormers f).trans = s.trans := rfl
@[simp] theorem onFormers_script (s : State) (f : Two Former → Two Former) : (s.onFormers f).script = s.script := rfl
@[simp] theorem onFormers_feeds (s : State) (f : Two Former → Two Former) : (s.onFormers f).feeds = s.feeds := rfl
@[simp] theorem onFormers_fmt (s : State) (f : Two Former → Two Former) : (s.onFormers f).fmt = s.fmt := rfl
@[simp] theorem onFormers_ports (s : State) (f : Two Former → Two Former) : (s.onFormers f).ports = s.ports := rfl
@[simp] theorem onFormers_host (s : State) (f : Two Former → Two Former) : (s.onFormers f).host = s.host := rfl
@[simp] theorem onFormers_conds (s : State) (f : Two Former → Two Former) : (s.onFormers f).conds = s.conds := rfl
@[simp] theorem onFormers_settings (s : State) (f : Two Former → Two Former) : (s.onFormers f).settings = s.settings := rfl
@[simp] theorem onFormers_pending (s : State) (f : Two Former → Two Former) : (s.onFormers f).pending = s.pending := rfl
@[simp] theorem onFloor_links (s : State) (f : Floor → Floor) : (s.onFloor f).links = s.links := rfl
@[simp] theorem onFloor_formers (s : State) (f : Floor → Floor) : (s.onFloor f).formers = s.formers := rfl
@[simp] theorem onFloor_seqCounter (s : State) (f : Floor → Floor) : (s.onFloor f).seqCounter = s.seqCounter := rfl
@[simp] theorem onFloor_floor (s : State) (f : Floor → Floor) : (s.onFloor f).floor = f s.floor := rfl
@[simp] theorem onFloor_time (s : State) (f : Floor → Floor) : (s.onFloor f).time = s.time := rfl
@[simp] theorem onFloor_flash (s : State) (f : Floor → Floor) : (s.onFloor f).flash = s.flash := rfl
@[simp] theorem onFloor_store (s : State) (f : Floor → Floor) : (s.onFloor f).store = s.store := rfl
@[simp] theorem onFloor_log (s : State) (f : Floor → Floor) : (s.onFloor f).log = s.log := rfl
@[simp] theorem onFloor_dict (s : State) (f : Floor → Floor) : (s.onFloor f).dict = s.dict := rfl
@[simp] theorem onFloor_trans (s : State) (f : Floor → Floor) : (s.onFloor f).trans = s.trans := rfl
@[simp] theorem onFloor_script (s : State) (f : Floor → Floor) : (s.onFloor f).script = s.script := rfl
@[simp] theorem onFloor_feeds (s : State) (f : Floor → Floor) : (s.onFloor f).feeds = s.feeds := rfl
@[simp] theorem onFloor_fmt (s : State) (f : Floor → Floor) : (s.onFloor f).fmt = s.fmt := rfl
@[simp] theorem onFloor_ports (s : State) (f : Floor → Floor) : (s.onFloor f).ports = s.ports := rfl
@[simp] theorem onFloor_host (s : State) (f : Floor → Floor) : (s.onFloor f).host = s.host := rfl
@[simp] theorem onFloor_conds (s : State) (f : Floor → Floor) : (s.onFloor f).conds = s.conds := rfl
@[simp] theorem onFloor_settings (s : State) (f : Floor → Floor) : (s.onFloor f).settings = s.settings := rfl
@[simp] theorem onFloor_pending (s : State) (f : Floor → Floor) : (s.onFloor f).pending = s.pending := rfl
@[simp] theorem onTime_links (s : State) (f : TimeBase → TimeBase) : (s.onTime f).links = s.links := rfl
@[simp] theorem onTime_formers (s : State) (f : TimeBase → TimeBase) : (s.onTime f).formers = s.formers := rfl
@[simp] theorem onTime_seqCounter (s : State) (f : TimeBase → TimeBase) : (s.onTime f).seqCounter = s.seqCounter := rfl
@[simp] theorem onTime_floor (s : State) (f : TimeBase → TimeBase) : (s.onTime f).floor = s.floor := rfl
@[simp] theorem onTime_time (s : State) (f : TimeBase → TimeBase) : (s.onTime f).time = f s.time := rfl
@[simp] theorem onTime_flash (s : State) (f : TimeBase → TimeBase) : (s.onTime f).flash = s.flash := rfl
@[simp] theorem onTime_store (s : State) (f : TimeBase → TimeBase) : (s.onTime f).store = s.store := rfl
@[simp] theorem onTime_log (s : State) (f : TimeBase → TimeBase) : (s.onTime f).log = s.log := rfl
@[simp] theorem onTime_dict (s : State) (f : TimeBase → TimeBase) : (s.onTime f).dict = s.dict := rfl
@[simp] theorem onTime_trans (s : State) (f : TimeBase → TimeBase) : (s.onTime f).trans = s.trans := rfl
@[simp] theorem onTime_script (s : State) (f : TimeBase → TimeBase) : (s.onTime f).script = s.script := rfl
@[simp] theorem onTime_feeds (s : State) (f : TimeBase → TimeBase) : (s.onTime f).feeds = s.feeds := rfl
@[simp] theorem onTime_fmt (s : State) (f : TimeBase → TimeBase) : (s.onTime f).fmt = s.fmt := rfl
@[simp] theorem onTime_ports (s : State) (f : TimeBase → TimeBase) : (s.onTime f).ports = s.ports := rfl
@[simp] theorem onTime_host (s : State) (f : TimeBase → TimeBase) : (s.onTime f).host = s.host := rfl
@[simp] theorem onTime_conds (s : State) (f : TimeBase → TimeBase) : (s.onTime f).conds = s.conds := rfl
@[simp] theorem onTime_settings (s : State) (f : TimeBase → TimeBase) : (s.onTime f).settings = s.settings := rfl
@[simp] theorem onTime_pending (s : State) (f : TimeBase → TimeBase) : (s.onTime f).pending = s.pending := rfl
@[simp] theorem onFlash_links (s : State) (f : Flash → Flash) : (s.onFlash f).links = s.links := rfl
@[simp] theorem onFlash_formers (s : State) (f : Flash → Flash) : (s.onFlash f).formers = s.formers := rfl
@[simp] theorem onFlash_seqCounter (s : State) (f : Flash → Flash) : (s.onFlash f).seqCounter = s.seqCounter := rfl
@[simp] theorem onFlash_floor (s : State) (f : Flash → Flash) : (s.onFlash f).floor = s.floor := rfl
@[simp] theorem onFlash_time (s : State) (f : Flash → Flash) : (s.onFlash f).time = s.time := rfl
@[simp] theorem onFlash_flash (s : State) (f : Flash → Flash) : (s.onFlash f).flash = f s.flash := rfl
@[simp] theorem onFlash_store (s : State) (f : Flash → Flash) : (s.onFlash f).store = s.store := rfl
@[simp] theorem onFlash_log (s : State) (f : Flash → Flash) : (s.onFlash f).log = s.log := rfl
@[simp] theorem onFlash_dict (s : State) (f : Flash → Flash) : (s.onFlash f).dict = s.dict := rfl
@[simp] theorem onFlash_trans (s : State) (f : Flash → Flash) : (s.onFlash f).trans = s.trans := rfl
@[simp] theorem onFlash_script (s : State) (f : Flash → Flash) : (s.onFlash f).script = s.script := rfl
@[simp] theorem onFlash_feeds (s : State) (f : Flash → Flash) : (s.onFlash f).feeds = s.feeds := rfl
@[simp] theorem onFlash_fmt (s : State) (f : Flash → Flash) : (s.onFlash f).fmt = s.fmt := rfl
@[simp] theorem onFlash_ports (s : State) (f : Flash → Flash) : (s.onFlash f).ports = s.ports := rfl
@[simp] theorem onFlash_host (s : State) (f : Flash → Flash) : (s.onFlash f).host = s.host := rfl
@[simp] theorem onFlash_conds (s : State) (f : Flash → Flash) : (s.onFlash f).conds = s.conds := rfl
@[simp] theorem onFlash_settings (s : State) (f : Flash → Flash) : (s.onFlash f).settings = s.settings := rfl
@[simp] theorem onFlash_pending (s : State) (f : Flash → Flash) : (s.onFlash f).pending = s.pending := rfl
@[simp] theorem onStore_links (s : State) (f : Store → Store) : (s.onStore f).links = s.links := rfl
@[simp] theorem onStore_formers (s : State) (f : Store → Store) : (s.onStore f).formers = s.formers := rfl
@[simp] theorem onStore_seqCounter (s : State) (f : Store → Store) : (s.onStore f).seqCounter = s.seqCounter := rfl
@[simp] theorem onStore_floor (s : State) (f : Store → Store) : (s.onStore f).floor = s.floor := rfl
@[simp] theorem onStore_time (s : State) (f : Store → Store) : (s.onStore f).time = s.time := rfl
@[simp] theorem onStore_flash (s : State) (f : Store → Store) : (s.onStore f).flash = s.flash := rfl
@[simp] theorem onStore_store (s : State) (f : Store → Store) : (s.onStore f).store = f s.store := rfl
@[simp] theorem onStore_log (s : State) (f : Store → Store) : (s.onStore f).log = s.log := rfl
@[simp] theorem onStore_dict (s : State) (f : Store → Store) : (s.onStore f).dict = s.dict := rfl
@[simp] theorem onStore_trans (s : State) (f : Store → Store) : (s.onStore f).trans = s.trans := rfl
@[simp] theorem onStore_script (s : State) (f : Store → Store) : (s.onStore f).script = s.script := rfl
@[simp] theorem onStore_feeds (s : State) (f : Store → Store) : (s.onStore f).feeds = s.feeds := rfl
@[simp] theorem onStore_fmt (s : State) (f : Store → Store) : (s.onStore f).fmt = s.fmt := rfl
@[simp] theorem onStore_ports (s : State) (f : Store → Store) : (s.onStore f).ports = s.ports := rfl
@[simp] theorem onStore_host (s : State) (f : Store → Store) : (s.onStore f).host = s.host := rfl
@[simp] theorem onStore_conds (s : State) (f : Store → Store) : (s.onStore f).conds = s.conds := rfl
@[simp] theorem onStore_settings (s : State) (f : Store → Store) : (s.onStore f).settings = s.settings := rfl
@[simp] theorem onStore_pending (s : State) (f : Store → Store) : (s.onStore f).pending = s.pending := rfl
@[simp] theorem onLog_links (s : State) (f : LogWriter → LogWriter) : (s.onLog f).links = s.links := rfl
@[simp] theorem onLog_formers (s : State) (f : LogWriter → LogWriter) : (s.onLog f).formers = s.formers := rfl
@[simp] theorem onLog_seqCounter (s : State) (f : LogWriter → LogWriter) : (s.onLog f).seqCounter = s.seqCounter := rfl
@[simp] theorem onLog_floor (s : State) (f : LogWriter → LogWriter) : (s.onLog f).floor = s.floor := rfl
@[simp] theorem onLog_time (s : State) (f : LogWriter → LogWriter) : (s.onLog f).time = s.time := rfl
@[simp] theorem onLog_flash (s : State) (f : LogWriter → LogWriter) : (s.onLog f).flash = s.flash := rfl
@[simp] theorem onLog_store (s : State) (f : LogWriter → LogWriter) : (s.onLog f).store = s.store := rfl
@[simp] theorem onLog_log (s : State) (f : LogWriter → LogWriter) : (s.onLog f).log = f s.log := rfl
@[simp] theorem onLog_dict (s : State) (f : LogWriter → LogWriter) : (s.onLog f).dict = s.dict := rfl
@[simp] theorem onLog_trans (s : State) (f : LogWriter → LogWriter) : (s.onLog f).trans = s.trans := rfl
@[simp] theorem onLog_script (s : State) (f : LogWriter → LogWriter) : (s.onLog f).script = s.script := rfl
@[simp] theorem onLog_feeds (s : State) (f : LogWriter → LogWriter) : (s.onLog f).feeds = s.feeds := rfl
@[simp] theorem onLog_fmt (s : State) (f : LogWriter → LogWriter) : (s.onLog f).fmt = s.fmt := rfl
@[simp] theorem onLog_ports (s : State) (f : LogWriter → LogWriter) : (s.onLog f).ports = s.ports := rfl
@[simp] theorem onLog_host (s : State) (f : LogWriter → LogWriter) : (s.onLog f).host = s.host := rfl
@[simp] theorem onLog_conds (s : State) (f : LogWriter → LogWriter) : (s.onLog f).conds = s.conds := rfl
@[simp] theorem onLog_settings (s : State) (f : LogWriter → LogWriter) : (s.onLog f).settings = s.settings := rfl
@[simp] theorem onLog_pending (s : State) (f : LogWriter → LogWriter) : (s.onLog f).pending = s.pending := rfl
@[simp] theorem onDict_links (s : State) (f : Dictionary → Dictionary) : (s.onDict f).links = s.links := rfl
@[simp] theorem onDict_formers (s : State) (f : Dictionary → Dictionary) : (s.onDict f).formers = s.formers := rfl
@[simp] theorem onDict_seqCounter (s : State) (f : Dictionary → Dictionary) : (s.onDict f).seqCounter = s.seqCounter := rfl
@[simp] theorem onDict_floor (s : State) (f : Dictionary → Dictionary) : (s.onDict f).floor = s.floor := rfl
@[simp] theorem onDict_time (s : State) (f : Dictionary → Dictionary) : (s.onDict f).time = s.time := rfl
@[simp] theorem onDict_flash (s : State) (f : Dictionary → Dictionary) : (s.onDict f).flash = s.flash := rfl
@[simp] theorem onDict_store (s : State) (f : Dictionary → Dictionary) : (s.onDict f).store = s.store := rfl
@[simp] theorem onDict_log (s : State) (f : Dictionary → Dictionary) : (s.onDict f).log = s.log := rfl
@[simp] theorem onDict_dict (s : State) (f : Dictionary → Dictionary) : (s.onDict f).dict = f s.dict := rfl
@[simp] theorem onDict_trans (s : State) (f : Dictionary → Dictionary) : (s.onDict f).trans = s.trans := rfl
@[simp] theorem onDict_script (s : State) (f : Dictionary → Dictionary) : (s.onDict f).script = s.script := rfl
@[simp] theorem onDict_feeds (s : State) (f : Dictionary → Dictionary) : (s.onDict f).feeds = s.feeds := rfl
@[simp] theorem onDict_fmt (s : State) (f : Dictionary → Dictionary) : (s.onDict f).fmt = s.fmt := rfl
@[simp] theorem onDict_ports (s : State) (f : Dictionary → Dictionary) : (s.onDict f).ports = s.ports := rfl
@[simp] theorem onDict_host (s : State) (f : Dictionary → Dictionary) : (s.onDict f).host = s.host := rfl
@[simp] theorem onDict_conds (s : State) (f : Dictionary → Dictionary) : (s.onDict f).conds = s.conds := rfl
@[simp] theorem onDict_settings (s : State) (f : Dictionary → Dictionary) : (s.onDict f).settings = s.settings := rfl
@[simp] theorem onDict_pending (s : State) (f : Dictionary → Dictionary) : (s.onDict f).pending = s.pending := rfl
@[simp] theorem onTrans_links (s : State) (f : Translator → Translator) : (s.onTrans f).links = s.links := rfl
@[simp] theorem onTrans_formers (s : State) (f : Translator → Translator) : (s.onTrans f).formers = s.formers := rfl
@[simp] theorem onTrans_seqCounter (s : State) (f : Translator → Translator) : (s.onTrans f).seqCounter = s.seqCounter := rfl
@[simp] theorem onTrans_floor (s : State) (f : Translator → Translator) : (s.onTrans f).floor = s.floor := rfl
@[simp] theorem onTrans_time (s : State) (f : Translator → Translator) : (s.onTrans f).time = s.time := rfl
@[simp] theorem onTrans_flash (s : State) (f : Translator → Translator) : (s.onTrans f).flash = s.flash := rfl
@[simp] theorem onTrans_store (s : State) (f : Translator → Translator) : (s.onTrans f).store = s.store := rfl
@[simp] theorem onTrans_log (s : State) (f : Translator → Translator) : (s.onTrans f).log = s.log := rfl
@[simp] theorem onTrans_dict (s : State) (f : Translator → Translator) : (s.onTrans f).dict = s.dict := rfl
@[simp] theorem onTrans_trans (s : State) (f : Translator → Translator) : (s.onTrans f).trans = f s.trans := rfl
@[simp] theorem onTrans_script (s : State) (f : Translator → Translator) : (s.onTrans f).script = s.script := rfl
@[simp] theorem onTrans_feeds (s : State) (f : Translator → Translator) : (s.onTrans f).feeds = s.feeds := rfl
@[simp] theorem onTrans_fmt (s : State) (f : Translator → Translator) : (s.onTrans f).fmt = s.fmt := rfl
@[simp] theorem onTrans_ports (s : State) (f : Translator → Translator) : (s.onTrans f).ports = s.ports := rfl
@[simp] theorem onTrans_host (s : State) (f : Translator → Translator) : (s.onTrans f).host = s.host := rfl
@[simp] theorem onTrans_conds (s : State) (f : Translator → Translator) : (s.onTrans f).conds = s.conds := rfl
@[simp] theorem onTrans_settings (s : State) (f : Translator → Translator) : (s.onTrans f).settings = s.settings := rfl
@[simp] theorem onTrans_pending (s : State) (f : Translator → Translator) : (s.onTrans f).pending = s.pending := rfl
@[simp] theorem onScript_links (s : State) (f : Transcript → Transcript) : (s.onScript f).links = s.links := rfl
@[simp] theorem onScript_formers (s : State) (f : Transcript → Transcript) : (s.onScript f).formers = s.formers := rfl
@[simp] theorem onScript_seqCounter (s : State) (f : Transcript → Transcript) : (s.onScript f).seqCounter = s.seqCounter := rfl
@[simp] theorem onScript_floor (s : State) (f : Transcript → Transcript) : (s.onScript f).floor = s.floor := rfl
@[simp] theorem onScript_time (s : State) (f : Transcript → Transcript) : (s.onScript f).time = s.time := rfl
@[simp] theorem onScript_flash (s : State) (f : Transcript → Transcript) : (s.onScript f).flash = s.flash := rfl
@[simp] theorem onScript_store (s : State) (f : Transcript → Transcript) : (s.onScript f).store = s.store := rfl
@[simp] theorem onScript_log (s : State) (f : Transcript → Transcript) : (s.onScript f).log = s.log := rfl
@[simp] theorem onScript_dict (s : State) (f : Transcript → Transcript) : (s.onScript f).dict = s.dict := rfl
@[simp] theorem onScript_trans (s : State) (f : Transcript → Transcript) : (s.onScript f).trans = s.trans := rfl
@[simp] theorem onScript_script (s : State) (f : Transcript → Transcript) : (s.onScript f).script = f s.script := rfl
@[simp] theorem onScript_feeds (s : State) (f : Transcript → Transcript) : (s.onScript f).feeds = s.feeds := rfl
@[simp] theorem onScript_fmt (s : State) (f : Transcript → Transcript) : (s.onScript f).fmt = s.fmt := rfl
@[simp] theorem onScript_ports (s : State) (f : Transcript → Transcript) : (s.onScript f).ports = s.ports := rfl
@[simp] theorem onScript_host (s : State) (f : Transcript → Transcript) : (s.onScript f).host = s.host := rfl
@[simp] theorem onScript_conds (s : State) (f : Transcript → Transcript) : (s.onScript f).conds = s.conds := rfl
@[simp] theorem onScript_settings (s : State) (f : Transcript → Transcript) : (s.onScript f).settings = s.settings := rfl
@[simp] theorem onScript_pending (s : State) (f : Transcript → Transcript) : (s.onScript f).pending = s.pending := rfl
@[simp] theorem onFeeds_links (s : State) (f : FeedManager → FeedManager) : (s.onFeeds f).links = s.links := rfl
@[simp] theorem onFeeds_formers (s : State) (f : FeedManager → FeedManager) : (s.onFeeds f).formers = s.formers := rfl
@[simp] theorem onFeeds_seqCounter (s : State) (f : FeedManager → FeedManager) : (s.onFeeds f).seqCounter = s.seqCounter := rfl
@[simp] theorem onFeeds_floor (s : State) (f : FeedManager → FeedManager) : (s.onFeeds f).floor = s.floor := rfl
@[simp] theorem onFeeds_time (s : State) (f : FeedManager → FeedManager) : (s.onFeeds f).time = s.time := rfl
@[simp] theorem onFeeds_flash (s : State) (f : FeedManager → FeedManager) : (s.onFeeds f).flash = s.flash := rfl
@[simp] theorem onFeeds_store (s : State) (f : FeedManager → FeedManager) : (s.onFeeds f).store = s.store := rfl
@[simp] theorem onFeeds_log (s : State) (f : FeedManager → FeedManager) : (s.onFeeds f).log = s.log := rfl
@[simp] theorem onFeeds_dict (s : State) (f : FeedManager → FeedManager) : (s.onFeeds f).dict = s.dict := rfl
@[simp] theorem onFeeds_trans (s : State) (f : FeedManager → FeedManager) : (s.onFeeds f).trans = s.trans := rfl
@[simp] theorem onFeeds_script (s : State) (f : FeedManager → FeedManager) : (s.onFeeds f).script = s.script := rfl
@[simp] theorem onFeeds_feeds (s : State) (f : FeedManager → FeedManager) : (s.onFeeds f).feeds = f s.feeds := rfl
@[simp] theorem onFeeds_fmt (s : State) (f : FeedManager → FeedManager) : (s.onFeeds f).fmt = s.fmt := rfl
@[simp] theorem onFeeds_ports (s : State) (f : FeedManager → FeedManager) : (s.onFeeds f).ports = s.ports := rfl
@[simp] theorem onFeeds_host (s : State) (f : FeedManager → FeedManager) : (s.onFeeds f).host = s.host := rfl
@[simp] theorem onFeeds_conds (s : State) (f : FeedManager → FeedManager) : (s.onFeeds f).conds = s.conds := rfl
@[simp] theorem onFeeds_settings (s : State) (f : FeedManager → FeedManager) : (s.onFeeds f).settings = s.settings := rfl
@[simp] theorem onFeeds_pending (s : State) (f : FeedManager → FeedManager) : (s.onFeeds f).pending = s.pending := rfl
@[simp] theorem onFmt_links (s : State) (f : Formatter → Formatter) : (s.onFmt f).links = s.links := rfl
@[simp] theorem onFmt_formers (s : State) (f : Formatter → Formatter) : (s.onFmt f).formers = s.formers := rfl
@[simp] theorem onFmt_seqCounter (s : State) (f : Formatter → Formatter) : (s.onFmt f).seqCounter = s.seqCounter := rfl
@[simp] theorem onFmt_floor (s : State) (f : Formatter → Formatter) : (s.onFmt f).floor = s.floor := rfl
@[simp] theorem onFmt_time (s : State) (f : Formatter → Formatter) : (s.onFmt f).time = s.time := rfl
@[simp] theorem onFmt_flash (s : State) (f : Formatter → Formatter) : (s.onFmt f).flash = s.flash := rfl
@[simp] theorem onFmt_store (s : State) (f : Formatter → Formatter) : (s.onFmt f).store = s.store := rfl
@[simp] theorem onFmt_log (s : State) (f : Formatter → Formatter) : (s.onFmt f).log = s.log := rfl
@[simp] theorem onFmt_dict (s : State) (f : Formatter → Formatter) : (s.onFmt f).dict = s.dict := rfl
@[simp] theorem onFmt_trans (s : State) (f : Formatter → Formatter) : (s.onFmt f).trans = s.trans := rfl
@[simp] theorem onFmt_script (s : State) (f : Formatter → Formatter) : (s.onFmt f).script = s.script := rfl
@[simp] theorem onFmt_feeds (s : State) (f : Formatter → Formatter) : (s.onFmt f).feeds = s.feeds := rfl
@[simp] theorem onFmt_fmt (s : State) (f : Formatter → Formatter) : (s.onFmt f).fmt = f s.fmt := rfl
@[simp] theorem onFmt_ports (s : State) (f : Formatter → Formatter) : (s.onFmt f).ports = s.ports := rfl
@[simp] theorem onFmt_host (s : State) (f : Formatter → Formatter) : (s.onFmt f).host = s.host := rfl
@[simp] theorem onFmt_conds (s : State) (f : Formatter → Formatter) : (s.onFmt f).conds = s.conds := rfl
@[simp] theorem onFmt_settings (s : State) (f : Formatter → Formatter) : (s.onFmt f).settings = s.settings := rfl
@[simp] theorem onFmt_pending (s : State) (f : Formatter → Formatter) : (s.onFmt f).pending = s.pending := rfl
@[simp] theorem onPorts_links (s : State) (f : Four Port → Four Port) : (s.onPorts f).links = s.links := rfl
@[simp] theorem onPorts_formers (s : State) (f : Four Port → Four Port) : (s.onPorts f).formers = s.formers := rfl
@[simp] theorem onPorts_seqCounter (s : State) (f : Four Port → Four Port) : (s.onPorts f).seqCounter = s.seqCounter := rfl
@[simp] theorem onPorts_floor (s : State) (f : Four Port → Four Port) : (s.onPorts f).floor = s.floor := rfl
@[simp] theorem onPorts_time (s : State) (f : Four Port → Four Port) : (s.onPorts f).time = s.time := rfl
@[simp] theorem onPorts_flash (s : State) (f : Four Port → Four Port) : (s.onPorts f).flash = s.flash := rfl
@[simp] theorem onPorts_store (s : State) (f : Four Port → Four Port) : (s.onPorts f).store = s.store := rfl
@[simp] theorem onPorts_log (s : State) (f : Four Port → Four Port) : (s.onPorts f).log = s.log := rfl
@[simp] theorem onPorts_dict (s : State) (f : Four Port → Four Port) : (s.onPorts f).dict = s.dict := rfl
@[simp] theorem onPorts_trans (s : State) (f : Four Port → Four Port) : (s.onPorts f).trans = s.trans := rfl
@[simp] theorem onPorts_script (s : State) (f : Four Port → Four Port) : (s.onPorts f).script = s.script := rfl
@[simp] theorem onPorts_feeds (s : State) (f : Four Port → Four Port) : (s.onPorts f).feeds = s.feeds := rfl
@[simp] theorem onPorts_fmt (s : State) (f : Four Port → Four Port) : (s.onPorts f).fmt = s.fmt := rfl
@[simp] theorem onPorts_ports (s : State) (f : Four Port → Four Port) : (s.onPorts f).ports = f s.ports := rfl
@[simp] theorem onPorts_host (s : State) (f : Four Port → Four Port) : (s.onPorts f).host = s.host := rfl
@[simp] theorem onPorts_conds (s : State) (f : Four Port → Four Port) : (s.onPorts f).conds = s.conds := rfl
@[simp] theorem onPorts_settings (s : State) (f : Four Port → Four Port) : (s.onPorts f).settings = s.settings := rfl
@[simp] theorem onPorts_pending (s : State) (f : Four Port → Four Port) : (s.onPorts f).pending = s.pending := rfl
@[simp] theorem onHost_links (s : State) (f : HostLink → HostLink) : (s.onHost f).links = s.links := rfl
@[simp] theorem onHost_formers (s : State) (f : HostLink → HostLink) : (s.onHost f).formers = s.formers := rfl
@[simp] theorem onHost_seqCounter (s : State) (f : HostLink → HostLink) : (s.onHost f).seqCounter = s.seqCounter := rfl
@[simp] theorem onHost_floor (s : State) (f : HostLink → HostLink) : (s.onHost f).floor = s.floor := rfl
@[simp] theorem onHost_time (s : State) (f : HostLink → HostLink) : (s.onHost f).time = s.time := rfl
@[simp] theorem onHost_flash (s : State) (f : HostLink → HostLink) : (s.onHost f).flash = s.flash := rfl
@[simp] theorem onHost_store (s : State) (f : HostLink → HostLink) : (s.onHost f).store = s.store := rfl
@[simp] theorem onHost_log (s : State) (f : HostLink → HostLink) : (s.onHost f).log = s.log := rfl
@[simp] theorem onHost_dict (s : State) (f : HostLink → HostLink) : (s.onHost f).dict = s.dict := rfl
@[simp] theorem onHost_trans (s : State) (f : HostLink → HostLink) : (s.onHost f).trans = s.trans := rfl
@[simp] theorem onHost_script (s : State) (f : HostLink → HostLink) : (s.onHost f).script = s.script := rfl
@[simp] theorem onHost_feeds (s : State) (f : HostLink → HostLink) : (s.onHost f).feeds = s.feeds := rfl
@[simp] theorem onHost_fmt (s : State) (f : HostLink → HostLink) : (s.onHost f).fmt = s.fmt := rfl
@[simp] theorem onHost_ports (s : State) (f : HostLink → HostLink) : (s.onHost f).ports = s.ports := rfl
@[simp] theorem onHost_host (s : State) (f : HostLink → HostLink) : (s.onHost f).host = f s.host := rfl
@[simp] theorem onHost_conds (s : State) (f : HostLink → HostLink) : (s.onHost f).conds = s.conds := rfl
@[simp] theorem onHost_settings (s : State) (f : HostLink → HostLink) : (s.onHost f).settings = s.settings := rfl
@[simp] theorem onHost_pending (s : State) (f : HostLink → HostLink) : (s.onHost f).pending = s.pending := rfl
@[simp] theorem onConds_links (s : State) (f : Conditions → Conditions) : (s.onConds f).links = s.links := rfl
@[simp] theorem onConds_formers (s : State) (f : Conditions → Conditions) : (s.onConds f).formers = s.formers := rfl
@[simp] theorem onConds_seqCounter (s : State) (f : Conditions → Conditions) : (s.onConds f).seqCounter = s.seqCounter := rfl
@[simp] theorem onConds_floor (s : State) (f : Conditions → Conditions) : (s.onConds f).floor = s.floor := rfl
@[simp] theorem onConds_time (s : State) (f : Conditions → Conditions) : (s.onConds f).time = s.time := rfl
@[simp] theorem onConds_flash (s : State) (f : Conditions → Conditions) : (s.onConds f).flash = s.flash := rfl
@[simp] theorem onConds_store (s : State) (f : Conditions → Conditions) : (s.onConds f).store = s.store := rfl
@[simp] theorem onConds_log (s : State) (f : Conditions → Conditions) : (s.onConds f).log = s.log := rfl
@[simp] theorem onConds_dict (s : State) (f : Conditions → Conditions) : (s.onConds f).dict = s.dict := rfl
@[simp] theorem onConds_trans (s : State) (f : Conditions → Conditions) : (s.onConds f).trans = s.trans := rfl
@[simp] theorem onConds_script (s : State) (f : Conditions → Conditions) : (s.onConds f).script = s.script := rfl
@[simp] theorem onConds_feeds (s : State) (f : Conditions → Conditions) : (s.onConds f).feeds = s.feeds := rfl
@[simp] theorem onConds_fmt (s : State) (f : Conditions → Conditions) : (s.onConds f).fmt = s.fmt := rfl
@[simp] theorem onConds_ports (s : State) (f : Conditions → Conditions) : (s.onConds f).ports = s.ports := rfl
@[simp] theorem onConds_host (s : State) (f : Conditions → Conditions) : (s.onConds f).host = s.host := rfl
@[simp] theorem onConds_conds (s : State) (f : Conditions → Conditions) : (s.onConds f).conds = f s.conds := rfl
@[simp] theorem onConds_settings (s : State) (f : Conditions → Conditions) : (s.onConds f).settings = s.settings := rfl
@[simp] theorem onConds_pending (s : State) (f : Conditions → Conditions) : (s.onConds f).pending = s.pending := rfl
@[simp] theorem onSettings_links (s : State) (f : Settings → Settings) : (s.onSettings f).links = s.links := rfl
@[simp] theorem onSettings_formers (s : State) (f : Settings → Settings) : (s.onSettings f).formers = s.formers := rfl
@[simp] theorem onSettings_seqCounter (s : State) (f : Settings → Settings) : (s.onSettings f).seqCounter = s.seqCounter := rfl
@[simp] theorem onSettings_floor (s : State) (f : Settings → Settings) : (s.onSettings f).floor = s.floor := rfl
@[simp] theorem onSettings_time (s : State) (f : Settings → Settings) : (s.onSettings f).time = s.time := rfl
@[simp] theorem onSettings_flash (s : State) (f : Settings → Settings) : (s.onSettings f).flash = s.flash := rfl
@[simp] theorem onSettings_store (s : State) (f : Settings → Settings) : (s.onSettings f).store = s.store := rfl
@[simp] theorem onSettings_log (s : State) (f : Settings → Settings) : (s.onSettings f).log = s.log := rfl
@[simp] theorem onSettings_dict (s : State) (f : Settings → Settings) : (s.onSettings f).dict = s.dict := rfl
@[simp] theorem onSettings_trans (s : State) (f : Settings → Settings) : (s.onSettings f).trans = s.trans := rfl
@[simp] theorem onSettings_script (s : State) (f : Settings → Settings) : (s.onSettings f).script = s.script := rfl
@[simp] theorem onSettings_feeds (s : State) (f : Settings → Settings) : (s.onSettings f).feeds = s.feeds := rfl
@[simp] theorem onSettings_fmt (s : State) (f : Settings → Settings) : (s.onSettings f).fmt = s.fmt := rfl
@[simp] theorem onSettings_ports (s : State) (f : Settings → Settings) : (s.onSettings f).ports = s.ports := rfl
@[simp] theorem onSettings_host (s : State) (f : Settings → Settings) : (s.onSettings f).host = s.host := rfl
@[simp] theorem onSettings_conds (s : State) (f : Settings → Settings) : (s.onSettings f).conds = s.conds := rfl
@[simp] theorem onSettings_settings (s : State) (f : Settings → Settings) : (s.onSettings f).settings = f s.settings := rfl
@[simp] theorem onSettings_pending (s : State) (f : Settings → Settings) : (s.onSettings f).pending = s.pending := rfl

@[simp] theorem onLink_links (s : State) (p : Pos) (f : KeyLink → KeyLink) : (s.onLink p f).links = s.links.upd p f := rfl
@[simp] theorem onLink_formers (s : State) (p : Pos) (f : KeyLink → KeyLink) : (s.onLink p f).formers = s.formers := rfl
@[simp] theorem onLink_seqCounter (s : State) (p : Pos) (f : KeyLink → KeyLink) : (s.onLink p f).seqCounter = s.seqCounter := rfl
@[simp] theorem onLink_floor (s : State) (p : Pos) (f : KeyLink → KeyLink) : (s.onLink p f).floor = s.floor := rfl
@[simp] theorem onLink_time (s : State) (p : Pos) (f : KeyLink → KeyLink) : (s.onLink p f).time = s.time := rfl
@[simp] theorem onLink_flash (s : State) (p : Pos) (f : KeyLink → KeyLink) : (s.onLink p f).flash = s.flash := rfl
@[simp] theorem onLink_store (s : State) (p : Pos) (f : KeyLink → KeyLink) : (s.onLink p f).store = s.store := rfl
@[simp] theorem onLink_log (s : State) (p : Pos) (f : KeyLink → KeyLink) : (s.onLink p f).log = s.log := rfl
@[simp] theorem onLink_dict (s : State) (p : Pos) (f : KeyLink → KeyLink) : (s.onLink p f).dict = s.dict := rfl
@[simp] theorem onLink_trans (s : State) (p : Pos) (f : KeyLink → KeyLink) : (s.onLink p f).trans = s.trans := rfl
@[simp] theorem onLink_script (s : State) (p : Pos) (f : KeyLink → KeyLink) : (s.onLink p f).script = s.script := rfl
@[simp] theorem onLink_feeds (s : State) (p : Pos) (f : KeyLink → KeyLink) : (s.onLink p f).feeds = s.feeds := rfl
@[simp] theorem onLink_fmt (s : State) (p : Pos) (f : KeyLink → KeyLink) : (s.onLink p f).fmt = s.fmt := rfl
@[simp] theorem onLink_ports (s : State) (p : Pos) (f : KeyLink → KeyLink) : (s.onLink p f).ports = s.ports := rfl
@[simp] theorem onLink_host (s : State) (p : Pos) (f : KeyLink → KeyLink) : (s.onLink p f).host = s.host := rfl
@[simp] theorem onLink_conds (s : State) (p : Pos) (f : KeyLink → KeyLink) : (s.onLink p f).conds = s.conds := rfl
@[simp] theorem onLink_settings (s : State) (p : Pos) (f : KeyLink → KeyLink) : (s.onLink p f).settings = s.settings := rfl
@[simp] theorem onLink_pending (s : State) (p : Pos) (f : KeyLink → KeyLink) : (s.onLink p f).pending = s.pending := rfl
@[simp] theorem onFormer_links (s : State) (p : Pos) (f : Former → Former) : (s.onFormer p f).links = s.links := rfl
@[simp] theorem onFormer_formers (s : State) (p : Pos) (f : Former → Former) : (s.onFormer p f).formers = s.formers.upd p f := rfl
@[simp] theorem onFormer_seqCounter (s : State) (p : Pos) (f : Former → Former) : (s.onFormer p f).seqCounter = s.seqCounter := rfl
@[simp] theorem onFormer_floor (s : State) (p : Pos) (f : Former → Former) : (s.onFormer p f).floor = s.floor := rfl
@[simp] theorem onFormer_time (s : State) (p : Pos) (f : Former → Former) : (s.onFormer p f).time = s.time := rfl
@[simp] theorem onFormer_flash (s : State) (p : Pos) (f : Former → Former) : (s.onFormer p f).flash = s.flash := rfl
@[simp] theorem onFormer_store (s : State) (p : Pos) (f : Former → Former) : (s.onFormer p f).store = s.store := rfl
@[simp] theorem onFormer_log (s : State) (p : Pos) (f : Former → Former) : (s.onFormer p f).log = s.log := rfl
@[simp] theorem onFormer_dict (s : State) (p : Pos) (f : Former → Former) : (s.onFormer p f).dict = s.dict := rfl
@[simp] theorem onFormer_trans (s : State) (p : Pos) (f : Former → Former) : (s.onFormer p f).trans = s.trans := rfl
@[simp] theorem onFormer_script (s : State) (p : Pos) (f : Former → Former) : (s.onFormer p f).script = s.script := rfl
@[simp] theorem onFormer_feeds (s : State) (p : Pos) (f : Former → Former) : (s.onFormer p f).feeds = s.feeds := rfl
@[simp] theorem onFormer_fmt (s : State) (p : Pos) (f : Former → Former) : (s.onFormer p f).fmt = s.fmt := rfl
@[simp] theorem onFormer_ports (s : State) (p : Pos) (f : Former → Former) : (s.onFormer p f).ports = s.ports := rfl
@[simp] theorem onFormer_host (s : State) (p : Pos) (f : Former → Former) : (s.onFormer p f).host = s.host := rfl
@[simp] theorem onFormer_conds (s : State) (p : Pos) (f : Former → Former) : (s.onFormer p f).conds = s.conds := rfl
@[simp] theorem onFormer_settings (s : State) (p : Pos) (f : Former → Former) : (s.onFormer p f).settings = s.settings := rfl
@[simp] theorem onFormer_pending (s : State) (p : Pos) (f : Former → Former) : (s.onFormer p f).pending = s.pending := rfl
@[simp] theorem onPos_links (s : State) (p : Pos) (f : PosRec → PosRec) : (s.onPos p f).links = s.links := rfl
@[simp] theorem onPos_formers (s : State) (p : Pos) (f : PosRec → PosRec) : (s.onPos p f).formers = s.formers := rfl
@[simp] theorem onPos_seqCounter (s : State) (p : Pos) (f : PosRec → PosRec) : (s.onPos p f).seqCounter = s.seqCounter := rfl
@[simp] theorem onPos_floor (s : State) (p : Pos) (f : PosRec → PosRec) : (s.onPos p f).floor = { s.floor with pos := s.floor.pos.upd p f } := rfl
@[simp] theorem onPos_time (s : State) (p : Pos) (f : PosRec → PosRec) : (s.onPos p f).time = s.time := rfl
@[simp] theorem onPos_flash (s : State) (p : Pos) (f : PosRec → PosRec) : (s.onPos p f).flash = s.flash := rfl
@[simp] theorem onPos_store (s : State) (p : Pos) (f : PosRec → PosRec) : (s.onPos p f).store = s.store := rfl
@[simp] theorem onPos_log (s : State) (p : Pos) (f : PosRec → PosRec) : (s.onPos p f).log = s.log := rfl
@[simp] theorem onPos_dict (s : State) (p : Pos) (f : PosRec → PosRec) : (s.onPos p f).dict = s.dict := rfl
@[simp] theorem onPos_trans (s : State) (p : Pos) (f : PosRec → PosRec) : (s.onPos p f).trans = s.trans := rfl
@[simp] theorem onPos_script (s : State) (p : Pos) (f : PosRec → PosRec) : (s.onPos p f).script = s.script := rfl
@[simp] theorem onPos_feeds (s : State) (p : Pos) (f : PosRec → PosRec) : (s.onPos p f).feeds = s.feeds := rfl
@[simp] theorem onPos_fmt (s : State) (p : Pos) (f : PosRec → PosRec) : (s.onPos p f).fmt = s.fmt := rfl
@[simp] theorem onPos_ports (s : State) (p : Pos) (f : PosRec → PosRec) : (s.onPos p f).ports = s.ports := rfl
@[simp] theorem onPos_host (s : State) (p : Pos) (f : PosRec → PosRec) : (s.onPos p f).host = s.host := rfl
@[simp] theorem onPos_conds (s : State) (p : Pos) (f : PosRec → PosRec) : (s.onPos p f).conds = s.conds := rfl
@[simp] theorem onPos_settings (s : State) (p : Pos) (f : PosRec → PosRec) : (s.onPos p f).settings = s.settings := rfl
@[simp] theorem onPos_pending (s : State) (p : Pos) (f : PosRec → PosRec) : (s.onPos p f).pending = s.pending := rfl
@[simp] theorem onPort_links (s : State) (p : PortId) (f : Port → Port) : (s.onPort p f).links = s.links := rfl
@[simp] theorem onPort_formers (s : State) (p : PortId) (f : Port → Port) : (s.onPort p f).formers = s.formers := rfl
@[simp] theorem onPort_seqCounter (s : State) (p : PortId) (f : Port → Port) : (s.onPort p f).seqCounter = s.seqCounter := rfl
@[simp] theorem onPort_floor (s : State) (p : PortId) (f : Port → Port) : (s.onPort p f).floor = s.floor := rfl
@[simp] theorem onPort_time (s : State) (p : PortId) (f : Port → Port) : (s.onPort p f).time = s.time := rfl
@[simp] theorem onPort_flash (s : State) (p : PortId) (f : Port → Port) : (s.onPort p f).flash = s.flash := rfl
@[simp] theorem onPort_store (s : State) (p : PortId) (f : Port → Port) : (s.onPort p f).store = s.store := rfl
@[simp] theorem onPort_log (s : State) (p : PortId) (f : Port → Port) : (s.onPort p f).log = s.log := rfl
@[simp] theorem onPort_dict (s : State) (p : PortId) (f : Port → Port) : (s.onPort p f).dict = s.dict := rfl
@[simp] theorem onPort_trans (s : State) (p : PortId) (f : Port → Port) : (s.onPort p f).trans = s.trans := rfl
@[simp] theorem onPort_script (s : State) (p : PortId) (f : Port → Port) : (s.onPort p f).script = s.script := rfl
@[simp] theorem onPort_feeds (s : State) (p : PortId) (f : Port → Port) : (s.onPort p f).feeds = s.feeds := rfl
@[simp] theorem onPort_fmt (s : State) (p : PortId) (f : Port → Port) : (s.onPort p f).fmt = s.fmt := rfl
@[simp] theorem onPort_ports (s : State) (p : PortId) (f : Port → Port) : (s.onPort p f).ports = s.ports.upd p f := rfl
@[simp] theorem onPort_host (s : State) (p : PortId) (f : Port → Port) : (s.onPort p f).host = s.host := rfl
@[simp] theorem onPort_conds (s : State) (p : PortId) (f : Port → Port) : (s.onPort p f).conds = s.conds := rfl
@[simp] theorem onPort_settings (s : State) (p : PortId) (f : Port → Port) : (s.onPort p f).settings = s.settings := rfl
@[simp] theorem onPort_pending (s : State) (p : PortId) (f : Port → Port) : (s.onPort p f).pending = s.pending := rfl
@[simp] theorem onFeed_links (s : State) (p : FeedId) (f : Feed → Feed) : (s.onFeed p f).links = s.links := rfl
@[simp] theorem onFeed_formers (s : State) (p : FeedId) (f : Feed → Feed) : (s.onFeed p f).formers = s.formers := rfl
@[simp] theorem onFeed_seqCounter (s : State) (p : FeedId) (f : Feed → Feed) : (s.onFeed p f).seqCounter = s.seqCounter := rfl
@[simp] theorem onFeed_floor (s : State) (p : FeedId) (f : Feed → Feed) : (s.onFeed p f).floor = s.floor := rfl
@[simp] theorem onFeed_time (s : State) (p : FeedId) (f : Feed → Feed) : (s.onFeed p f).time = s.time := rfl
@[simp] theorem onFeed_flash (s : State) (p : FeedId) (f : Feed → Feed) : (s.onFeed p f).flash = s.flash := rfl
@[simp] theorem onFeed_store (s : State) (p : FeedId) (f : Feed → Feed) : (s.onFeed p f).store = s.store := rfl
@[simp] theorem onFeed_log (s : State) (p : FeedId) (f : Feed → Feed) : (s.onFeed p f).log = s.log := rfl
@[simp] theorem onFeed_dict (s : State) (p : FeedId) (f : Feed → Feed) : (s.onFeed p f).dict = s.dict := rfl
@[simp] theorem onFeed_trans (s : State) (p : FeedId) (f : Feed → Feed) : (s.onFeed p f).trans = s.trans := rfl
@[simp] theorem onFeed_script (s : State) (p : FeedId) (f : Feed → Feed) : (s.onFeed p f).script = s.script := rfl
@[simp] theorem onFeed_feeds (s : State) (p : FeedId) (f : Feed → Feed) : (s.onFeed p f).feeds = { s.feeds with feeds := s.feeds.feeds.upd p f } := rfl
@[simp] theorem onFeed_fmt (s : State) (p : FeedId) (f : Feed → Feed) : (s.onFeed p f).fmt = s.fmt := rfl
@[simp] theorem onFeed_ports (s : State) (p : FeedId) (f : Feed → Feed) : (s.onFeed p f).ports = s.ports := rfl
@[simp] theorem onFeed_host (s : State) (p : FeedId) (f : Feed → Feed) : (s.onFeed p f).host = s.host := rfl
@[simp] theorem onFeed_conds (s : State) (p : FeedId) (f : Feed → Feed) : (s.onFeed p f).conds = s.conds := rfl
@[simp] theorem onFeed_settings (s : State) (p : FeedId) (f : Feed → Feed) : (s.onFeed p f).settings = s.settings := rfl
@[simp] theorem onFeed_pending (s : State) (p : FeedId) (f : Feed → Feed) : (s.onFeed p f).pending = s.pending := rfl

@[simp] theorem Two.get_upd_same {α : Type} (t : Two α) (p : Pos) (f : α → α) : (t.upd p f).get p = f (t.get p) := by
  cases p <;> rfl

theorem Two.get_upd_other {α : Type} (t : Two α) (p q : Pos) (f : α → α) (h : q ≠ p) :
    (t.upd p f).get q = t.get q := by
  cases p <;> cases q <;> first | rfl | exact absurd rfl h

@[simp] theorem Four.get_upd_same {α : Type} (t : Four α) (p : PortId) (f : α → α) : (t.upd p f).get p = f (t.get p) := by
  cases p <;> rfl

theorem Four.get_upd_other {α : Type} (t : Four α) (p q : PortId) (f : α → α) (h : q ≠ p) :
    (t.upd p f).get q = t.get q := by
  cases p <;> cases q <;> first | rfl | exact absurd rfl h

@[simp] theorem Five.get_upd_same {α : Type} (t : Five α) (p : FeedId) (f : α → α) : (t.upd p f).get p = f (t.get p) := by
  cases p <;> rfl

theorem Five.get_upd_other {α : Type} (t : Five α) (p q : FeedId) (f : α → α) (h : q ≠ p) :
    (t.upd p f).get q = t.get q := by
  cases p <;> cases q <;> first | rfl | exact absurd rfl h

@[simp] theorem Conditions.get_upd_same (c : Conditions) (k : Cond) (f : CondEntry → CondEntry) :
    (c.upd k f).get k = f (c.get k) := by
  cases k <;> first | rfl | exact Two.get_upd_same _ _ _ | exact Four.get_upd_same _ _ _

theorem Conditions.get_upd_other (c : Conditions) (k l : Cond) (f : CondEntry → CondEntry) (h : l ≠ k) :
    (c.upd k f).get l = c.get l := by
  cases k <;> cases l <;>
    first
    | rfl
    | exact absurd rfl h
    | (refine Two.get_upd_other _ _ _ _ ?_; rintro rfl; exact h rfl)
    | (refine Four.get_upd_other _ _ _ _ ?_; rintro rfl; exact h rfl)

@[simp] theorem Store.region_updRegion_same (st : Store) (d : Dict) (f : Region → Region) :
    (st.updRegion d f).region d = f (st.region d) := by
  cases d <;> rfl

theorem Store.region_updRegion_other (st : Store) (d e : Dict) (f : Region → Region) (h : e ≠ d) :
    (st.updRegion d f).region e = st.region e := by
  cases d <;> cases e <;> first | rfl | exact absurd rfl h

end Sys2Proof.Machine
end

