-- ==== Sys2Proof/Laws/FramesA.lean ====
section
/-! SUPPORT. What the shared operations leave as it was, block by block: the operations of time, notices, feeds, transcript, log
writer, translator and floor. `<operation>_frame` names every block the operation cannot change. -/

namespace Sys2Proof.Machine

/-! ### Folds -/

@[simp] theorem foldl_links {α : Type} (g : State → α → State) (h : ∀ s a, (g s a).links = s.links) (l : List α) (s : State) :
    (l.foldl g s).links = s.links := by
  induction l generalizing s with
  | nil => rfl
  | cons a l ih => simp [ih, h]
@[simp] theorem foldl_formers {α : Type} (g : State → α → State) (h : ∀ s a, (g s a).formers = s.formers) (l : List α) (s : State) :
    (l.foldl g s).formers = s.formers := by
  induction l generalizing s with
  | nil => rfl
  | cons a l ih => simp [ih, h]
@[simp] theorem foldl_seqCounter {α : Type} (g : State → α → State) (h : ∀ s a, (g s a).seqCounter = s.seqCounter) (l : List α) (s : State) :
    (l.foldl g s).seqCounter = s.seqCounter := by
  induction l generalizing s with
  | nil => rfl
  | cons a l ih => simp [ih, h]
@[simp] theorem foldl_floor {α : Type} (g : State → α → State) (h : ∀ s a, (g s a).floor = s.floor) (l : List α) (s : State) :
    (l.foldl g s).floor = s.floor := by
  induction l generalizing s with
  | nil => rfl
  | cons a l ih => simp [ih, h]
@[simp] theorem foldl_time {α : Type} (g : State → α → State) (h : ∀ s a, (g s a).time = s.time) (l : List α) (s : State) :
    (l.foldl g s).time = s.time := by
  induction l generalizing s with
  | nil => rfl
  | cons a l ih => simp [ih, h]
@[simp] theorem foldl_flash {α : Type} (g : State → α → State) (h : ∀ s a, (g s a).flash = s.flash) (l : List α) (s : State) :
    (l.foldl g s).flash = s.flash := by
  induction l generalizing s with
  | nil => rfl
  | cons a l ih => simp [ih, h]
@[simp] theorem foldl_store {α : Type} (g : State → α → State) (h : ∀ s a, (g s a).store = s.store) (l : List α) (s : State) :
    (l.foldl g s).store = s.store := by
  induction l generalizing s with
  | nil => rfl
  | cons a l ih => simp [ih, h]
@[simp] theorem foldl_log {α : Type} (g : State → α → State) (h : ∀ s a, (g s a).log = s.log) (l : List α) (s : State) :
    (l.foldl g s).log = s.log := by
  induction l generalizing s with
  | nil => rfl
  | cons a l ih => simp [ih, h]
@[simp] theorem foldl_dict {α : Type} (g : State → α → State) (h : ∀ s a, (g s a).dict = s.dict) (l : List α) (s : State) :
    (l.foldl g s).dict = s.dict := by
  induction l generalizing s with
  | nil => rfl
  | cons a l ih => simp [ih, h]
@[simp] theorem foldl_trans {α : Type} (g : State → α → State) (h : ∀ s a, (g s a).trans = s.trans) (l : List α) (s : State) :
    (l.foldl g s).trans = s.trans := by
  induction l generalizing s with
  | nil => rfl
  | cons a l ih => simp [ih, h]
@[simp] theorem foldl_script {α : Type} (g : State → α → State) (h : ∀ s a, (g s a).script = s.script) (l : List α) (s : State) :
    (l.foldl g s).script = s.script := by
  induction l generalizing s with
  | nil => rfl
  | cons a l ih => simp [ih, h]
@[simp] theorem foldl_feeds {α : Type} (g : State → α → State) (h : ∀ s a, (g s a).feeds = s.feeds) (l : List α) (s : State) :
    (l.foldl g s).feeds = s.feeds := by
  induction l generalizing s with
  | nil => rfl
  | cons a l ih => simp [ih, h]
@[simp] theorem foldl_fmt {α : Type} (g : State → α → State) (h : ∀ s a, (g s a).fmt = s.fmt) (l : List α) (s : State) :
    (l.foldl g s).fmt = s.fmt := by
  induction l generalizing s with
  | nil => rfl
  | cons a l ih => simp [ih, h]
@[simp] theorem foldl_ports {α : Type} (g : State → α → State) (h : ∀ s a, (g s a).ports = s.ports) (l : List α) (s : State) :
    (l.foldl g s).ports = s.ports := by
  induction l generalizing s with
  | nil => rfl
  | cons a l ih => simp [ih, h]
@[simp] theorem foldl_host {α : Type} (g : State → α → State) (h : ∀ s a, (g s a).host = s.host) (l : List α) (s : State) :
    (l.foldl g s).host = s.host := by
  induction l generalizing s with
  | nil => rfl
  | cons a l ih => simp [ih, h]
@[simp] theorem foldl_conds {α : Type} (g : State → α → State) (h : ∀ s a, (g s a).conds = s.conds) (l : List α) (s : State) :
    (l.foldl g s).conds = s.conds := by
  induction l generalizing s with
  | nil => rfl
  | cons a l ih => simp [ih, h]
@[simp] theorem foldl_settings {α : Type} (g : State → α → State) (h : ∀ s a, (g s a).settings = s.settings) (l : List α) (s : State) :
    (l.foldl g s).settings = s.settings := by
  induction l generalizing s with
  | nil => rfl
  | cons a l ih => simp [ih, h]
@[simp] theorem foldl_pending {α : Type} (g : State → α → State) (h : ∀ s a, (g s a).pending = s.pending) (l : List α) (s : State) :
    (l.foldl g s).pending = s.pending := by
  induction l generalizing s with
  | nil => rfl
  | cons a l ih => simp [ih, h]
@[simp] theorem foldl_time_rate {α : Type} (g : State → α → State) (h : ∀ s a, (g s a).time.rate = s.time.rate) (l : List α) (s : State) :
    (l.foldl g s).time.rate = s.time.rate := by
  induction l generalizing s with
  | nil => rfl
  | cons a l ih => simp [ih, h]
@[simp] theorem foldl_time_now {α : Type} (g : State → α → State) (h : ∀ s a, (g s a).time.now = s.time.now) (l : List α) (s : State) :
    (l.foldl g s).time.now = s.time.now := by
  induction l generalizing s with
  | nil => rfl
  | cons a l ih => simp [ih, h]
@[simp] theorem foldl_host_phase {α : Type} (g : State → α → State) (h : ∀ s a, (g s a).host.phase = s.host.phase) (l : List α) (s : State) :
    (l.foldl g s).host.phase = s.host.phase := by
  induction l generalizing s with
  | nil => rfl
  | cons a l ih => simp [ih, h]
@[simp] theorem foldl_host_replies {α : Type} (g : State → α → State) (h : ∀ s a, (g s a).host.replies = s.host.replies) (l : List α) (s : State) :
    (l.foldl g s).host.replies = s.host.replies := by
  induction l generalizing s with
  | nil => rfl
  | cons a l ih => simp [ih, h]
@[simp] theorem foldl_host_rate {α : Type} (g : State → α → State) (h : ∀ s a, (g s a).host.rate = s.host.rate) (l : List α) (s : State) :
    (l.foldl g s).host.rate = s.host.rate := by
  induction l generalizing s with
  | nil => rfl
  | cons a l ih => simp [ih, h]
@[simp] theorem foldl_log_flush {α : Type} (g : State → α → State) (h : ∀ s a, (g s a).log.flush = s.log.flush) (l : List α) (s : State) :
    (l.foldl g s).log.flush = s.log.flush := by
  induction l generalizing s with
  | nil => rfl
  | cons a l ih => simp [ih, h]
@[simp] theorem foldl_script_session {α : Type} (g : State → α → State) (h : ∀ s a, (g s a).script.session = s.script.session) (l : List α) (s : State) :
    (l.foldl g s).script.session = s.script.session := by
  induction l generalizing s with
  | nil => rfl
  | cons a l ih => simp [ih, h]
@[simp] theorem TimeBase.stamped_rate (t : TimeBase) : t.stamped.rate = t.rate := rfl
@[simp] theorem TimeBase.stamped_now (t : TimeBase) : t.stamped.now = t.now := rfl
@[simp] theorem HostLink.push_phase (h : HostLink) (n : Notice) : (h.push n).phase = h.phase := rfl
@[simp] theorem HostLink.push_replies (h : HostLink) (n : Notice) : (h.push n).replies = h.replies := rfl
@[simp] theorem HostLink.push_rate (h : HostLink) (n : Notice) : (h.push n).rate = h.rate := rfl
@[simp] theorem LogWriter.closePage_flush (w : LogWriter) : w.closePage.flush = w.flush := rfl

/-! ### Ops -/

@[simp] theorem State.advance_frame (d : ℕ) (s : State) :
    (State.advance d s).links = s.links ∧
    (State.advance d s).formers = s.formers ∧
    (State.advance d s).seqCounter = s.seqCounter ∧
    (State.advance d s).floor = s.floor ∧
    (State.advance d s).flash = s.flash ∧
    (State.advance d s).log = s.log ∧
    (State.advance d s).dict = s.dict ∧
    (State.advance d s).script = s.script ∧
    (State.advance d s).feeds = s.feeds ∧
    (State.advance d s).fmt = s.fmt ∧
    (State.advance d s).ports = s.ports ∧
    (State.advance d s).host = s.host ∧
    (State.advance d s).conds = s.conds ∧
    (State.advance d s).settings = s.settings ∧
    (State.advance d s).pending = s.pending := by
  unfold State.advance; simp

@[simp] theorem State.advance_time_rate (d : ℕ) (s : State) :
    (State.advance d s).time.rate = s.time.rate := by
  unfold State.advance; simp

@[simp] theorem State.runTo_frame (s : State) (t : LocalTime) (limit : ℕ) :
    (State.runTo s t limit).links = s.links ∧
    (State.runTo s t limit).formers = s.formers ∧
    (State.runTo s t limit).seqCounter = s.seqCounter ∧
    (State.runTo s t limit).floor = s.floor ∧
    (State.runTo s t limit).flash = s.flash ∧
    (State.runTo s t limit).log = s.log ∧
    (State.runTo s t limit).dict = s.dict ∧
    (State.runTo s t limit).script = s.script ∧
    (State.runTo s t limit).feeds = s.feeds ∧
    (State.runTo s t limit).fmt = s.fmt ∧
    (State.runTo s t limit).ports = s.ports ∧
    (State.runTo s t limit).host = s.host ∧
    (State.runTo s t limit).conds = s.conds ∧
    (State.runTo s t limit).settings = s.settings ∧
    (State.runTo s t limit).pending = s.pending := by
  unfold State.runTo; (repeat' split) <;> simp

@[simp] theorem State.runTo_time_rate (s : State) (t : LocalTime) (limit : ℕ) :
    (State.runTo s t limit).time.rate = s.time.rate := by
  unfold State.runTo; (repeat' split) <;> simp

@[simp] theorem State.stamped_frame (s : State) :
    (State.stamped s).links = s.links ∧
    (State.stamped s).formers = s.formers ∧
    (State.stamped s).seqCounter = s.seqCounter ∧
    (State.stamped s).floor = s.floor ∧
    (State.stamped s).flash = s.flash ∧
    (State.stamped s).store = s.store ∧
    (State.stamped s).log = s.log ∧
    (State.stamped s).dict = s.dict ∧
    (State.stamped s).trans = s.trans ∧
    (State.stamped s).script = s.script ∧
    (State.stamped s).feeds = s.feeds ∧
    (State.stamped s).fmt = s.fmt ∧
    (State.stamped s).ports = s.ports ∧
    (State.stamped s).host = s.host ∧
    (State.stamped s).conds = s.conds ∧
    (State.stamped s).settings = s.settings ∧
    (State.stamped s).pending = s.pending := by
  unfold State.stamped; simp

@[simp] theorem State.stamped_time_rate (s : State) :
    (State.stamped s).time.rate = s.time.rate := by
  unfold State.stamped; simp

@[simp] theorem State.stamped_time_now (s : State) :
    (State.stamped s).time.now = s.time.now := by
  unfold State.stamped; simp

/-! ### Flags -/

@[simp] theorem State.onCond_frame (s : State) (c : Cond) (f : CondEntry → CondEntry) :
    (State.onCond s c f).links = s.links ∧
    (State.onCond s c f).formers = s.formers ∧
    (State.onCond s c f).seqCounter = s.seqCounter ∧
    (State.onCond s c f).floor = s.floor ∧
    (State.onCond s c f).time = s.time ∧
    (State.onCond s c f).flash = s.flash ∧
    (State.onCond s c f).store = s.store ∧
    (State.onCond s c f).log = s.log ∧
    (State.onCond s c f).dict = s.dict ∧
    (State.onCond s c f).trans = s.trans ∧
    (State.onCond s c f).script = s.script ∧
    (State.onCond s c f).feeds = s.feeds ∧
    (State.onCond s c f).fmt = s.fmt ∧
    (State.onCond s c f).ports = s.ports ∧
    (State.onCond s c f).host = s.host ∧
    (State.onCond s c f).settings = s.settings ∧
    (State.onCond s c f).pending = s.pending := by
  unfold State.onCond; simp

@[simp] theorem offerCondition_frame (c : Cond) (raised : Bool) (s : State) :
    (offerCondition c raised s).links = s.links ∧
    (offerCondition c raised s).formers = s.formers ∧
    (offerCondition c raised s).seqCounter = s.seqCounter ∧
    (offerCondition c raised s).floor = s.floor ∧
    (offerCondition c raised s).flash = s.flash ∧
    (offerCondition c raised s).store = s.store ∧
    (offerCondition c raised s).log = s.log ∧
    (offerCondition c raised s).dict = s.dict ∧
    (offerCondition c raised s).trans = s.trans ∧
    (offerCondition c raised s).script = s.script ∧
    (offerCondition c raised s).feeds = s.feeds ∧
    (offerCondition c raised s).fmt = s.fmt ∧
    (offerCondition c raised s).ports = s.ports ∧
    (offerCondition c raised s).settings = s.settings ∧
    (offerCondition c raised s).pending = s.pending := by
  unfold offerCondition; (repeat' split) <;> simp

@[simp] theorem offerCondition_time_rate (c : Cond) (raised : Bool) (s : State) :
    (offerCondition c raised s).time.rate = s.time.rate := by
  unfold offerCondition; (repeat' split) <;> simp

@[simp] theorem offerCondition_time_now (c : Cond) (raised : Bool) (s : State) :
    (offerCondition c raised s).time.now = s.time.now := by
  unfold offerCondition; (repeat' split) <;> simp

@[simp] theorem offerCondition_host_phase (c : Cond) (raised : Bool) (s : State) :
    (offerCondition c raised s).host.phase = s.host.phase := by
  unfold offerCondition; (repeat' split) <;> simp

@[simp] theorem offerCondition_host_replies (c : Cond) (raised : Bool) (s : State) :
    (offerCondition c raised s).host.replies = s.host.replies := by
  unfold offerCondition; (repeat' split) <;> simp

@[simp] theorem offerCondition_host_rate (c : Cond) (raised : Bool) (s : State) :
    (offerCondition c raised s).host.rate = s.host.rate := by
  unfold offerCondition; (repeat' split) <;> simp

@[simp] theorem causePresent_frame (c : Cond) (s : State) :
    (causePresent c s).links = s.links ∧
    (causePresent c s).formers = s.formers ∧
    (causePresent c s).seqCounter = s.seqCounter ∧
    (causePresent c s).floor = s.floor ∧
    (causePresent c s).flash = s.flash ∧
    (causePresent c s).store = s.store ∧
    (causePresent c s).log = s.log ∧
    (causePresent c s).dict = s.dict ∧
    (causePresent c s).trans = s.trans ∧
    (causePresent c s).script = s.script ∧
    (causePresent c s).feeds = s.feeds ∧
    (causePresent c s).fmt = s.fmt ∧
    (causePresent c s).ports = s.ports ∧
    (causePresent c s).settings = s.settings ∧
    (causePresent c s).pending = s.pending := by
  unfold causePresent; (repeat' split) <;> simp

@[simp] theorem causePresent_time_rate (c : Cond) (s : State) :
    (causePresent c s).time.rate = s.time.rate := by
  unfold causePresent; (repeat' split) <;> simp

@[simp] theorem causePresent_time_now (c : Cond) (s : State) :
    (causePresent c s).time.now = s.time.now := by
  unfold causePresent; (repeat' split) <;> simp

@[simp] theorem causePresent_host_phase (c : Cond) (s : State) :
    (causePresent c s).host.phase = s.host.phase := by
  unfold causePresent; (repeat' split) <;> simp

@[simp] theorem causePresent_host_replies (c : Cond) (s : State) :
    (causePresent c s).host.replies = s.host.replies := by
  unfold causePresent; (repeat' split) <;> simp

@[simp] theorem causePresent_host_rate (c : Cond) (s : State) :
    (causePresent c s).host.rate = s.host.rate := by
  unfold causePresent; (repeat' split) <;> simp

@[simp] theorem causeAbsent_frame (c : Cond) (s : State) :
    (causeAbsent c s).links = s.links ∧
    (causeAbsent c s).formers = s.formers ∧
    (causeAbsent c s).seqCounter = s.seqCounter ∧
    (causeAbsent c s).floor = s.floor ∧
    (causeAbsent c s).flash = s.flash ∧
    (causeAbsent c s).store = s.store ∧
    (causeAbsent c s).log = s.log ∧
    (causeAbsent c s).dict = s.dict ∧
    (causeAbsent c s).trans = s.trans ∧
    (causeAbsent c s).script = s.script ∧
    (causeAbsent c s).feeds = s.feeds ∧
    (causeAbsent c s).fmt = s.fmt ∧
    (causeAbsent c s).ports = s.ports ∧
    (causeAbsent c s).settings = s.settings ∧
    (causeAbsent c s).pending = s.pending := by
  unfold causeAbsent; (repeat' split) <;> simp

@[simp] theorem causeAbsent_time_rate (c : Cond) (s : State) :
    (causeAbsent c s).time.rate = s.time.rate := by
  unfold causeAbsent; (repeat' split) <;> simp

@[simp] theorem causeAbsent_time_now (c : Cond) (s : State) :
    (causeAbsent c s).time.now = s.time.now := by
  unfold causeAbsent; (repeat' split) <;> simp

@[simp] theorem causeAbsent_host_phase (c : Cond) (s : State) :
    (causeAbsent c s).host.phase = s.host.phase := by
  unfold causeAbsent; (repeat' split) <;> simp

@[simp] theorem causeAbsent_host_replies (c : Cond) (s : State) :
    (causeAbsent c s).host.replies = s.host.replies := by
  unfold causeAbsent; (repeat' split) <;> simp

@[simp] theorem causeAbsent_host_rate (c : Cond) (s : State) :
    (causeAbsent c s).host.rate = s.host.rate := by
  unfold causeAbsent; (repeat' split) <;> simp

@[simp] theorem setCause_frame (c : Cond) (present : Bool) (s : State) :
    (setCause c present s).links = s.links ∧
    (setCause c present s).formers = s.formers ∧
    (setCause c present s).seqCounter = s.seqCounter ∧
    (setCause c present s).floor = s.floor ∧
    (setCause c present s).flash = s.flash ∧
    (setCause c present s).store = s.store ∧
    (setCause c present s).log = s.log ∧
    (setCause c present s).dict = s.dict ∧
    (setCause c present s).trans = s.trans ∧
    (setCause c present s).script = s.script ∧
    (setCause c present s).feeds = s.feeds ∧
    (setCause c present s).fmt = s.fmt ∧
    (setCause c present s).ports = s.ports ∧
    (setCause c present s).settings = s.settings ∧
    (setCause c present s).pending = s.pending := by
  unfold setCause; (repeat' split) <;> simp

@[simp] theorem setCause_time_rate (c : Cond) (present : Bool) (s : State) :
    (setCause c present s).time.rate = s.time.rate := by
  unfold setCause; (repeat' split) <;> simp

@[simp] theorem setCause_time_now (c : Cond) (present : Bool) (s : State) :
    (setCause c present s).time.now = s.time.now := by
  unfold setCause; (repeat' split) <;> simp

@[simp] theorem setCause_host_phase (c : Cond) (present : Bool) (s : State) :
    (setCause c present s).host.phase = s.host.phase := by
  unfold setCause; (repeat' split) <;> simp

@[simp] theorem setCause_host_replies (c : Cond) (present : Bool) (s : State) :
    (setCause c present s).host.replies = s.host.replies := by
  unfold setCause; (repeat' split) <;> simp

@[simp] theorem setCause_host_rate (c : Cond) (present : Bool) (s : State) :
    (setCause c present s).host.rate = s.host.rate := by
  unfold setCause; (repeat' split) <;> simp

@[simp] theorem raiseLatched_frame (c : Cond) (s : State) :
    (raiseLatched c s).links = s.links ∧
    (raiseLatched c s).formers = s.formers ∧
    (raiseLatched c s).seqCounter = s.seqCounter ∧
    (raiseLatched c s).floor = s.floor ∧
    (raiseLatched c s).flash = s.flash ∧
    (raiseLatched c s).store = s.store ∧
    (raiseLatched c s).log = s.log ∧
    (raiseLatched c s).dict = s.dict ∧
    (raiseLatched c s).trans = s.trans ∧
    (raiseLatched c s).script = s.script ∧
    (raiseLatched c s).feeds = s.feeds ∧
    (raiseLatched c s).fmt = s.fmt ∧
    (raiseLatched c s).ports = s.ports ∧
    (raiseLatched c s).settings = s.settings ∧
    (raiseLatched c s).pending = s.pending := by
  unfold raiseLatched; (repeat' split) <;> simp

@[simp] theorem raiseLatched_time_rate (c : Cond) (s : State) :
    (raiseLatched c s).time.rate = s.time.rate := by
  unfold raiseLatched; (repeat' split) <;> simp

@[simp] theorem raiseLatched_time_now (c : Cond) (s : State) :
    (raiseLatched c s).time.now = s.time.now := by
  unfold raiseLatched; (repeat' split) <;> simp

@[simp] theorem raiseLatched_host_phase (c : Cond) (s : State) :
    (raiseLatched c s).host.phase = s.host.phase := by
  unfold raiseLatched; (repeat' split) <;> simp

@[simp] theorem raiseLatched_host_replies (c : Cond) (s : State) :
    (raiseLatched c s).host.replies = s.host.replies := by
  unfold raiseLatched; (repeat' split) <;> simp

@[simp] theorem raiseLatched_host_rate (c : Cond) (s : State) :
    (raiseLatched c s).host.rate = s.host.rate := by
  unfold raiseLatched; (repeat' split) <;> simp

@[simp] theorem offerNotice_frame (n : Notice) (s : State) :
    (offerNotice n s).links = s.links ∧
    (offerNotice n s).formers = s.formers ∧
    (offerNotice n s).seqCounter = s.seqCounter ∧
    (offerNotice n s).floor = s.floor ∧
    (offerNotice n s).flash = s.flash ∧
    (offerNotice n s).store = s.store ∧
    (offerNotice n s).log = s.log ∧
    (offerNotice n s).dict = s.dict ∧
    (offerNotice n s).trans = s.trans ∧
    (offerNotice n s).script = s.script ∧
    (offerNotice n s).feeds = s.feeds ∧
    (offerNotice n s).fmt = s.fmt ∧
    (offerNotice n s).ports = s.ports ∧
    (offerNotice n s).settings = s.settings ∧
    (offerNotice n s).pending = s.pending := by
  unfold offerNotice; (repeat' split) <;> simp

@[simp] theorem offerNotice_time_rate (n : Notice) (s : State) :
    (offerNotice n s).time.rate = s.time.rate := by
  unfold offerNotice; (repeat' split) <;> simp

@[simp] theorem offerNotice_time_now (n : Notice) (s : State) :
    (offerNotice n s).time.now = s.time.now := by
  unfold offerNotice; (repeat' split) <;> simp

@[simp] theorem offerNotice_host_phase (n : Notice) (s : State) :
    (offerNotice n s).host.phase = s.host.phase := by
  unfold offerNotice; (repeat' split) <;> simp

@[simp] theorem offerNotice_host_replies (n : Notice) (s : State) :
    (offerNotice n s).host.replies = s.host.replies := by
  unfold offerNotice; (repeat' split) <;> simp

@[simp] theorem offerNotice_host_rate (n : Notice) (s : State) :
    (offerNotice n s).host.rate = s.host.rate := by
  unfold offerNotice; (repeat' split) <;> simp

@[simp] theorem enterOwed_frame (s : State) :
    (enterOwed s).links = s.links ∧
    (enterOwed s).formers = s.formers ∧
    (enterOwed s).seqCounter = s.seqCounter ∧
    (enterOwed s).floor = s.floor ∧
    (enterOwed s).flash = s.flash ∧
    (enterOwed s).store = s.store ∧
    (enterOwed s).log = s.log ∧
    (enterOwed s).dict = s.dict ∧
    (enterOwed s).trans = s.trans ∧
    (enterOwed s).script = s.script ∧
    (enterOwed s).feeds = s.feeds ∧
    (enterOwed s).fmt = s.fmt ∧
    (enterOwed s).ports = s.ports ∧
    (enterOwed s).settings = s.settings ∧
    (enterOwed s).pending = s.pending := by
  unfold enterOwed; (repeat' split) <;> simp

@[simp] theorem enterOwed_time_rate (s : State) :
    (enterOwed s).time.rate = s.time.rate := by
  unfold enterOwed; (repeat' split) <;> simp

@[simp] theorem enterOwed_time_now (s : State) :
    (enterOwed s).time.now = s.time.now := by
  unfold enterOwed; (repeat' split) <;> simp

@[simp] theorem enterOwed_host_phase (s : State) :
    (enterOwed s).host.phase = s.host.phase := by
  unfold enterOwed; (repeat' split) <;> simp

@[simp] theorem enterOwed_host_replies (s : State) :
    (enterOwed s).host.replies = s.host.replies := by
  unfold enterOwed; (repeat' split) <;> simp

@[simp] theorem enterOwed_host_rate (s : State) :
    (enterOwed s).host.rate = s.host.rate := by
  unfold enterOwed; (repeat' split) <;> simp

@[simp] theorem chooseFrame_frame (s : State) :
    (chooseFrame s).links = s.links ∧
    (chooseFrame s).formers = s.formers ∧
    (chooseFrame s).seqCounter = s.seqCounter ∧
    (chooseFrame s).floor = s.floor ∧
    (chooseFrame s).flash = s.flash ∧
    (chooseFrame s).store = s.store ∧
    (chooseFrame s).log = s.log ∧
    (chooseFrame s).dict = s.dict ∧
    (chooseFrame s).trans = s.trans ∧
    (chooseFrame s).script = s.script ∧
    (chooseFrame s).feeds = s.feeds ∧
    (chooseFrame s).fmt = s.fmt ∧
    (chooseFrame s).ports = s.ports ∧
    (chooseFrame s).settings = s.settings ∧
    (chooseFrame s).pending = s.pending := by
  unfold chooseFrame; (repeat' split) <;> simp

@[simp] theorem chooseFrame_time_rate (s : State) :
    (chooseFrame s).time.rate = s.time.rate := by
  unfold chooseFrame; (repeat' split) <;> simp

@[simp] theorem chooseFrame_time_now (s : State) :
    (chooseFrame s).time.now = s.time.now := by
  unfold chooseFrame; (repeat' split) <;> simp

@[simp] theorem chooseFrame_host_phase (s : State) :
    (chooseFrame s).host.phase = s.host.phase := by
  unfold chooseFrame; (repeat' split) <;> simp

@[simp] theorem chooseFrame_host_rate (s : State) :
    (chooseFrame s).host.rate = s.host.rate := by
  unfold chooseFrame; (repeat' split) <;> simp

@[simp] theorem complete_frame (tag : Byte) (kind : Byte) (failed : Option Reason) (data : Bytes) (s : State) :
    (complete tag kind failed data s).links = s.links ∧
    (complete tag kind failed data s).formers = s.formers ∧
    (complete tag kind failed data s).seqCounter = s.seqCounter ∧
    (complete tag kind failed data s).floor = s.floor ∧
    (complete tag kind failed data s).flash = s.flash ∧
    (complete tag kind failed data s).store = s.store ∧
    (complete tag kind failed data s).log = s.log ∧
    (complete tag kind failed data s).dict = s.dict ∧
    (complete tag kind failed data s).trans = s.trans ∧
    (complete tag kind failed data s).script = s.script ∧
    (complete tag kind failed data s).feeds = s.feeds ∧
    (complete tag kind failed data s).fmt = s.fmt ∧
    (complete tag kind failed data s).ports = s.ports ∧
    (complete tag kind failed data s).settings = s.settings ∧
    (complete tag kind failed data s).pending = s.pending := by
  unfold complete; simp

@[simp] theorem complete_time_rate (tag : Byte) (kind : Byte) (failed : Option Reason) (data : Bytes) (s : State) :
    (complete tag kind failed data s).time.rate = s.time.rate := by
  unfold complete; simp

@[simp] theorem complete_time_now (tag : Byte) (kind : Byte) (failed : Option Reason) (data : Bytes) (s : State) :
    (complete tag kind failed data s).time.now = s.time.now := by
  unfold complete; simp

@[simp] theorem complete_host_phase (tag : Byte) (kind : Byte) (failed : Option Reason) (data : Bytes) (s : State) :
    (complete tag kind failed data s).host.phase = s.host.phase := by
  unfold complete; simp

@[simp] theorem complete_host_replies (tag : Byte) (kind : Byte) (failed : Option Reason) (data : Bytes) (s : State) :
    (complete tag kind failed data s).host.replies = s.host.replies := by
  unfold complete; simp

@[simp] theorem complete_host_rate (tag : Byte) (kind : Byte) (failed : Option Reason) (data : Bytes) (s : State) :
    (complete tag kind failed data s).host.rate = s.host.rate := by
  unfold complete; simp

@[simp] theorem completeIf_frame (tag : Option Byte) (kind : Byte) (failed : Option Reason) (data : Bytes) (s : State) :
    (completeIf tag kind failed data s).links = s.links ∧
    (completeIf tag kind failed data s).formers = s.formers ∧
    (completeIf tag kind failed data s).seqCounter = s.seqCounter ∧
    (completeIf tag kind failed data s).floor = s.floor ∧
    (completeIf tag kind failed data s).flash = s.flash ∧
    (completeIf tag kind failed data s).store = s.store ∧
    (completeIf tag kind failed data s).log = s.log ∧
    (completeIf tag kind failed data s).dict = s.dict ∧
    (completeIf tag kind failed data s).trans = s.trans ∧
    (completeIf tag kind failed data s).script = s.script ∧
    (completeIf tag kind failed data s).feeds = s.feeds ∧
    (completeIf tag kind failed data s).fmt = s.fmt ∧
    (completeIf tag kind failed data s).ports = s.ports ∧
    (completeIf tag kind failed data s).settings = s.settings ∧
    (completeIf tag kind failed data s).pending = s.pending := by
  unfold completeIf; (repeat' split) <;> simp

@[simp] theorem completeIf_time_rate (tag : Option Byte) (kind : Byte) (failed : Option Reason) (data : Bytes) (s : State) :
    (completeIf tag kind failed data s).time.rate = s.time.rate := by
  unfold completeIf; (repeat' split) <;> simp

@[simp] theorem completeIf_time_now (tag : Option Byte) (kind : Byte) (failed : Option Reason) (data : Bytes) (s : State) :
    (completeIf tag kind failed data s).time.now = s.time.now := by
  unfold completeIf; (repeat' split) <;> simp

@[simp] theorem completeIf_host_phase (tag : Option Byte) (kind : Byte) (failed : Option Reason) (data : Bytes) (s : State) :
    (completeIf tag kind failed data s).host.phase = s.host.phase := by
  unfold completeIf; (repeat' split) <;> simp

@[simp] theorem completeIf_host_replies (tag : Option Byte) (kind : Byte) (failed : Option Reason) (data : Bytes) (s : State) :
    (completeIf tag kind failed data s).host.replies = s.host.replies := by
  unfold completeIf; (repeat' split) <;> simp

@[simp] theorem completeIf_host_rate (tag : Option Byte) (kind : Byte) (failed : Option Reason) (data : Bytes) (s : State) :
    (completeIf tag kind failed data s).host.rate = s.host.rate := by
  unfold completeIf; (repeat' split) <;> simp

/-! ### Feeds -/

@[simp] theorem report_frame (r : Report) (s : State) :
    (report r s).links = s.links ∧
    (report r s).formers = s.formers ∧
    (report r s).seqCounter = s.seqCounter ∧
    (report r s).floor = s.floor ∧
    (report r s).time = s.time ∧
    (report r s).flash = s.flash ∧
    (report r s).store = s.store ∧
    (report r s).log = s.log ∧
    (report r s).dict = s.dict ∧
    (report r s).trans = s.trans ∧
    (report r s).script = s.script ∧
    (report r s).fmt = s.fmt ∧
    (report r s).ports = s.ports ∧
    (report r s).host = s.host ∧
    (report r s).conds = s.conds ∧
    (report r s).settings = s.settings ∧
    (report r s).pending = s.pending := by
  unfold report; simp

@[simp] theorem settleAll_frame (s : State) :
    (settleAll s).links = s.links ∧
    (settleAll s).formers = s.formers ∧
    (settleAll s).seqCounter = s.seqCounter ∧
    (settleAll s).floor = s.floor ∧
    (settleAll s).time = s.time ∧
    (settleAll s).flash = s.flash ∧
    (settleAll s).store = s.store ∧
    (settleAll s).log = s.log ∧
    (settleAll s).dict = s.dict ∧
    (settleAll s).trans = s.trans ∧
    (settleAll s).script = s.script ∧
    (settleAll s).fmt = s.fmt ∧
    (settleAll s).ports = s.ports ∧
    (settleAll s).host = s.host ∧
    (settleAll s).conds = s.conds ∧
    (settleAll s).settings = s.settings ∧
    (settleAll s).pending = s.pending := by
  unfold settleAll; simp

@[simp] theorem repaintFeed_frame (i : FeedId) (s : State) :
    (repaintFeed i s).links = s.links ∧
    (repaintFeed i s).formers = s.formers ∧
    (repaintFeed i s).seqCounter = s.seqCounter ∧
    (repaintFeed i s).floor = s.floor ∧
    (repaintFeed i s).time = s.time ∧
    (repaintFeed i s).flash = s.flash ∧
    (repaintFeed i s).store = s.store ∧
    (repaintFeed i s).log = s.log ∧
    (repaintFeed i s).dict = s.dict ∧
    (repaintFeed i s).trans = s.trans ∧
    (repaintFeed i s).script = s.script ∧
    (repaintFeed i s).fmt = s.fmt ∧
    (repaintFeed i s).ports = s.ports ∧
    (repaintFeed i s).host = s.host ∧
    (repaintFeed i s).conds = s.conds ∧
    (repaintFeed i s).settings = s.settings ∧
    (repaintFeed i s).pending = s.pending := by
  unfold repaintFeed; simp

@[simp] theorem settleFeed_frame (i : FeedId) (s : State) :
    (settleFeed i s).links = s.links ∧
    (settleFeed i s).formers = s.formers ∧
    (settleFeed i s).seqCounter = s.seqCounter ∧
    (settleFeed i s).floor = s.floor ∧
    (settleFeed i s).time = s.time ∧
    (settleFeed i s).flash = s.flash ∧
    (settleFeed i s).store = s.store ∧
    (settleFeed i s).log = s.log ∧
    (settleFeed i s).dict = s.dict ∧
    (settleFeed i s).trans = s.trans ∧
    (settleFeed i s).script = s.script ∧
    (settleFeed i s).fmt = s.fmt ∧
    (settleFeed i s).ports = s.ports ∧
    (settleFeed i s).host = s.host ∧
    (settleFeed i s).conds = s.conds ∧
    (settleFeed i s).settings = s.settings ∧
    (settleFeed i s).pending = s.pending := by
  unfold settleFeed; simp

/-! ### Transcript -/

@[simp] theorem firmUnit_frame (n : ℕ) (s : State) :
    (firmUnit n s).links = s.links ∧
    (firmUnit n s).formers = s.formers ∧
    (firmUnit n s).seqCounter = s.seqCounter ∧
    (firmUnit n s).floor = s.floor ∧
    (firmUnit n s).time = s.time ∧
    (firmUnit n s).flash = s.flash ∧
    (firmUnit n s).store = s.store ∧
    (firmUnit n s).log = s.log ∧
    (firmUnit n s).dict = s.dict ∧
    (firmUnit n s).trans = s.trans ∧
    (firmUnit n s).fmt = s.fmt ∧
    (firmUnit n s).ports = s.ports ∧
    (firmUnit n s).host = s.host ∧
    (firmUnit n s).conds = s.conds ∧
    (firmUnit n s).settings = s.settings ∧
    (firmUnit n s).pending = s.pending := by
  unfold firmUnit; simp

@[simp] theorem firmUnit_script_session (n : ℕ) (s : State) :
    (firmUnit n s).script.session = s.script.session := by
  unfold firmUnit; simp

@[simp] theorem firmOldest_frame (x0 : ℕ) (x1 : State) :
    (firmOldest x0 x1).links = x1.links ∧
    (firmOldest x0 x1).formers = x1.formers ∧
    (firmOldest x0 x1).seqCounter = x1.seqCounter ∧
    (firmOldest x0 x1).floor = x1.floor ∧
    (firmOldest x0 x1).time = x1.time ∧
    (firmOldest x0 x1).flash = x1.flash ∧
    (firmOldest x0 x1).store = x1.store ∧
    (firmOldest x0 x1).log = x1.log ∧
    (firmOldest x0 x1).dict = x1.dict ∧
    (firmOldest x0 x1).trans = x1.trans ∧
    (firmOldest x0 x1).fmt = x1.fmt ∧
    (firmOldest x0 x1).ports = x1.ports ∧
    (firmOldest x0 x1).host = x1.host ∧
    (firmOldest x0 x1).conds = x1.conds ∧
    (firmOldest x0 x1).settings = x1.settings ∧
    (firmOldest x0 x1).pending = x1.pending := by
  fun_induction firmOldest x0 x1 <;> simp_all

@[simp] theorem firmOldest_script_session (x0 : ℕ) (x1 : State) :
    (firmOldest x0 x1).script.session = x1.script.session := by
  fun_induction firmOldest x0 x1 <;> simp_all

@[simp] theorem firmByCount_frame (s : State) :
    (firmByCount s).links = s.links ∧
    (firmByCount s).formers = s.formers ∧
    (firmByCount s).seqCounter = s.seqCounter ∧
    (firmByCount s).floor = s.floor ∧
    (firmByCount s).time = s.time ∧
    (firmByCount s).flash = s.flash ∧
    (firmByCount s).store = s.store ∧
    (firmByCount s).log = s.log ∧
    (firmByCount s).dict = s.dict ∧
    (firmByCount s).trans = s.trans ∧
    (firmByCount s).fmt = s.fmt ∧
    (firmByCount s).ports = s.ports ∧
    (firmByCount s).host = s.host ∧
    (firmByCount s).conds = s.conds ∧
    (firmByCount s).settings = s.settings ∧
    (firmByCount s).pending = s.pending := by
  unfold firmByCount; simp

@[simp] theorem firmByCount_script_session (s : State) :
    (firmByCount s).script.session = s.script.session := by
  unfold firmByCount; simp

@[simp] theorem firmByTime_frame (s : State) :
    (firmByTime s).links = s.links ∧
    (firmByTime s).formers = s.formers ∧
    (firmByTime s).seqCounter = s.seqCounter ∧
    (firmByTime s).floor = s.floor ∧
    (firmByTime s).time = s.time ∧
    (firmByTime s).flash = s.flash ∧
    (firmByTime s).store = s.store ∧
    (firmByTime s).log = s.log ∧
    (firmByTime s).dict = s.dict ∧
    (firmByTime s).trans = s.trans ∧
    (firmByTime s).fmt = s.fmt ∧
    (firmByTime s).ports = s.ports ∧
    (firmByTime s).host = s.host ∧
    (firmByTime s).conds = s.conds ∧
    (firmByTime s).settings = s.settings ∧
    (firmByTime s).pending = s.pending := by
  unfold firmByTime; simp

@[simp] theorem firmByTime_script_session (s : State) :
    (firmByTime s).script.session = s.script.session := by
  unfold firmByTime; simp

@[simp] theorem releaseLock_frame (s : State) :
    (releaseLock s).links = s.links ∧
    (releaseLock s).formers = s.formers ∧
    (releaseLock s).seqCounter = s.seqCounter ∧
    (releaseLock s).floor = s.floor ∧
    (releaseLock s).time = s.time ∧
    (releaseLock s).flash = s.flash ∧
    (releaseLock s).store = s.store ∧
    (releaseLock s).log = s.log ∧
    (releaseLock s).dict = s.dict ∧
    (releaseLock s).trans = s.trans ∧
    (releaseLock s).feeds = s.feeds ∧
    (releaseLock s).fmt = s.fmt ∧
    (releaseLock s).ports = s.ports ∧
    (releaseLock s).host = s.host ∧
    (releaseLock s).conds = s.conds ∧
    (releaseLock s).settings = s.settings ∧
    (releaseLock s).pending = s.pending := by
  unfold releaseLock; simp

@[simp] theorem releaseLock_script_session (s : State) :
    (releaseLock s).script.session = s.script.session := by
  unfold releaseLock; simp

@[simp] theorem breakLock_frame (n : ℕ) (s : State) :
    (breakLock n s).links = s.links ∧
    (breakLock n s).formers = s.formers ∧
    (breakLock n s).seqCounter = s.seqCounter ∧
    (breakLock n s).floor = s.floor ∧
    (breakLock n s).flash = s.flash ∧
    (breakLock n s).store = s.store ∧
    (breakLock n s).log = s.log ∧
    (breakLock n s).dict = s.dict ∧
    (breakLock n s).trans = s.trans ∧
    (breakLock n s).feeds = s.feeds ∧
    (breakLock n s).fmt = s.fmt ∧
    (breakLock n s).ports = s.ports ∧
    (breakLock n s).settings = s.settings ∧
    (breakLock n s).pending = s.pending := by
  unfold breakLock; (repeat' split) <;> simp

@[simp] theorem breakLock_time_rate (n : ℕ) (s : State) :
    (breakLock n s).time.rate = s.time.rate := by
  unfold breakLock; (repeat' split) <;> simp

@[simp] theorem breakLock_time_now (n : ℕ) (s : State) :
    (breakLock n s).time.now = s.time.now := by
  unfold breakLock; (repeat' split) <;> simp

@[simp] theorem breakLock_host_phase (n : ℕ) (s : State) :
    (breakLock n s).host.phase = s.host.phase := by
  unfold breakLock; (repeat' split) <;> simp

@[simp] theorem breakLock_host_replies (n : ℕ) (s : State) :
    (breakLock n s).host.replies = s.host.replies := by
  unfold breakLock; (repeat' split) <;> simp

@[simp] theorem breakLock_host_rate (n : ℕ) (s : State) :
    (breakLock n s).host.rate = s.host.rate := by
  unfold breakLock; (repeat' split) <;> simp

@[simp] theorem breakLock_script_session (n : ℕ) (s : State) :
    (breakLock n s).script.session = s.script.session := by
  unfold breakLock; (repeat' split) <;> simp

@[simp] theorem dropUntranslate_frame (n : ℕ) (s : State) :
    (dropUntranslate n s).links = s.links ∧
    (dropUntranslate n s).formers = s.formers ∧
    (dropUntranslate n s).seqCounter = s.seqCounter ∧
    (dropUntranslate n s).floor = s.floor ∧
    (dropUntranslate n s).time = s.time ∧
    (dropUntranslate n s).flash = s.flash ∧
    (dropUntranslate n s).store = s.store ∧
    (dropUntranslate n s).log = s.log ∧
    (dropUntranslate n s).dict = s.dict ∧
    (dropUntranslate n s).script = s.script ∧
    (dropUntranslate n s).feeds = s.feeds ∧
    (dropUntranslate n s).fmt = s.fmt ∧
    (dropUntranslate n s).ports = s.ports ∧
    (dropUntranslate n s).host = s.host ∧
    (dropUntranslate n s).conds = s.conds ∧
    (dropUntranslate n s).settings = s.settings ∧
    (dropUntranslate n s).pending = s.pending := by
  unfold dropUntranslate; simp

@[simp] theorem freeHead_frame (s : State) :
    (freeHead s).links = s.links ∧
    (freeHead s).formers = s.formers ∧
    (freeHead s).seqCounter = s.seqCounter ∧
    (freeHead s).floor = s.floor ∧
    (freeHead s).flash = s.flash ∧
    (freeHead s).store = s.store ∧
    (freeHead s).log = s.log ∧
    (freeHead s).dict = s.dict ∧
    (freeHead s).fmt = s.fmt ∧
    (freeHead s).ports = s.ports ∧
    (freeHead s).settings = s.settings ∧
    (freeHead s).pending = s.pending := by
  unfold freeHead; (repeat' split) <;> simp

@[simp] theorem freeHead_time_rate (s : State) :
    (freeHead s).time.rate = s.time.rate := by
  unfold freeHead; (repeat' split) <;> simp

@[simp] theorem freeHead_time_now (s : State) :
    (freeHead s).time.now = s.time.now := by
  unfold freeHead; (repeat' split) <;> simp

@[simp] theorem freeHead_host_phase (s : State) :
    (freeHead s).host.phase = s.host.phase := by
  unfold freeHead; (repeat' split) <;> simp

@[simp] theorem freeHead_host_replies (s : State) :
    (freeHead s).host.replies = s.host.replies := by
  unfold freeHead; (repeat' split) <;> simp

@[simp] theorem freeHead_host_rate (s : State) :
    (freeHead s).host.rate = s.host.rate := by
  unfold freeHead; (repeat' split) <;> simp

@[simp] theorem freeHead_script_session (s : State) :
    (freeHead s).script.session = s.script.session := by
  unfold freeHead; (repeat' split) <;> simp

@[simp] theorem createUnit_frame (u : TUnit) (s : State) :
    (createUnit u s).links = s.links ∧
    (createUnit u s).formers = s.formers ∧
    (createUnit u s).seqCounter = s.seqCounter ∧
    (createUnit u s).floor = s.floor ∧
    (createUnit u s).flash = s.flash ∧
    (createUnit u s).store = s.store ∧
    (createUnit u s).log = s.log ∧
    (createUnit u s).dict = s.dict ∧
    (createUnit u s).fmt = s.fmt ∧
    (createUnit u s).ports = s.ports ∧
    (createUnit u s).settings = s.settings ∧
    (createUnit u s).pending = s.pending := by
  unfold createUnit; (repeat' split) <;> simp

@[simp] theorem createUnit_time_rate (u : TUnit) (s : State) :
    (createUnit u s).time.rate = s.time.rate := by
  unfold createUnit; (repeat' split) <;> simp

@[simp] theorem createUnit_time_now (u : TUnit) (s : State) :
    (createUnit u s).time.now = s.time.now := by
  unfold createUnit; (repeat' split) <;> simp

@[simp] theorem createUnit_host_phase (u : TUnit) (s : State) :
    (createUnit u s).host.phase = s.host.phase := by
  unfold createUnit; (repeat' split) <;> simp

@[simp] theorem createUnit_host_replies (u : TUnit) (s : State) :
    (createUnit u s).host.replies = s.host.replies := by
  unfold createUnit; (repeat' split) <;> simp

@[simp] theorem createUnit_host_rate (u : TUnit) (s : State) :
    (createUnit u s).host.rate = s.host.rate := by
  unfold createUnit; (repeat' split) <;> simp

@[simp] theorem createUnit_script_session (u : TUnit) (s : State) :
    (createUnit u s).script.session = s.script.session := by
  unfold createUnit; (repeat' split) <;> simp

@[simp] theorem promoteUnit_frame (n : ℕ) (s : State) :
    (promoteUnit n s).links = s.links ∧
    (promoteUnit n s).formers = s.formers ∧
    (promoteUnit n s).seqCounter = s.seqCounter ∧
    (promoteUnit n s).floor = s.floor ∧
    (promoteUnit n s).time = s.time ∧
    (promoteUnit n s).flash = s.flash ∧
    (promoteUnit n s).store = s.store ∧
    (promoteUnit n s).log = s.log ∧
    (promoteUnit n s).dict = s.dict ∧
    (promoteUnit n s).trans = s.trans ∧
    (promoteUnit n s).fmt = s.fmt ∧
    (promoteUnit n s).ports = s.ports ∧
    (promoteUnit n s).host = s.host ∧
    (promoteUnit n s).conds = s.conds ∧
    (promoteUnit n s).settings = s.settings ∧
    (promoteUnit n s).pending = s.pending := by
  unfold promoteUnit; simp

@[simp] theorem promoteUnit_script_session (n : ℕ) (s : State) :
    (promoteUnit n s).script.session = s.script.session := by
  unfold promoteUnit; simp

@[simp] theorem retractFrom_frame (n : ℕ) (s : State) :
    (retractFrom n s).links = s.links ∧
    (retractFrom n s).formers = s.formers ∧
    (retractFrom n s).seqCounter = s.seqCounter ∧
    (retractFrom n s).floor = s.floor ∧
    (retractFrom n s).time = s.time ∧
    (retractFrom n s).flash = s.flash ∧
    (retractFrom n s).store = s.store ∧
    (retractFrom n s).log = s.log ∧
    (retractFrom n s).dict = s.dict ∧
    (retractFrom n s).trans = s.trans ∧
    (retractFrom n s).fmt = s.fmt ∧
    (retractFrom n s).ports = s.ports ∧
    (retractFrom n s).host = s.host ∧
    (retractFrom n s).conds = s.conds ∧
    (retractFrom n s).settings = s.settings ∧
    (retractFrom n s).pending = s.pending := by
  unfold retractFrom; simp

@[simp] theorem retractFrom_script_session (n : ℕ) (s : State) :
    (retractFrom n s).script.session = s.script.session := by
  unfold retractFrom; simp

@[simp] theorem replaceUnit_frame (n : ℕ) (f : TUnit → TUnit) (s : State) :
    (replaceUnit n f s).links = s.links ∧
    (replaceUnit n f s).formers = s.formers ∧
    (replaceUnit n f s).seqCounter = s.seqCounter ∧
    (replaceUnit n f s).floor = s.floor ∧
    (replaceUnit n f s).time = s.time ∧
    (replaceUnit n f s).flash = s.flash ∧
    (replaceUnit n f s).store = s.store ∧
    (replaceUnit n f s).log = s.log ∧
    (replaceUnit n f s).dict = s.dict ∧
    (replaceUnit n f s).trans = s.trans ∧
    (replaceUnit n f s).fmt = s.fmt ∧
    (replaceUnit n f s).ports = s.ports ∧
    (replaceUnit n f s).host = s.host ∧
    (replaceUnit n f s).conds = s.conds ∧
    (replaceUnit n f s).settings = s.settings ∧
    (replaceUnit n f s).pending = s.pending := by
  unfold replaceUnit; simp

@[simp] theorem replaceUnit_script_session (n : ℕ) (f : TUnit → TUnit) (s : State) :
    (replaceUnit n f s).script.session = s.script.session := by
  unfold replaceUnit; simp

@[simp] theorem readbackParts_frame (tag : Byte) (head : Bytes) (x2 : ℕ) (x3 : List (ℕ × Bytes)) (x4 : State) :
    (readbackParts tag head x2 x3 x4).links = x4.links ∧
    (readbackParts tag head x2 x3 x4).formers = x4.formers ∧
    (readbackParts tag head x2 x3 x4).seqCounter = x4.seqCounter ∧
    (readbackParts tag head x2 x3 x4).floor = x4.floor ∧
    (readbackParts tag head x2 x3 x4).flash = x4.flash ∧
    (readbackParts tag head x2 x3 x4).store = x4.store ∧
    (readbackParts tag head x2 x3 x4).log = x4.log ∧
    (readbackParts tag head x2 x3 x4).dict = x4.dict ∧
    (readbackParts tag head x2 x3 x4).trans = x4.trans ∧
    (readbackParts tag head x2 x3 x4).script = x4.script ∧
    (readbackParts tag head x2 x3 x4).feeds = x4.feeds ∧
    (readbackParts tag head x2 x3 x4).fmt = x4.fmt ∧
    (readbackParts tag head x2 x3 x4).ports = x4.ports ∧
    (readbackParts tag head x2 x3 x4).settings = x4.settings ∧
    (readbackParts tag head x2 x3 x4).pending = x4.pending := by
  fun_induction readbackParts tag head x2 x3 x4 <;> simp_all

@[simp] theorem readbackParts_time_rate (tag : Byte) (head : Bytes) (x2 : ℕ) (x3 : List (ℕ × Bytes)) (x4 : State) :
    (readbackParts tag head x2 x3 x4).time.rate = x4.time.rate := by
  fun_induction readbackParts tag head x2 x3 x4 <;> simp_all

@[simp] theorem readbackParts_time_now (tag : Byte) (head : Bytes) (x2 : ℕ) (x3 : List (ℕ × Bytes)) (x4 : State) :
    (readbackParts tag head x2 x3 x4).time.now = x4.time.now := by
  fun_induction readbackParts tag head x2 x3 x4 <;> simp_all

@[simp] theorem readbackParts_host_phase (tag : Byte) (head : Bytes) (x2 : ℕ) (x3 : List (ℕ × Bytes)) (x4 : State) :
    (readbackParts tag head x2 x3 x4).host.phase = x4.host.phase := by
  fun_induction readbackParts tag head x2 x3 x4 <;> simp_all

@[simp] theorem readbackParts_host_replies (tag : Byte) (head : Bytes) (x2 : ℕ) (x3 : List (ℕ × Bytes)) (x4 : State) :
    (readbackParts tag head x2 x3 x4).host.replies = x4.host.replies := by
  fun_induction readbackParts tag head x2 x3 x4 <;> simp_all

@[simp] theorem readbackParts_host_rate (tag : Byte) (head : Bytes) (x2 : ℕ) (x3 : List (ℕ × Bytes)) (x4 : State) :
    (readbackParts tag head x2 x3 x4).host.rate = x4.host.rate := by
  fun_induction readbackParts tag head x2 x3 x4 <;> simp_all

@[simp] theorem completeReadback_frame (q : Search) (s : State) :
    (completeReadback q s).links = s.links ∧
    (completeReadback q s).formers = s.formers ∧
    (completeReadback q s).seqCounter = s.seqCounter ∧
    (completeReadback q s).floor = s.floor ∧
    (completeReadback q s).flash = s.flash ∧
    (completeReadback q s).store = s.store ∧
    (completeReadback q s).log = s.log ∧
    (completeReadback q s).dict = s.dict ∧
    (completeReadback q s).trans = s.trans ∧
    (completeReadback q s).feeds = s.feeds ∧
    (completeReadback q s).fmt = s.fmt ∧
    (completeReadback q s).ports = s.ports ∧
    (completeReadback q s).settings = s.settings ∧
    (completeReadback q s).pending = s.pending := by
  unfold completeReadback; simp

@[simp] theorem completeReadback_time_rate (q : Search) (s : State) :
    (completeReadback q s).time.rate = s.time.rate := by
  unfold completeReadback; simp

@[simp] theorem completeReadback_time_now (q : Search) (s : State) :
    (completeReadback q s).time.now = s.time.now := by
  unfold completeReadback; simp

@[simp] theorem completeReadback_host_phase (q : Search) (s : State) :
    (completeReadback q s).host.phase = s.host.phase := by
  unfold completeReadback; simp

@[simp] theorem completeReadback_host_replies (q : Search) (s : State) :
    (completeReadback q s).host.replies = s.host.replies := by
  unfold completeReadback; simp

@[simp] theorem completeReadback_host_rate (q : Search) (s : State) :
    (completeReadback q s).host.rate = s.host.rate := by
  unfold completeReadback; simp

@[simp] theorem completeReadback_script_session (q : Search) (s : State) :
    (completeReadback q s).script.session = s.script.session := by
  unfold completeReadback; simp

@[simp] theorem completeSearch_frame (s : State) :
    (completeSearch s).links = s.links ∧
    (completeSearch s).formers = s.formers ∧
    (completeSearch s).seqCounter = s.seqCounter ∧
    (completeSearch s).floor = s.floor ∧
    (completeSearch s).flash = s.flash ∧
    (completeSearch s).store = s.store ∧
    (completeSearch s).log = s.log ∧
    (completeSearch s).dict = s.dict ∧
    (completeSearch s).trans = s.trans ∧
    (completeSearch s).feeds = s.feeds ∧
    (completeSearch s).fmt = s.fmt ∧
    (completeSearch s).ports = s.ports ∧
    (completeSearch s).settings = s.settings ∧
    (completeSearch s).pending = s.pending := by
  unfold completeSearch; (repeat' split) <;> simp

@[simp] theorem completeSearch_time_rate (s : State) :
    (completeSearch s).time.rate = s.time.rate := by
  unfold completeSearch; (repeat' split) <;> simp

@[simp] theorem completeSearch_time_now (s : State) :
    (completeSearch s).time.now = s.time.now := by
  unfold completeSearch; (repeat' split) <;> simp

@[simp] theorem completeSearch_host_phase (s : State) :
    (completeSearch s).host.phase = s.host.phase := by
  unfold completeSearch; (repeat' split) <;> simp

@[simp] theorem completeSearch_host_replies (s : State) :
    (completeSearch s).host.replies = s.host.replies := by
  unfold completeSearch; (repeat' split) <;> simp

@[simp] theorem completeSearch_host_rate (s : State) :
    (completeSearch s).host.rate = s.host.rate := by
  unfold completeSearch; (repeat' split) <;> simp

@[simp] theorem completeSearch_script_session (s : State) :
    (completeSearch s).script.session = s.script.session := by
  unfold completeSearch; (repeat' split) <;> simp

/-! ### LogWriter -/

@[simp] theorem logCauses_frame (s : State) :
    (logCauses s).links = s.links ∧
    (logCauses s).formers = s.formers ∧
    (logCauses s).seqCounter = s.seqCounter ∧
    (logCauses s).floor = s.floor ∧
    (logCauses s).flash = s.flash ∧
    (logCauses s).store = s.store ∧
    (logCauses s).log = s.log ∧
    (logCauses s).dict = s.dict ∧
    (logCauses s).trans = s.trans ∧
    (logCauses s).script = s.script ∧
    (logCauses s).feeds = s.feeds ∧
    (logCauses s).fmt = s.fmt ∧
    (logCauses s).ports = s.ports ∧
    (logCauses s).settings = s.settings ∧
    (logCauses s).pending = s.pending := by
  unfold logCauses; simp

@[simp] theorem logCauses_time_rate (s : State) :
    (logCauses s).time.rate = s.time.rate := by
  unfold logCauses; simp

@[simp] theorem logCauses_time_now (s : State) :
    (logCauses s).time.now = s.time.now := by
  unfold logCauses; simp

@[simp] theorem logCauses_host_phase (s : State) :
    (logCauses s).host.phase = s.host.phase := by
  unfold logCauses; simp

@[simp] theorem logCauses_host_replies (s : State) :
    (logCauses s).host.replies = s.host.replies := by
  unfold logCauses; simp

@[simp] theorem logCauses_host_rate (s : State) :
    (logCauses s).host.rate = s.host.rate := by
  unfold logCauses; simp

@[simp] theorem offerRecord_frame (rec : Bytes) (s : State) :
    (offerRecord rec s).1.links = s.links ∧
    (offerRecord rec s).1.formers = s.formers ∧
    (offerRecord rec s).1.seqCounter = s.seqCounter ∧
    (offerRecord rec s).1.floor = s.floor ∧
    (offerRecord rec s).1.flash = s.flash ∧
    (offerRecord rec s).1.dict = s.dict ∧
    (offerRecord rec s).1.trans = s.trans ∧
    (offerRecord rec s).1.script = s.script ∧
    (offerRecord rec s).1.feeds = s.feeds ∧
    (offerRecord rec s).1.fmt = s.fmt ∧
    (offerRecord rec s).1.ports = s.ports ∧
    (offerRecord rec s).1.settings = s.settings ∧
    (offerRecord rec s).1.pending = s.pending := by
  unfold offerRecord; (repeat' split) <;> simp

@[simp] theorem offerRecord_time_rate (rec : Bytes) (s : State) :
    (offerRecord rec s).1.time.rate = s.time.rate := by
  unfold offerRecord; (repeat' split) <;> simp

@[simp] theorem offerRecord_time_now (rec : Bytes) (s : State) :
    (offerRecord rec s).1.time.now = s.time.now := by
  unfold offerRecord; (repeat' split) <;> simp

@[simp] theorem offerRecord_host_phase (rec : Bytes) (s : State) :
    (offerRecord rec s).1.host.phase = s.host.phase := by
  unfold offerRecord; (repeat' split) <;> simp

@[simp] theorem offerRecord_host_replies (rec : Bytes) (s : State) :
    (offerRecord rec s).1.host.replies = s.host.replies := by
  unfold offerRecord; (repeat' split) <;> simp

@[simp] theorem offerRecord_host_rate (rec : Bytes) (s : State) :
    (offerRecord rec s).1.host.rate = s.host.rate := by
  unfold offerRecord; (repeat' split) <;> simp

@[simp] theorem offerRecord_log_flush (rec : Bytes) (s : State) :
    (offerRecord rec s).1.log.flush = s.log.flush := by
  unfold offerRecord; (repeat' split) <;> simp

@[simp] theorem offerOther_frame (rec : Bytes) (s : State) :
    (offerOther rec s).links = s.links ∧
    (offerOther rec s).formers = s.formers ∧
    (offerOther rec s).seqCounter = s.seqCounter ∧
    (offerOther rec s).floor = s.floor ∧
    (offerOther rec s).flash = s.flash ∧
    (offerOther rec s).dict = s.dict ∧
    (offerOther rec s).trans = s.trans ∧
    (offerOther rec s).script = s.script ∧
    (offerOther rec s).feeds = s.feeds ∧
    (offerOther rec s).fmt = s.fmt ∧
    (offerOther rec s).ports = s.ports ∧
    (offerOther rec s).settings = s.settings ∧
    (offerOther rec s).pending = s.pending := by
  unfold offerOther; dsimp only; (repeat' split) <;> simp

@[simp] theorem offerOther_time_rate (rec : Bytes) (s : State) :
    (offerOther rec s).time.rate = s.time.rate := by
  unfold offerOther; dsimp only; (repeat' split) <;> simp

@[simp] theorem offerOther_time_now (rec : Bytes) (s : State) :
    (offerOther rec s).time.now = s.time.now := by
  unfold offerOther; dsimp only; (repeat' split) <;> simp

@[simp] theorem offerOther_host_phase (rec : Bytes) (s : State) :
    (offerOther rec s).host.phase = s.host.phase := by
  unfold offerOther; dsimp only; (repeat' split) <;> simp

@[simp] theorem offerOther_host_replies (rec : Bytes) (s : State) :
    (offerOther rec s).host.replies = s.host.replies := by
  unfold offerOther; dsimp only; (repeat' split) <;> simp

@[simp] theorem offerOther_host_rate (rec : Bytes) (s : State) :
    (offerOther rec s).host.rate = s.host.rate := by
  unfold offerOther; dsimp only; (repeat' split) <;> simp

@[simp] theorem offerOther_log_flush (rec : Bytes) (s : State) :
    (offerOther rec s).log.flush = s.log.flush := by
  unfold offerOther; dsimp only; (repeat' split) <;> simp

@[simp] theorem offerStroke_frame (r : StrokeRec) (s : State) :
    (offerStroke r s).1.links = s.links ∧
    (offerStroke r s).1.formers = s.formers ∧
    (offerStroke r s).1.seqCounter = s.seqCounter ∧
    (offerStroke r s).1.floor = s.floor ∧
    (offerStroke r s).1.flash = s.flash ∧
    (offerStroke r s).1.dict = s.dict ∧
    (offerStroke r s).1.trans = s.trans ∧
    (offerStroke r s).1.script = s.script ∧
    (offerStroke r s).1.feeds = s.feeds ∧
    (offerStroke r s).1.fmt = s.fmt ∧
    (offerStroke r s).1.ports = s.ports ∧
    (offerStroke r s).1.settings = s.settings ∧
    (offerStroke r s).1.pending = s.pending := by
  unfold offerStroke; dsimp only; (repeat' split) <;> simp

@[simp] theorem offerStroke_time_rate (r : StrokeRec) (s : State) :
    (offerStroke r s).1.time.rate = s.time.rate := by
  unfold offerStroke; dsimp only; (repeat' split) <;> simp

@[simp] theorem offerStroke_time_now (r : StrokeRec) (s : State) :
    (offerStroke r s).1.time.now = s.time.now := by
  unfold offerStroke; dsimp only; (repeat' split) <;> simp

@[simp] theorem offerStroke_host_phase (r : StrokeRec) (s : State) :
    (offerStroke r s).1.host.phase = s.host.phase := by
  unfold offerStroke; dsimp only; (repeat' split) <;> simp

@[simp] theorem offerStroke_host_replies (r : StrokeRec) (s : State) :
    (offerStroke r s).1.host.replies = s.host.replies := by
  unfold offerStroke; dsimp only; (repeat' split) <;> simp

@[simp] theorem offerStroke_host_rate (r : StrokeRec) (s : State) :
    (offerStroke r s).1.host.rate = s.host.rate := by
  unfold offerStroke; dsimp only; (repeat' split) <;> simp

@[simp] theorem offerStroke_log_flush (r : StrokeRec) (s : State) :
    (offerStroke r s).1.log.flush = s.log.flush := by
  unfold offerStroke; dsimp only; (repeat' split) <;> simp

@[simp] theorem beginFlush_frame (f : Flush) (s : State) :
    (beginFlush f s).links = s.links ∧
    (beginFlush f s).formers = s.formers ∧
    (beginFlush f s).seqCounter = s.seqCounter ∧
    (beginFlush f s).floor = s.floor ∧
    (beginFlush f s).time = s.time ∧
    (beginFlush f s).flash = s.flash ∧
    (beginFlush f s).store = s.store ∧
    (beginFlush f s).dict = s.dict ∧
    (beginFlush f s).trans = s.trans ∧
    (beginFlush f s).script = s.script ∧
    (beginFlush f s).feeds = s.feeds ∧
    (beginFlush f s).fmt = s.fmt ∧
    (beginFlush f s).ports = s.ports ∧
    (beginFlush f s).host = s.host ∧
    (beginFlush f s).conds = s.conds ∧
    (beginFlush f s).settings = s.settings ∧
    (beginFlush f s).pending = s.pending := by
  unfold beginFlush; simp

/-! ### Translator -/

@[simp] theorem commitUnit_frame (u : TUnit) (s : State) :
    (commitUnit u s).links = s.links ∧
    (commitUnit u s).formers = s.formers ∧
    (commitUnit u s).seqCounter = s.seqCounter ∧
    (commitUnit u s).floor = s.floor ∧
    (commitUnit u s).time = s.time ∧
    (commitUnit u s).flash = s.flash ∧
    (commitUnit u s).store = s.store ∧
    (commitUnit u s).log = s.log ∧
    (commitUnit u s).dict = s.dict ∧
    (commitUnit u s).fmt = s.fmt ∧
    (commitUnit u s).ports = s.ports ∧
    (commitUnit u s).host = s.host ∧
    (commitUnit u s).conds = s.conds ∧
    (commitUnit u s).settings = s.settings ∧
    (commitUnit u s).pending = s.pending := by
  unfold commitUnit; simp

@[simp] theorem commitUnit_script_session (u : TUnit) (s : State) :
    (commitUnit u s).script.session = s.script.session := by
  unfold commitUnit; simp

@[simp] theorem createFormed_frame (n : NewUnit) (s : State) :
    (createFormed n s).links = s.links ∧
    (createFormed n s).formers = s.formers ∧
    (createFormed n s).seqCounter = s.seqCounter ∧
    (createFormed n s).floor = s.floor ∧
    (createFormed n s).flash = s.flash ∧
    (createFormed n s).store = s.store ∧
    (createFormed n s).log = s.log ∧
    (createFormed n s).dict = s.dict ∧
    (createFormed n s).fmt = s.fmt ∧
    (createFormed n s).ports = s.ports ∧
    (createFormed n s).settings = s.settings ∧
    (createFormed n s).pending = s.pending := by
  unfold createFormed; (repeat' split) <;> simp

@[simp] theorem createFormed_time_rate (n : NewUnit) (s : State) :
    (createFormed n s).time.rate = s.time.rate := by
  unfold createFormed; (repeat' split) <;> simp

@[simp] theorem createFormed_time_now (n : NewUnit) (s : State) :
    (createFormed n s).time.now = s.time.now := by
  unfold createFormed; (repeat' split) <;> simp

@[simp] theorem createFormed_host_phase (n : NewUnit) (s : State) :
    (createFormed n s).host.phase = s.host.phase := by
  unfold createFormed; (repeat' split) <;> simp

@[simp] theorem createFormed_host_replies (n : NewUnit) (s : State) :
    (createFormed n s).host.replies = s.host.replies := by
  unfold createFormed; (repeat' split) <;> simp

@[simp] theorem createFormed_host_rate (n : NewUnit) (s : State) :
    (createFormed n s).host.rate = s.host.rate := by
  unfold createFormed; (repeat' split) <;> simp

@[simp] theorem createFormed_script_session (n : NewUnit) (s : State) :
    (createFormed n s).script.session = s.script.session := by
  unfold createFormed; (repeat' split) <;> simp

@[simp] theorem promoteKept_frame (x0 : List TUnit) (x1 : List NewUnit) (x2 : State) :
    (promoteKept x0 x1 x2).links = x2.links ∧
    (promoteKept x0 x1 x2).formers = x2.formers ∧
    (promoteKept x0 x1 x2).seqCounter = x2.seqCounter ∧
    (promoteKept x0 x1 x2).floor = x2.floor ∧
    (promoteKept x0 x1 x2).time = x2.time ∧
    (promoteKept x0 x1 x2).flash = x2.flash ∧
    (promoteKept x0 x1 x2).store = x2.store ∧
    (promoteKept x0 x1 x2).log = x2.log ∧
    (promoteKept x0 x1 x2).dict = x2.dict ∧
    (promoteKept x0 x1 x2).fmt = x2.fmt ∧
    (promoteKept x0 x1 x2).ports = x2.ports ∧
    (promoteKept x0 x1 x2).host = x2.host ∧
    (promoteKept x0 x1 x2).conds = x2.conds ∧
    (promoteKept x0 x1 x2).settings = x2.settings ∧
    (promoteKept x0 x1 x2).pending = x2.pending := by
  fun_induction promoteKept x0 x1 x2 <;> (try simp_all) <;> (try (split <;> simp_all)) <;> (try (split <;> simp_all))

@[simp] theorem promoteKept_script_session (x0 : List TUnit) (x1 : List NewUnit) (x2 : State) :
    (promoteKept x0 x1 x2).script.session = x2.script.session := by
  fun_induction promoteKept x0 x1 x2 <;> (try simp_all) <;> (try (split <;> simp_all)) <;> (try (split <;> simp_all))

@[simp] theorem reconcile_frame (new : List NewUnit) (s : State) :
    (reconcile new s).links = s.links ∧
    (reconcile new s).formers = s.formers ∧
    (reconcile new s).seqCounter = s.seqCounter ∧
    (reconcile new s).floor = s.floor ∧
    (reconcile new s).flash = s.flash ∧
    (reconcile new s).store = s.store ∧
    (reconcile new s).log = s.log ∧
    (reconcile new s).dict = s.dict ∧
    (reconcile new s).fmt = s.fmt ∧
    (reconcile new s).ports = s.ports ∧
    (reconcile new s).settings = s.settings ∧
    (reconcile new s).pending = s.pending := by
  unfold reconcile; dsimp only; (repeat' split) <;> simp

@[simp] theorem reconcile_time_rate (new : List NewUnit) (s : State) :
    (reconcile new s).time.rate = s.time.rate := by
  unfold reconcile; dsimp only; (repeat' split) <;> simp

@[simp] theorem reconcile_time_now (new : List NewUnit) (s : State) :
    (reconcile new s).time.now = s.time.now := by
  unfold reconcile; dsimp only; (repeat' split) <;> simp

@[simp] theorem reconcile_host_phase (new : List NewUnit) (s : State) :
    (reconcile new s).host.phase = s.host.phase := by
  unfold reconcile; dsimp only; (repeat' split) <;> simp

@[simp] theorem reconcile_host_replies (new : List NewUnit) (s : State) :
    (reconcile new s).host.replies = s.host.replies := by
  unfold reconcile; dsimp only; (repeat' split) <;> simp

@[simp] theorem reconcile_host_rate (new : List NewUnit) (s : State) :
    (reconcile new s).host.rate = s.host.rate := by
  unfold reconcile; dsimp only; (repeat' split) <;> simp

@[simp] theorem reconcile_script_session (new : List NewUnit) (s : State) :
    (reconcile new s).script.session = s.script.session := by
  unfold reconcile; dsimp only; (repeat' split) <;> simp

@[simp] theorem resolveHold_frame (s : State) :
    (resolveHold s).links = s.links ∧
    (resolveHold s).formers = s.formers ∧
    (resolveHold s).seqCounter = s.seqCounter ∧
    (resolveHold s).floor = s.floor ∧
    (resolveHold s).time = s.time ∧
    (resolveHold s).flash = s.flash ∧
    (resolveHold s).store = s.store ∧
    (resolveHold s).log = s.log ∧
    (resolveHold s).dict = s.dict ∧
    (resolveHold s).fmt = s.fmt ∧
    (resolveHold s).ports = s.ports ∧
    (resolveHold s).host = s.host ∧
    (resolveHold s).conds = s.conds ∧
    (resolveHold s).settings = s.settings ∧
    (resolveHold s).pending = s.pending := by
  unfold resolveHold; simp

@[simp] theorem resolveHold_script_session (s : State) :
    (resolveHold s).script.session = s.script.session := by
  unfold resolveHold; simp

@[simp] theorem insertNote_frame (n : Note) (s : State) :
    (insertNote n s).links = s.links ∧
    (insertNote n s).formers = s.formers ∧
    (insertNote n s).seqCounter = s.seqCounter ∧
    (insertNote n s).floor = s.floor ∧
    (insertNote n s).flash = s.flash ∧
    (insertNote n s).dict = s.dict ∧
    (insertNote n s).fmt = s.fmt ∧
    (insertNote n s).ports = s.ports ∧
    (insertNote n s).settings = s.settings ∧
    (insertNote n s).pending = s.pending := by
  unfold insertNote; simp

@[simp] theorem insertNote_time_rate (n : Note) (s : State) :
    (insertNote n s).time.rate = s.time.rate := by
  unfold insertNote; simp

@[simp] theorem insertNote_time_now (n : Note) (s : State) :
    (insertNote n s).time.now = s.time.now := by
  unfold insertNote; simp

@[simp] theorem insertNote_host_phase (n : Note) (s : State) :
    (insertNote n s).host.phase = s.host.phase := by
  unfold insertNote; simp

@[simp] theorem insertNote_host_replies (n : Note) (s : State) :
    (insertNote n s).host.replies = s.host.replies := by
  unfold insertNote; simp

@[simp] theorem insertNote_host_rate (n : Note) (s : State) :
    (insertNote n s).host.rate = s.host.rate := by
  unfold insertNote; simp

@[simp] theorem insertNote_log_flush (n : Note) (s : State) :
    (insertNote n s).log.flush = s.log.flush := by
  unfold insertNote; simp

@[simp] theorem insertNote_script_session (n : Note) (s : State) :
    (insertNote n s).script.session = s.script.session := by
  unfold insertNote; simp

@[simp] theorem insertQueued_frame (n : Note) (s : State) :
    (insertQueued n s).links = s.links ∧
    (insertQueued n s).formers = s.formers ∧
    (insertQueued n s).seqCounter = s.seqCounter ∧
    (insertQueued n s).floor = s.floor ∧
    (insertQueued n s).flash = s.flash ∧
    (insertQueued n s).dict = s.dict ∧
    (insertQueued n s).fmt = s.fmt ∧
    (insertQueued n s).ports = s.ports ∧
    (insertQueued n s).settings = s.settings ∧
    (insertQueued n s).pending = s.pending := by
  unfold insertQueued; simp

@[simp] theorem insertQueued_time_rate (n : Note) (s : State) :
    (insertQueued n s).time.rate = s.time.rate := by
  unfold insertQueued; simp

@[simp] theorem insertQueued_time_now (n : Note) (s : State) :
    (insertQueued n s).time.now = s.time.now := by
  unfold insertQueued; simp

@[simp] theorem insertQueued_host_phase (n : Note) (s : State) :
    (insertQueued n s).host.phase = s.host.phase := by
  unfold insertQueued; simp

@[simp] theorem insertQueued_host_replies (n : Note) (s : State) :
    (insertQueued n s).host.replies = s.host.replies := by
  unfold insertQueued; simp

@[simp] theorem insertQueued_host_rate (n : Note) (s : State) :
    (insertQueued n s).host.rate = s.host.rate := by
  unfold insertQueued; simp

@[simp] theorem insertQueued_log_flush (n : Note) (s : State) :
    (insertQueued n s).log.flush = s.log.flush := by
  unfold insertQueued; simp

@[simp] theorem insertQueued_script_session (n : Note) (s : State) :
    (insertQueued n s).script.session = s.script.session := by
  unfold insertQueued; simp

@[simp] theorem insertNotes_frame (s : State) :
    (insertNotes s).links = s.links ∧
    (insertNotes s).formers = s.formers ∧
    (insertNotes s).seqCounter = s.seqCounter ∧
    (insertNotes s).floor = s.floor ∧
    (insertNotes s).flash = s.flash ∧
    (insertNotes s).dict = s.dict ∧
    (insertNotes s).fmt = s.fmt ∧
    (insertNotes s).ports = s.ports ∧
    (insertNotes s).settings = s.settings ∧
    (insertNotes s).pending = s.pending := by
  unfold insertNotes; (repeat' split) <;> simp

@[simp] theorem insertNotes_time_rate (s : State) :
    (insertNotes s).time.rate = s.time.rate := by
  unfold insertNotes; (repeat' split) <;> simp

@[simp] theorem insertNotes_time_now (s : State) :
    (insertNotes s).time.now = s.time.now := by
  unfold insertNotes; (repeat' split) <;> simp

@[simp] theorem insertNotes_host_phase (s : State) :
    (insertNotes s).host.phase = s.host.phase := by
  unfold insertNotes; (repeat' split) <;> simp

@[simp] theorem insertNotes_host_replies (s : State) :
    (insertNotes s).host.replies = s.host.replies := by
  unfold insertNotes; (repeat' split) <;> simp

@[simp] theorem insertNotes_host_rate (s : State) :
    (insertNotes s).host.rate = s.host.rate := by
  unfold insertNotes; (repeat' split) <;> simp

@[simp] theorem insertNotes_log_flush (s : State) :
    (insertNotes s).log.flush = s.log.flush := by
  unfold insertNotes; (repeat' split) <;> simp

@[simp] theorem insertNotes_script_session (s : State) :
    (insertNotes s).script.session = s.script.session := by
  unfold insertNotes; (repeat' split) <;> simp

@[simp] theorem resolveOrder_frame (s : State) :
    (resolveOrder s).links = s.links ∧
    (resolveOrder s).formers = s.formers ∧
    (resolveOrder s).seqCounter = s.seqCounter ∧
    (resolveOrder s).floor = s.floor ∧
    (resolveOrder s).flash = s.flash ∧
    (resolveOrder s).dict = s.dict ∧
    (resolveOrder s).fmt = s.fmt ∧
    (resolveOrder s).ports = s.ports ∧
    (resolveOrder s).settings = s.settings ∧
    (resolveOrder s).pending = s.pending := by
  unfold resolveOrder; (repeat' split) <;> simp

@[simp] theorem resolveOrder_time_rate (s : State) :
    (resolveOrder s).time.rate = s.time.rate := by
  unfold resolveOrder; (repeat' split) <;> simp

@[simp] theorem resolveOrder_time_now (s : State) :
    (resolveOrder s).time.now = s.time.now := by
  unfold resolveOrder; (repeat' split) <;> simp

@[simp] theorem resolveOrder_host_phase (s : State) :
    (resolveOrder s).host.phase = s.host.phase := by
  unfold resolveOrder; (repeat' split) <;> simp

@[simp] theorem resolveOrder_host_replies (s : State) :
    (resolveOrder s).host.replies = s.host.replies := by
  unfold resolveOrder; (repeat' split) <;> simp

@[simp] theorem resolveOrder_host_rate (s : State) :
    (resolveOrder s).host.rate = s.host.rate := by
  unfold resolveOrder; (repeat' split) <;> simp

@[simp] theorem resolveOrder_log_flush (s : State) :
    (resolveOrder s).log.flush = s.log.flush := by
  unfold resolveOrder; (repeat' split) <;> simp

@[simp] theorem resolveOrder_script_session (s : State) :
    (resolveOrder s).script.session = s.script.session := by
  unfold resolveOrder; (repeat' split) <;> simp

@[simp] theorem defineSpeakerRule_frame (payload : Bytes) (s : State) :
    (defineSpeakerRule payload s).1.links = s.links ∧
    (defineSpeakerRule payload s).1.formers = s.formers ∧
    (defineSpeakerRule payload s).1.seqCounter = s.seqCounter ∧
    (defineSpeakerRule payload s).1.floor = s.floor ∧
    (defineSpeakerRule payload s).1.time = s.time ∧
    (defineSpeakerRule payload s).1.flash = s.flash ∧
    (defineSpeakerRule payload s).1.store = s.store ∧
    (defineSpeakerRule payload s).1.log = s.log ∧
    (defineSpeakerRule payload s).1.dict = s.dict ∧
    (defineSpeakerRule payload s).1.script = s.script ∧
    (defineSpeakerRule payload s).1.feeds = s.feeds ∧
    (defineSpeakerRule payload s).1.fmt = s.fmt ∧
    (defineSpeakerRule payload s).1.ports = s.ports ∧
    (defineSpeakerRule payload s).1.host = s.host ∧
    (defineSpeakerRule payload s).1.conds = s.conds ∧
    (defineSpeakerRule payload s).1.settings = s.settings ∧
    (defineSpeakerRule payload s).1.pending = s.pending := by
  unfold defineSpeakerRule; dsimp only; (repeat' split) <;> simp

@[simp] theorem insertNoteRule_frame (tag : Byte) (payload : Bytes) (s : State) :
    (insertNoteRule tag payload s).1.links = s.links ∧
    (insertNoteRule tag payload s).1.formers = s.formers ∧
    (insertNoteRule tag payload s).1.seqCounter = s.seqCounter ∧
    (insertNoteRule tag payload s).1.floor = s.floor ∧
    (insertNoteRule tag payload s).1.flash = s.flash ∧
    (insertNoteRule tag payload s).1.dict = s.dict ∧
    (insertNoteRule tag payload s).1.fmt = s.fmt ∧
    (insertNoteRule tag payload s).1.ports = s.ports ∧
    (insertNoteRule tag payload s).1.settings = s.settings ∧
    (insertNoteRule tag payload s).1.pending = s.pending := by
  unfold insertNoteRule; dsimp only; (repeat' split) <;> simp

@[simp] theorem insertNoteRule_time_rate (tag : Byte) (payload : Bytes) (s : State) :
    (insertNoteRule tag payload s).1.time.rate = s.time.rate := by
  unfold insertNoteRule; dsimp only; (repeat' split) <;> simp

@[simp] theorem insertNoteRule_time_now (tag : Byte) (payload : Bytes) (s : State) :
    (insertNoteRule tag payload s).1.time.now = s.time.now := by
  unfold insertNoteRule; dsimp only; (repeat' split) <;> simp

@[simp] theorem insertNoteRule_host_phase (tag : Byte) (payload : Bytes) (s : State) :
    (insertNoteRule tag payload s).1.host.phase = s.host.phase := by
  unfold insertNoteRule; dsimp only; (repeat' split) <;> simp

@[simp] theorem insertNoteRule_host_replies (tag : Byte) (payload : Bytes) (s : State) :
    (insertNoteRule tag payload s).1.host.replies = s.host.replies := by
  unfold insertNoteRule; dsimp only; (repeat' split) <;> simp

@[simp] theorem insertNoteRule_host_rate (tag : Byte) (payload : Bytes) (s : State) :
    (insertNoteRule tag payload s).1.host.rate = s.host.rate := by
  unfold insertNoteRule; dsimp only; (repeat' split) <;> simp

@[simp] theorem insertNoteRule_log_flush (tag : Byte) (payload : Bytes) (s : State) :
    (insertNoteRule tag payload s).1.log.flush = s.log.flush := by
  unfold insertNoteRule; dsimp only; (repeat' split) <;> simp

@[simp] theorem insertNoteRule_script_session (tag : Byte) (payload : Bytes) (s : State) :
    (insertNoteRule tag payload s).1.script.session = s.script.session := by
  unfold insertNoteRule; dsimp only; (repeat' split) <;> simp

/-! ### FloorOps -/

@[simp] theorem floorVacantCause_frame (s : State) :
    (floorVacantCause s).links = s.links ∧
    (floorVacantCause s).formers = s.formers ∧
    (floorVacantCause s).seqCounter = s.seqCounter ∧
    (floorVacantCause s).floor = s.floor ∧
    (floorVacantCause s).flash = s.flash ∧
    (floorVacantCause s).store = s.store ∧
    (floorVacantCause s).log = s.log ∧
    (floorVacantCause s).dict = s.dict ∧
    (floorVacantCause s).trans = s.trans ∧
    (floorVacantCause s).script = s.script ∧
    (floorVacantCause s).feeds = s.feeds ∧
    (floorVacantCause s).fmt = s.fmt ∧
    (floorVacantCause s).ports = s.ports ∧
    (floorVacantCause s).settings = s.settings ∧
    (floorVacantCause s).pending = s.pending := by
  unfold floorVacantCause; simp

@[simp] theorem floorVacantCause_time_rate (s : State) :
    (floorVacantCause s).time.rate = s.time.rate := by
  unfold floorVacantCause; simp

@[simp] theorem floorVacantCause_time_now (s : State) :
    (floorVacantCause s).time.now = s.time.now := by
  unfold floorVacantCause; simp

@[simp] theorem floorVacantCause_host_phase (s : State) :
    (floorVacantCause s).host.phase = s.host.phase := by
  unfold floorVacantCause; simp

@[simp] theorem floorVacantCause_host_replies (s : State) :
    (floorVacantCause s).host.replies = s.host.replies := by
  unfold floorVacantCause; simp

@[simp] theorem floorVacantCause_host_rate (s : State) :
    (floorVacantCause s).host.rate = s.host.rate := by
  unfold floorVacantCause; simp

@[simp] theorem announceFloor_frame (cause : FloorCause) (dropped : ℕ) (s : State) :
    (announceFloor cause dropped s).links = s.links ∧
    (announceFloor cause dropped s).formers = s.formers ∧
    (announceFloor cause dropped s).seqCounter = s.seqCounter ∧
    (announceFloor cause dropped s).floor = s.floor ∧
    (announceFloor cause dropped s).flash = s.flash ∧
    (announceFloor cause dropped s).dict = s.dict ∧
    (announceFloor cause dropped s).trans = s.trans ∧
    (announceFloor cause dropped s).script = s.script ∧
    (announceFloor cause dropped s).feeds = s.feeds ∧
    (announceFloor cause dropped s).fmt = s.fmt ∧
    (announceFloor cause dropped s).ports = s.ports ∧
    (announceFloor cause dropped s).settings = s.settings ∧
    (announceFloor cause dropped s).pending = s.pending := by
  unfold announceFloor; simp

@[simp] theorem announceFloor_time_rate (cause : FloorCause) (dropped : ℕ) (s : State) :
    (announceFloor cause dropped s).time.rate = s.time.rate := by
  unfold announceFloor; simp

@[simp] theorem announceFloor_time_now (cause : FloorCause) (dropped : ℕ) (s : State) :
    (announceFloor cause dropped s).time.now = s.time.now := by
  unfold announceFloor; simp

@[simp] theorem announceFloor_host_phase (cause : FloorCause) (dropped : ℕ) (s : State) :
    (announceFloor cause dropped s).host.phase = s.host.phase := by
  unfold announceFloor; simp

@[simp] theorem announceFloor_host_replies (cause : FloorCause) (dropped : ℕ) (s : State) :
    (announceFloor cause dropped s).host.replies = s.host.replies := by
  unfold announceFloor; simp

@[simp] theorem announceFloor_host_rate (cause : FloorCause) (dropped : ℕ) (s : State) :
    (announceFloor cause dropped s).host.rate = s.host.rate := by
  unfold announceFloor; simp

@[simp] theorem announceFloor_log_flush (cause : FloorCause) (dropped : ℕ) (s : State) :
    (announceFloor cause dropped s).log.flush = s.log.flush := by
  unfold announceFloor; simp

@[simp] theorem floorChanged_frame (cause : FloorCause) (dropped : ℕ) (s : State) :
    (floorChanged cause dropped s).links = s.links ∧
    (floorChanged cause dropped s).formers = s.formers ∧
    (floorChanged cause dropped s).seqCounter = s.seqCounter ∧
    (floorChanged cause dropped s).floor = s.floor ∧
    (floorChanged cause dropped s).flash = s.flash ∧
    (floorChanged cause dropped s).dict = s.dict ∧
    (floorChanged cause dropped s).trans = s.trans ∧
    (floorChanged cause dropped s).script = s.script ∧
    (floorChanged cause dropped s).feeds = s.feeds ∧
    (floorChanged cause dropped s).fmt = s.fmt ∧
    (floorChanged cause dropped s).ports = s.ports ∧
    (floorChanged cause dropped s).settings = s.settings ∧
    (floorChanged cause dropped s).pending = s.pending := by
  unfold floorChanged; (repeat' split) <;> simp

@[simp] theorem floorChanged_time_rate (cause : FloorCause) (dropped : ℕ) (s : State) :
    (floorChanged cause dropped s).time.rate = s.time.rate := by
  unfold floorChanged; (repeat' split) <;> simp

@[simp] theorem floorChanged_time_now (cause : FloorCause) (dropped : ℕ) (s : State) :
    (floorChanged cause dropped s).time.now = s.time.now := by
  unfold floorChanged; (repeat' split) <;> simp

@[simp] theorem floorChanged_host_phase (cause : FloorCause) (dropped : ℕ) (s : State) :
    (floorChanged cause dropped s).host.phase = s.host.phase := by
  unfold floorChanged; (repeat' split) <;> simp

@[simp] theorem floorChanged_host_replies (cause : FloorCause) (dropped : ℕ) (s : State) :
    (floorChanged cause dropped s).host.replies = s.host.replies := by
  unfold floorChanged; (repeat' split) <;> simp

@[simp] theorem floorChanged_host_rate (cause : FloorCause) (dropped : ℕ) (s : State) :
    (floorChanged cause dropped s).host.rate = s.host.rate := by
  unfold floorChanged; (repeat' split) <;> simp

@[simp] theorem floorChanged_log_flush (cause : FloorCause) (dropped : ℕ) (s : State) :
    (floorChanged cause dropped s).log.flush = s.log.flush := by
  unfold floorChanged; (repeat' split) <;> simp

@[simp] theorem takeFloor_frame (p : Pos) (cause : FloorCause) (s : State) :
    (takeFloor p cause s).links = s.links ∧
    (takeFloor p cause s).formers = s.formers ∧
    (takeFloor p cause s).seqCounter = s.seqCounter ∧
    (takeFloor p cause s).flash = s.flash ∧
    (takeFloor p cause s).dict = s.dict ∧
    (takeFloor p cause s).trans = s.trans ∧
    (takeFloor p cause s).script = s.script ∧
    (takeFloor p cause s).feeds = s.feeds ∧
    (takeFloor p cause s).fmt = s.fmt ∧
    (takeFloor p cause s).ports = s.ports ∧
    (takeFloor p cause s).settings = s.settings ∧
    (takeFloor p cause s).pending = s.pending := by
  unfold takeFloor; simp

@[simp] theorem takeFloor_time_rate (p : Pos) (cause : FloorCause) (s : State) :
    (takeFloor p cause s).time.rate = s.time.rate := by
  unfold takeFloor; simp

@[simp] theorem takeFloor_time_now (p : Pos) (cause : FloorCause) (s : State) :
    (takeFloor p cause s).time.now = s.time.now := by
  unfold takeFloor; simp

@[simp] theorem takeFloor_host_phase (p : Pos) (cause : FloorCause) (s : State) :
    (takeFloor p cause s).host.phase = s.host.phase := by
  unfold takeFloor; simp

@[simp] theorem takeFloor_host_replies (p : Pos) (cause : FloorCause) (s : State) :
    (takeFloor p cause s).host.replies = s.host.replies := by
  unfold takeFloor; simp

@[simp] theorem takeFloor_host_rate (p : Pos) (cause : FloorCause) (s : State) :
    (takeFloor p cause s).host.rate = s.host.rate := by
  unfold takeFloor; simp

@[simp] theorem takeFloor_log_flush (p : Pos) (cause : FloorCause) (s : State) :
    (takeFloor p cause s).log.flush = s.log.flush := by
  unfold takeFloor; simp

@[simp] theorem cleanPass_frame (off : Pos) (on : Pos) (s : State) :
    (cleanPass off on s).links = s.links ∧
    (cleanPass off on s).formers = s.formers ∧
    (cleanPass off on s).seqCounter = s.seqCounter ∧
    (cleanPass off on s).flash = s.flash ∧
    (cleanPass off on s).dict = s.dict ∧
    (cleanPass off on s).trans = s.trans ∧
    (cleanPass off on s).script = s.script ∧
    (cleanPass off on s).feeds = s.feeds ∧
    (cleanPass off on s).fmt = s.fmt ∧
    (cleanPass off on s).ports = s.ports ∧
    (cleanPass off on s).settings = s.settings ∧
    (cleanPass off on s).pending = s.pending := by
  unfold cleanPass; simp

@[simp] theorem cleanPass_time_rate (off : Pos) (on : Pos) (s : State) :
    (cleanPass off on s).time.rate = s.time.rate := by
  unfold cleanPass; simp

@[simp] theorem cleanPass_time_now (off : Pos) (on : Pos) (s : State) :
    (cleanPass off on s).time.now = s.time.now := by
  unfold cleanPass; simp

@[simp] theorem cleanPass_host_phase (off : Pos) (on : Pos) (s : State) :
    (cleanPass off on s).host.phase = s.host.phase := by
  unfold cleanPass; simp

@[simp] theorem cleanPass_host_replies (off : Pos) (on : Pos) (s : State) :
    (cleanPass off on s).host.replies = s.host.replies := by
  unfold cleanPass; simp

@[simp] theorem cleanPass_host_rate (off : Pos) (on : Pos) (s : State) :
    (cleanPass off on s).host.rate = s.host.rate := by
  unfold cleanPass; simp

@[simp] theorem cleanPass_log_flush (off : Pos) (on : Pos) (s : State) :
    (cleanPass off on s).log.flush = s.log.flush := by
  unfold cleanPass; simp

@[simp] theorem cleanTest_frame (s : State) :
    (cleanTest s).links = s.links ∧
    (cleanTest s).formers = s.formers ∧
    (cleanTest s).seqCounter = s.seqCounter ∧
    (cleanTest s).flash = s.flash ∧
    (cleanTest s).dict = s.dict ∧
    (cleanTest s).trans = s.trans ∧
    (cleanTest s).script = s.script ∧
    (cleanTest s).feeds = s.feeds ∧
    (cleanTest s).fmt = s.fmt ∧
    (cleanTest s).ports = s.ports ∧
    (cleanTest s).settings = s.settings ∧
    (cleanTest s).pending = s.pending := by
  unfold cleanTest; (repeat' split) <;> simp

@[simp] theorem cleanTest_time_rate (s : State) :
    (cleanTest s).time.rate = s.time.rate := by
  unfold cleanTest; (repeat' split) <;> simp

@[simp] theorem cleanTest_time_now (s : State) :
    (cleanTest s).time.now = s.time.now := by
  unfold cleanTest; (repeat' split) <;> simp

@[simp] theorem cleanTest_host_phase (s : State) :
    (cleanTest s).host.phase = s.host.phase := by
  unfold cleanTest; (repeat' split) <;> simp

@[simp] theorem cleanTest_host_replies (s : State) :
    (cleanTest s).host.replies = s.host.replies := by
  unfold cleanTest; (repeat' split) <;> simp

@[simp] theorem cleanTest_host_rate (s : State) :
    (cleanTest s).host.rate = s.host.rate := by
  unfold cleanTest; (repeat' split) <;> simp

@[simp] theorem cleanTest_log_flush (s : State) :
    (cleanTest s).log.flush = s.log.flush := by
  unfold cleanTest; (repeat' split) <;> simp

@[simp] theorem beginPass_frame (p : Pos) (cause : FloorCause) (s : State) :
    (beginPass p cause s).links = s.links ∧
    (beginPass p cause s).formers = s.formers ∧
    (beginPass p cause s).seqCounter = s.seqCounter ∧
    (beginPass p cause s).flash = s.flash ∧
    (beginPass p cause s).dict = s.dict ∧
    (beginPass p cause s).trans = s.trans ∧
    (beginPass p cause s).script = s.script ∧
    (beginPass p cause s).feeds = s.feeds ∧
    (beginPass p cause s).fmt = s.fmt ∧
    (beginPass p cause s).ports = s.ports ∧
    (beginPass p cause s).settings = s.settings ∧
    (beginPass p cause s).pending = s.pending := by
  unfold beginPass; simp

@[simp] theorem beginPass_time_rate (p : Pos) (cause : FloorCause) (s : State) :
    (beginPass p cause s).time.rate = s.time.rate := by
  unfold beginPass; simp

@[simp] theorem beginPass_time_now (p : Pos) (cause : FloorCause) (s : State) :
    (beginPass p cause s).time.now = s.time.now := by
  unfold beginPass; simp

@[simp] theorem beginPass_host_phase (p : Pos) (cause : FloorCause) (s : State) :
    (beginPass p cause s).host.phase = s.host.phase := by
  unfold beginPass; simp

@[simp] theorem beginPass_host_replies (p : Pos) (cause : FloorCause) (s : State) :
    (beginPass p cause s).host.replies = s.host.replies := by
  unfold beginPass; simp

@[simp] theorem beginPass_host_rate (p : Pos) (cause : FloorCause) (s : State) :
    (beginPass p cause s).host.rate = s.host.rate := by
  unfold beginPass; simp

@[simp] theorem beginPass_log_flush (p : Pos) (cause : FloorCause) (s : State) :
    (beginPass p cause s).log.flush = s.log.flush := by
  unfold beginPass; simp

@[simp] theorem forcePass_frame (off : Pos) (on : Pos) (cause : FloorCause) (s : State) :
    (forcePass off on cause s).links = s.links ∧
    (forcePass off on cause s).formers = s.formers ∧
    (forcePass off on cause s).seqCounter = s.seqCounter ∧
    (forcePass off on cause s).flash = s.flash ∧
    (forcePass off on cause s).dict = s.dict ∧
    (forcePass off on cause s).fmt = s.fmt ∧
    (forcePass off on cause s).ports = s.ports ∧
    (forcePass off on cause s).settings = s.settings ∧
    (forcePass off on cause s).pending = s.pending := by
  unfold forcePass; simp

@[simp] theorem forcePass_time_rate (off : Pos) (on : Pos) (cause : FloorCause) (s : State) :
    (forcePass off on cause s).time.rate = s.time.rate := by
  unfold forcePass; simp

@[simp] theorem forcePass_time_now (off : Pos) (on : Pos) (cause : FloorCause) (s : State) :
    (forcePass off on cause s).time.now = s.time.now := by
  unfold forcePass; simp

@[simp] theorem forcePass_host_phase (off : Pos) (on : Pos) (cause : FloorCause) (s : State) :
    (forcePass off on cause s).host.phase = s.host.phase := by
  unfold forcePass; simp

@[simp] theorem forcePass_host_replies (off : Pos) (on : Pos) (cause : FloorCause) (s : State) :
    (forcePass off on cause s).host.replies = s.host.replies := by
  unfold forcePass; simp

@[simp] theorem forcePass_host_rate (off : Pos) (on : Pos) (cause : FloorCause) (s : State) :
    (forcePass off on cause s).host.rate = s.host.rate := by
  unfold forcePass; simp

@[simp] theorem forcePass_log_flush (off : Pos) (on : Pos) (cause : FloorCause) (s : State) :
    (forcePass off on cause s).log.flush = s.log.flush := by
  unfold forcePass; simp

@[simp] theorem forcePass_script_session (off : Pos) (on : Pos) (cause : FloorCause) (s : State) :
    (forcePass off on cause s).script.session = s.script.session := by
  unfold forcePass; simp

@[simp] theorem cancelPass_frame (incoming : Pos) (st : PosState) (s : State) :
    (cancelPass incoming st s).links = s.links ∧
    (cancelPass incoming st s).formers = s.formers ∧
    (cancelPass incoming st s).seqCounter = s.seqCounter ∧
    (cancelPass incoming st s).flash = s.flash ∧
    (cancelPass incoming st s).dict = s.dict ∧
    (cancelPass incoming st s).trans = s.trans ∧
    (cancelPass incoming st s).script = s.script ∧
    (cancelPass incoming st s).feeds = s.feeds ∧
    (cancelPass incoming st s).fmt = s.fmt ∧
    (cancelPass incoming st s).ports = s.ports ∧
    (cancelPass incoming st s).settings = s.settings ∧
    (cancelPass incoming st s).pending = s.pending := by
  unfold cancelPass; simp

@[simp] theorem cancelPass_time_rate (incoming : Pos) (st : PosState) (s : State) :
    (cancelPass incoming st s).time.rate = s.time.rate := by
  unfold cancelPass; simp

@[simp] theorem cancelPass_time_now (incoming : Pos) (st : PosState) (s : State) :
    (cancelPass incoming st s).time.now = s.time.now := by
  unfold cancelPass; simp

@[simp] theorem cancelPass_host_phase (incoming : Pos) (st : PosState) (s : State) :
    (cancelPass incoming st s).host.phase = s.host.phase := by
  unfold cancelPass; simp

@[simp] theorem cancelPass_host_replies (incoming : Pos) (st : PosState) (s : State) :
    (cancelPass incoming st s).host.replies = s.host.replies := by
  unfold cancelPass; simp

@[simp] theorem cancelPass_host_rate (incoming : Pos) (st : PosState) (s : State) :
    (cancelPass incoming st s).host.rate = s.host.rate := by
  unfold cancelPass; simp

@[simp] theorem cancelPass_log_flush (incoming : Pos) (st : PosState) (s : State) :
    (cancelPass incoming st s).log.flush = s.log.flush := by
  unfold cancelPass; simp

@[simp] theorem floorAfterLoss_frame (other : Pos) (s : State) :
    (floorAfterLoss other s).links = s.links ∧
    (floorAfterLoss other s).formers = s.formers ∧
    (floorAfterLoss other s).seqCounter = s.seqCounter ∧
    (floorAfterLoss other s).time = s.time ∧
    (floorAfterLoss other s).flash = s.flash ∧
    (floorAfterLoss other s).store = s.store ∧
    (floorAfterLoss other s).log = s.log ∧
    (floorAfterLoss other s).dict = s.dict ∧
    (floorAfterLoss other s).trans = s.trans ∧
    (floorAfterLoss other s).script = s.script ∧
    (floorAfterLoss other s).feeds = s.feeds ∧
    (floorAfterLoss other s).fmt = s.fmt ∧
    (floorAfterLoss other s).ports = s.ports ∧
    (floorAfterLoss other s).host = s.host ∧
    (floorAfterLoss other s).conds = s.conds ∧
    (floorAfterLoss other s).settings = s.settings ∧
    (floorAfterLoss other s).pending = s.pending := by
  unfold floorAfterLoss; (repeat' split) <;> simp

@[simp] theorem losePos_frame (p : Pos) (st : PosState) (s : State) :
    (losePos p st s).links = s.links ∧
    (losePos p st s).formers = s.formers ∧
    (losePos p st s).seqCounter = s.seqCounter ∧
    (losePos p st s).flash = s.flash ∧
    (losePos p st s).dict = s.dict ∧
    (losePos p st s).fmt = s.fmt ∧
    (losePos p st s).ports = s.ports ∧
    (losePos p st s).settings = s.settings ∧
    (losePos p st s).pending = s.pending := by
  unfold losePos; simp

@[simp] theorem losePos_time_rate (p : Pos) (st : PosState) (s : State) :
    (losePos p st s).time.rate = s.time.rate := by
  unfold losePos; simp

@[simp] theorem losePos_time_now (p : Pos) (st : PosState) (s : State) :
    (losePos p st s).time.now = s.time.now := by
  unfold losePos; simp

@[simp] theorem losePos_host_phase (p : Pos) (st : PosState) (s : State) :
    (losePos p st s).host.phase = s.host.phase := by
  unfold losePos; simp

@[simp] theorem losePos_host_replies (p : Pos) (st : PosState) (s : State) :
    (losePos p st s).host.replies = s.host.replies := by
  unfold losePos; simp

@[simp] theorem losePos_host_rate (p : Pos) (st : PosState) (s : State) :
    (losePos p st s).host.rate = s.host.rate := by
  unfold losePos; simp

@[simp] theorem losePos_log_flush (p : Pos) (st : PosState) (s : State) :
    (losePos p st s).log.flush = s.log.flush := by
  unfold losePos; simp

@[simp] theorem losePos_script_session (p : Pos) (st : PosState) (s : State) :
    (losePos p st s).script.session = s.script.session := by
  unfold losePos; simp

@[simp] theorem withdraw_frame (p : Pos) (st : PosState) (s : State) :
    (withdraw p st s).links = s.links ∧
    (withdraw p st s).formers = s.formers ∧
    (withdraw p st s).seqCounter = s.seqCounter ∧
    (withdraw p st s).flash = s.flash ∧
    (withdraw p st s).dict = s.dict ∧
    (withdraw p st s).fmt = s.fmt ∧
    (withdraw p st s).ports = s.ports ∧
    (withdraw p st s).settings = s.settings ∧
    (withdraw p st s).pending = s.pending := by
  unfold withdraw; (repeat' split) <;> simp

@[simp] theorem withdraw_time_rate (p : Pos) (st : PosState) (s : State) :
    (withdraw p st s).time.rate = s.time.rate := by
  unfold withdraw; (repeat' split) <;> simp

@[simp] theorem withdraw_time_now (p : Pos) (st : PosState) (s : State) :
    (withdraw p st s).time.now = s.time.now := by
  unfold withdraw; (repeat' split) <;> simp

@[simp] theorem withdraw_host_phase (p : Pos) (st : PosState) (s : State) :
    (withdraw p st s).host.phase = s.host.phase := by
  unfold withdraw; (repeat' split) <;> simp

@[simp] theorem withdraw_host_replies (p : Pos) (st : PosState) (s : State) :
    (withdraw p st s).host.replies = s.host.replies := by
  unfold withdraw; (repeat' split) <;> simp

@[simp] theorem withdraw_host_rate (p : Pos) (st : PosState) (s : State) :
    (withdraw p st s).host.rate = s.host.rate := by
  unfold withdraw; (repeat' split) <;> simp

@[simp] theorem withdraw_log_flush (p : Pos) (st : PosState) (s : State) :
    (withdraw p st s).log.flush = s.log.flush := by
  unfold withdraw; (repeat' split) <;> simp

@[simp] theorem withdraw_script_session (p : Pos) (st : PosState) (s : State) :
    (withdraw p st s).script.session = s.script.session := by
  unfold withdraw; (repeat' split) <;> simp

@[simp] theorem releasePos_frame (p : Pos) (s : State) :
    (releasePos p s).links = s.links ∧
    (releasePos p s).formers = s.formers ∧
    (releasePos p s).seqCounter = s.seqCounter ∧
    (releasePos p s).time = s.time ∧
    (releasePos p s).flash = s.flash ∧
    (releasePos p s).store = s.store ∧
    (releasePos p s).log = s.log ∧
    (releasePos p s).dict = s.dict ∧
    (releasePos p s).trans = s.trans ∧
    (releasePos p s).script = s.script ∧
    (releasePos p s).feeds = s.feeds ∧
    (releasePos p s).fmt = s.fmt ∧
    (releasePos p s).ports = s.ports ∧
    (releasePos p s).host = s.host ∧
    (releasePos p s).conds = s.conds ∧
    (releasePos p s).settings = s.settings ∧
    (releasePos p s).pending = s.pending := by
  unfold releasePos; simp

@[simp] theorem releaseFloor_frame (s : State) :
    (releaseFloor s).links = s.links ∧
    (releaseFloor s).formers = s.formers ∧
    (releaseFloor s).seqCounter = s.seqCounter ∧
    (releaseFloor s).flash = s.flash ∧
    (releaseFloor s).dict = s.dict ∧
    (releaseFloor s).trans = s.trans ∧
    (releaseFloor s).script = s.script ∧
    (releaseFloor s).feeds = s.feeds ∧
    (releaseFloor s).fmt = s.fmt ∧
    (releaseFloor s).ports = s.ports ∧
    (releaseFloor s).settings = s.settings ∧
    (releaseFloor s).pending = s.pending := by
  unfold releaseFloor; simp

@[simp] theorem releaseFloor_time_rate (s : State) :
    (releaseFloor s).time.rate = s.time.rate := by
  unfold releaseFloor; simp

@[simp] theorem releaseFloor_time_now (s : State) :
    (releaseFloor s).time.now = s.time.now := by
  unfold releaseFloor; simp

@[simp] theorem releaseFloor_host_phase (s : State) :
    (releaseFloor s).host.phase = s.host.phase := by
  unfold releaseFloor; simp

@[simp] theorem releaseFloor_host_replies (s : State) :
    (releaseFloor s).host.replies = s.host.replies := by
  unfold releaseFloor; simp

@[simp] theorem releaseFloor_host_rate (s : State) :
    (releaseFloor s).host.rate = s.host.rate := by
  unfold releaseFloor; simp

@[simp] theorem releaseFloor_log_flush (s : State) :
    (releaseFloor s).log.flush = s.log.flush := by
  unfold releaseFloor; simp

@[simp] theorem forceByWait_frame (s : State) :
    (forceByWait s).links = s.links ∧
    (forceByWait s).formers = s.formers ∧
    (forceByWait s).seqCounter = s.seqCounter ∧
    (forceByWait s).flash = s.flash ∧
    (forceByWait s).dict = s.dict ∧
    (forceByWait s).fmt = s.fmt ∧
    (forceByWait s).ports = s.ports ∧
    (forceByWait s).settings = s.settings ∧
    (forceByWait s).pending = s.pending := by
  unfold forceByWait; (repeat' split) <;> simp

@[simp] theorem forceByWait_time_rate (s : State) :
    (forceByWait s).time.rate = s.time.rate := by
  unfold forceByWait; (repeat' split) <;> simp

@[simp] theorem forceByWait_time_now (s : State) :
    (forceByWait s).time.now = s.time.now := by
  unfold forceByWait; (repeat' split) <;> simp

@[simp] theorem forceByWait_host_phase (s : State) :
    (forceByWait s).host.phase = s.host.phase := by
  unfold forceByWait; (repeat' split) <;> simp

@[simp] theorem forceByWait_host_replies (s : State) :
    (forceByWait s).host.replies = s.host.replies := by
  unfold forceByWait; (repeat' split) <;> simp

@[simp] theorem forceByWait_host_rate (s : State) :
    (forceByWait s).host.rate = s.host.rate := by
  unfold forceByWait; (repeat' split) <;> simp

@[simp] theorem forceByWait_log_flush (s : State) :
    (forceByWait s).log.flush = s.log.flush := by
  unfold forceByWait; (repeat' split) <;> simp

@[simp] theorem forceByWait_script_session (s : State) :
    (forceByWait s).script.session = s.script.session := by
  unfold forceByWait; (repeat' split) <;> simp

@[simp] theorem disposeShadow_frame (x : StrokeRec) (s : State) :
    (disposeShadow x s).links = s.links ∧
    (disposeShadow x s).formers = s.formers ∧
    (disposeShadow x s).seqCounter = s.seqCounter ∧
    (disposeShadow x s).flash = s.flash ∧
    (disposeShadow x s).dict = s.dict ∧
    (disposeShadow x s).trans = s.trans ∧
    (disposeShadow x s).script = s.script ∧
    (disposeShadow x s).feeds = s.feeds ∧
    (disposeShadow x s).fmt = s.fmt ∧
    (disposeShadow x s).ports = s.ports ∧
    (disposeShadow x s).settings = s.settings ∧
    (disposeShadow x s).pending = s.pending := by
  unfold disposeShadow; (repeat' split) <;> simp

@[simp] theorem disposeShadow_time_rate (x : StrokeRec) (s : State) :
    (disposeShadow x s).time.rate = s.time.rate := by
  unfold disposeShadow; (repeat' split) <;> simp

@[simp] theorem disposeShadow_time_now (x : StrokeRec) (s : State) :
    (disposeShadow x s).time.now = s.time.now := by
  unfold disposeShadow; (repeat' split) <;> simp

@[simp] theorem disposeShadow_host_phase (x : StrokeRec) (s : State) :
    (disposeShadow x s).host.phase = s.host.phase := by
  unfold disposeShadow; (repeat' split) <;> simp

@[simp] theorem disposeShadow_host_replies (x : StrokeRec) (s : State) :
    (disposeShadow x s).host.replies = s.host.replies := by
  unfold disposeShadow; (repeat' split) <;> simp

@[simp] theorem disposeShadow_host_rate (x : StrokeRec) (s : State) :
    (disposeShadow x s).host.rate = s.host.rate := by
  unfold disposeShadow; (repeat' split) <;> simp

@[simp] theorem disposeShadow_log_flush (x : StrokeRec) (s : State) :
    (disposeShadow x s).log.flush = s.log.flush := by
  unfold disposeShadow; (repeat' split) <;> simp

@[simp] theorem disposeRequesting_frame (x : StrokeRec) (s : State) :
    (disposeRequesting x s).links = s.links ∧
    (disposeRequesting x s).formers = s.formers ∧
    (disposeRequesting x s).seqCounter = s.seqCounter ∧
    (disposeRequesting x s).flash = s.flash ∧
    (disposeRequesting x s).dict = s.dict ∧
    (disposeRequesting x s).fmt = s.fmt ∧
    (disposeRequesting x s).ports = s.ports ∧
    (disposeRequesting x s).settings = s.settings ∧
    (disposeRequesting x s).pending = s.pending := by
  unfold disposeRequesting; (repeat' split) <;> simp

@[simp] theorem disposeRequesting_time_rate (x : StrokeRec) (s : State) :
    (disposeRequesting x s).time.rate = s.time.rate := by
  unfold disposeRequesting; (repeat' split) <;> simp

@[simp] theorem disposeRequesting_time_now (x : StrokeRec) (s : State) :
    (disposeRequesting x s).time.now = s.time.now := by
  unfold disposeRequesting; (repeat' split) <;> simp

@[simp] theorem disposeRequesting_host_phase (x : StrokeRec) (s : State) :
    (disposeRequesting x s).host.phase = s.host.phase := by
  unfold disposeRequesting; (repeat' split) <;> simp

@[simp] theorem disposeRequesting_host_replies (x : StrokeRec) (s : State) :
    (disposeRequesting x s).host.replies = s.host.replies := by
  unfold disposeRequesting; (repeat' split) <;> simp

@[simp] theorem disposeRequesting_host_rate (x : StrokeRec) (s : State) :
    (disposeRequesting x s).host.rate = s.host.rate := by
  unfold disposeRequesting; (repeat' split) <;> simp

@[simp] theorem disposeRequesting_log_flush (x : StrokeRec) (s : State) :
    (disposeRequesting x s).log.flush = s.log.flush := by
  unfold disposeRequesting; (repeat' split) <;> simp

@[simp] theorem disposeRequesting_script_session (x : StrokeRec) (s : State) :
    (disposeRequesting x s).script.session = s.script.session := by
  unfold disposeRequesting; (repeat' split) <;> simp

@[simp] theorem disposeLive_frame (x : StrokeRec) (s : State) :
    (disposeLive x s).links = s.links ∧
    (disposeLive x s).formers = s.formers ∧
    (disposeLive x s).seqCounter = s.seqCounter ∧
    (disposeLive x s).time = s.time ∧
    (disposeLive x s).flash = s.flash ∧
    (disposeLive x s).store = s.store ∧
    (disposeLive x s).log = s.log ∧
    (disposeLive x s).dict = s.dict ∧
    (disposeLive x s).trans = s.trans ∧
    (disposeLive x s).script = s.script ∧
    (disposeLive x s).feeds = s.feeds ∧
    (disposeLive x s).fmt = s.fmt ∧
    (disposeLive x s).ports = s.ports ∧
    (disposeLive x s).host = s.host ∧
    (disposeLive x s).conds = s.conds ∧
    (disposeLive x s).settings = s.settings ∧
    (disposeLive x s).pending = s.pending := by
  unfold disposeLive; simp

@[simp] theorem dispose_frame (x : StrokeRec) (s : State) :
    (dispose x s).links = s.links ∧
    (dispose x s).formers = s.formers ∧
    (dispose x s).seqCounter = s.seqCounter ∧
    (dispose x s).flash = s.flash ∧
    (dispose x s).dict = s.dict ∧
    (dispose x s).fmt = s.fmt ∧
    (dispose x s).ports = s.ports ∧
    (dispose x s).settings = s.settings ∧
    (dispose x s).pending = s.pending := by
  unfold dispose; (repeat' split) <;> simp

@[simp] theorem dispose_time_rate (x : StrokeRec) (s : State) :
    (dispose x s).time.rate = s.time.rate := by
  unfold dispose; (repeat' split) <;> simp

@[simp] theorem dispose_time_now (x : StrokeRec) (s : State) :
    (dispose x s).time.now = s.time.now := by
  unfold dispose; (repeat' split) <;> simp

@[simp] theorem dispose_host_phase (x : StrokeRec) (s : State) :
    (dispose x s).host.phase = s.host.phase := by
  unfold dispose; (repeat' split) <;> simp

@[simp] theorem dispose_host_replies (x : StrokeRec) (s : State) :
    (dispose x s).host.replies = s.host.replies := by
  unfold dispose; (repeat' split) <;> simp

@[simp] theorem dispose_host_rate (x : StrokeRec) (s : State) :
    (dispose x s).host.rate = s.host.rate := by
  unfold dispose; (repeat' split) <;> simp

@[simp] theorem dispose_log_flush (x : StrokeRec) (s : State) :
    (dispose x s).log.flush = s.log.flush := by
  unfold dispose; (repeat' split) <;> simp

@[simp] theorem dispose_script_session (x : StrokeRec) (s : State) :
    (dispose x s).script.session = s.script.session := by
  unfold dispose; (repeat' split) <;> simp

@[simp] theorem disposeLost_frame (x : StrokeRec) (s : State) :
    (disposeLost x s).links = s.links ∧
    (disposeLost x s).formers = s.formers ∧
    (disposeLost x s).seqCounter = s.seqCounter ∧
    (disposeLost x s).time = s.time ∧
    (disposeLost x s).flash = s.flash ∧
    (disposeLost x s).store = s.store ∧
    (disposeLost x s).log = s.log ∧
    (disposeLost x s).dict = s.dict ∧
    (disposeLost x s).trans = s.trans ∧
    (disposeLost x s).script = s.script ∧
    (disposeLost x s).feeds = s.feeds ∧
    (disposeLost x s).fmt = s.fmt ∧
    (disposeLost x s).ports = s.ports ∧
    (disposeLost x s).host = s.host ∧
    (disposeLost x s).conds = s.conds ∧
    (disposeLost x s).settings = s.settings ∧
    (disposeLost x s).pending = s.pending := by
  unfold disposeLost; simp

@[simp] theorem floorLinkUp_frame (p : Pos) (s : State) :
    (floorLinkUp p s).links = s.links ∧
    (floorLinkUp p s).formers = s.formers ∧
    (floorLinkUp p s).seqCounter = s.seqCounter ∧
    (floorLinkUp p s).time = s.time ∧
    (floorLinkUp p s).flash = s.flash ∧
    (floorLinkUp p s).store = s.store ∧
    (floorLinkUp p s).log = s.log ∧
    (floorLinkUp p s).dict = s.dict ∧
    (floorLinkUp p s).trans = s.trans ∧
    (floorLinkUp p s).script = s.script ∧
    (floorLinkUp p s).feeds = s.feeds ∧
    (floorLinkUp p s).fmt = s.fmt ∧
    (floorLinkUp p s).ports = s.ports ∧
    (floorLinkUp p s).host = s.host ∧
    (floorLinkUp p s).conds = s.conds ∧
    (floorLinkUp p s).settings = s.settings ∧
    (floorLinkUp p s).pending = s.pending := by
  unfold floorLinkUp; (repeat' split) <;> simp

@[simp] theorem floorLinkDown_frame (p : Pos) (s : State) :
    (floorLinkDown p s).links = s.links ∧
    (floorLinkDown p s).formers = s.formers ∧
    (floorLinkDown p s).seqCounter = s.seqCounter ∧
    (floorLinkDown p s).flash = s.flash ∧
    (floorLinkDown p s).dict = s.dict ∧
    (floorLinkDown p s).fmt = s.fmt ∧
    (floorLinkDown p s).ports = s.ports ∧
    (floorLinkDown p s).settings = s.settings ∧
    (floorLinkDown p s).pending = s.pending := by
  unfold floorLinkDown; (repeat' split) <;> simp

@[simp] theorem floorLinkDown_time_rate (p : Pos) (s : State) :
    (floorLinkDown p s).time.rate = s.time.rate := by
  unfold floorLinkDown; (repeat' split) <;> simp

@[simp] theorem floorLinkDown_time_now (p : Pos) (s : State) :
    (floorLinkDown p s).time.now = s.time.now := by
  unfold floorLinkDown; (repeat' split) <;> simp

@[simp] theorem floorLinkDown_host_phase (p : Pos) (s : State) :
    (floorLinkDown p s).host.phase = s.host.phase := by
  unfold floorLinkDown; (repeat' split) <;> simp

@[simp] theorem floorLinkDown_host_replies (p : Pos) (s : State) :
    (floorLinkDown p s).host.replies = s.host.replies := by
  unfold floorLinkDown; (repeat' split) <;> simp

@[simp] theorem floorLinkDown_host_rate (p : Pos) (s : State) :
    (floorLinkDown p s).host.rate = s.host.rate := by
  unfold floorLinkDown; (repeat' split) <;> simp

@[simp] theorem floorLinkDown_log_flush (p : Pos) (s : State) :
    (floorLinkDown p s).log.flush = s.log.flush := by
  unfold floorLinkDown; (repeat' split) <;> simp

@[simp] theorem floorLinkDown_script_session (p : Pos) (s : State) :
    (floorLinkDown p s).script.session = s.script.session := by
  unfold floorLinkDown; (repeat' split) <;> simp

/-! ### Finish -/

@[simp] theorem firmAll_frame (s : State) :
    (firmAll s).links = s.links ∧
    (firmAll s).formers = s.formers ∧
    (firmAll s).seqCounter = s.seqCounter ∧
    (firmAll s).floor = s.floor ∧
    (firmAll s).time = s.time ∧
    (firmAll s).flash = s.flash ∧
    (firmAll s).store = s.store ∧
    (firmAll s).log = s.log ∧
    (firmAll s).dict = s.dict ∧
    (firmAll s).trans = s.trans ∧
    (firmAll s).fmt = s.fmt ∧
    (firmAll s).ports = s.ports ∧
    (firmAll s).host = s.host ∧
    (firmAll s).conds = s.conds ∧
    (firmAll s).settings = s.settings ∧
    (firmAll s).pending = s.pending := by
  unfold firmAll; simp

@[simp] theorem firmAll_script_session (s : State) :
    (firmAll s).script.session = s.script.session := by
  unfold firmAll; simp

@[simp] theorem offerClose_frame (aborted : Bool) (s : State) :
    (offerClose aborted s).links = s.links ∧
    (offerClose aborted s).formers = s.formers ∧
    (offerClose aborted s).seqCounter = s.seqCounter ∧
    (offerClose aborted s).floor = s.floor ∧
    (offerClose aborted s).flash = s.flash ∧
    (offerClose aborted s).dict = s.dict ∧
    (offerClose aborted s).trans = s.trans ∧
    (offerClose aborted s).script = s.script ∧
    (offerClose aborted s).feeds = s.feeds ∧
    (offerClose aborted s).fmt = s.fmt ∧
    (offerClose aborted s).ports = s.ports ∧
    (offerClose aborted s).settings = s.settings ∧
    (offerClose aborted s).pending = s.pending := by
  unfold offerClose; simp

@[simp] theorem offerClose_time_rate (aborted : Bool) (s : State) :
    (offerClose aborted s).time.rate = s.time.rate := by
  unfold offerClose; simp

@[simp] theorem offerClose_time_now (aborted : Bool) (s : State) :
    (offerClose aborted s).time.now = s.time.now := by
  unfold offerClose; simp

@[simp] theorem offerClose_host_phase (aborted : Bool) (s : State) :
    (offerClose aborted s).host.phase = s.host.phase := by
  unfold offerClose; simp

@[simp] theorem offerClose_host_replies (aborted : Bool) (s : State) :
    (offerClose aborted s).host.replies = s.host.replies := by
  unfold offerClose; simp

@[simp] theorem offerClose_host_rate (aborted : Bool) (s : State) :
    (offerClose aborted s).host.rate = s.host.rate := by
  unfold offerClose; simp

@[simp] theorem offerClose_log_flush (aborted : Bool) (s : State) :
    (offerClose aborted s).log.flush = s.log.flush := by
  unfold offerClose; simp

@[simp] theorem holdResolved_frame (s : State) :
    (holdResolved s).links = s.links ∧
    (holdResolved s).formers = s.formers ∧
    (holdResolved s).seqCounter = s.seqCounter ∧
    (holdResolved s).flash = s.flash ∧
    (holdResolved s).dict = s.dict ∧
    (holdResolved s).trans = s.trans ∧
    (holdResolved s).fmt = s.fmt ∧
    (holdResolved s).ports = s.ports ∧
    (holdResolved s).settings = s.settings ∧
    (holdResolved s).pending = s.pending := by
  unfold holdResolved; simp

@[simp] theorem holdResolved_time_rate (s : State) :
    (holdResolved s).time.rate = s.time.rate := by
  unfold holdResolved; simp

@[simp] theorem holdResolved_time_now (s : State) :
    (holdResolved s).time.now = s.time.now := by
  unfold holdResolved; simp

@[simp] theorem holdResolved_host_phase (s : State) :
    (holdResolved s).host.phase = s.host.phase := by
  unfold holdResolved; simp

@[simp] theorem holdResolved_host_replies (s : State) :
    (holdResolved s).host.replies = s.host.replies := by
  unfold holdResolved; simp

@[simp] theorem holdResolved_host_rate (s : State) :
    (holdResolved s).host.rate = s.host.rate := by
  unfold holdResolved; simp

@[simp] theorem holdResolved_script_session (s : State) :
    (holdResolved s).script.session = s.script.session := by
  unfold holdResolved; simp

@[simp] theorem reportResolved_frame (s : State) :
    (reportResolved s).links = s.links ∧
    (reportResolved s).formers = s.formers ∧
    (reportResolved s).seqCounter = s.seqCounter ∧
    (reportResolved s).flash = s.flash ∧
    (reportResolved s).dict = s.dict ∧
    (reportResolved s).trans = s.trans ∧
    (reportResolved s).fmt = s.fmt ∧
    (reportResolved s).ports = s.ports ∧
    (reportResolved s).settings = s.settings ∧
    (reportResolved s).pending = s.pending := by
  unfold reportResolved; (repeat' split) <;> simp

@[simp] theorem reportResolved_time_rate (s : State) :
    (reportResolved s).time.rate = s.time.rate := by
  unfold reportResolved; (repeat' split) <;> simp

@[simp] theorem reportResolved_time_now (s : State) :
    (reportResolved s).time.now = s.time.now := by
  unfold reportResolved; (repeat' split) <;> simp

@[simp] theorem reportResolved_host_phase (s : State) :
    (reportResolved s).host.phase = s.host.phase := by
  unfold reportResolved; (repeat' split) <;> simp

@[simp] theorem reportResolved_host_replies (s : State) :
    (reportResolved s).host.replies = s.host.replies := by
  unfold reportResolved; (repeat' split) <;> simp

@[simp] theorem reportResolved_host_rate (s : State) :
    (reportResolved s).host.rate = s.host.rate := by
  unfold reportResolved; (repeat' split) <;> simp

@[simp] theorem reportResolved_script_session (s : State) :
    (reportResolved s).script.session = s.script.session := by
  unfold reportResolved; (repeat' split) <;> simp

@[simp] theorem afterRest_frame (s : State) :
    (afterRest s).links = s.links ∧
    (afterRest s).formers = s.formers ∧
    (afterRest s).seqCounter = s.seqCounter ∧
    (afterRest s).flash = s.flash ∧
    (afterRest s).dict = s.dict ∧
    (afterRest s).fmt = s.fmt ∧
    (afterRest s).ports = s.ports ∧
    (afterRest s).settings = s.settings ∧
    (afterRest s).pending = s.pending := by
  unfold afterRest; simp

@[simp] theorem afterRest_time_rate (s : State) :
    (afterRest s).time.rate = s.time.rate := by
  unfold afterRest; simp

@[simp] theorem afterRest_time_now (s : State) :
    (afterRest s).time.now = s.time.now := by
  unfold afterRest; simp

@[simp] theorem afterRest_host_phase (s : State) :
    (afterRest s).host.phase = s.host.phase := by
  unfold afterRest; simp

@[simp] theorem afterRest_host_replies (s : State) :
    (afterRest s).host.replies = s.host.replies := by
  unfold afterRest; simp

@[simp] theorem afterRest_host_rate (s : State) :
    (afterRest s).host.rate = s.host.rate := by
  unfold afterRest; simp

@[simp] theorem afterRest_script_session (s : State) :
    (afterRest s).script.session = s.script.session := by
  unfold afterRest; simp

@[simp] theorem finishPending_frame (s : State) :
    (finishPending s).links = s.links ∧
    (finishPending s).formers = s.formers ∧
    (finishPending s).seqCounter = s.seqCounter ∧
    (finishPending s).floor = s.floor ∧
    (finishPending s).time = s.time ∧
    (finishPending s).flash = s.flash ∧
    (finishPending s).store = s.store ∧
    (finishPending s).log = s.log ∧
    (finishPending s).dict = s.dict ∧
    (finishPending s).fmt = s.fmt ∧
    (finishPending s).ports = s.ports ∧
    (finishPending s).host = s.host ∧
    (finishPending s).conds = s.conds ∧
    (finishPending s).settings = s.settings ∧
    (finishPending s).pending = s.pending := by
  unfold finishPending; (repeat' split) <;> simp

@[simp] theorem finishPending_script_session (s : State) :
    (finishPending s).script.session = s.script.session := by
  unfold finishPending; (repeat' split) <;> simp

@[simp] theorem reportFinish_frame (s : State) :
    (reportFinish s).links = s.links ∧
    (reportFinish s).formers = s.formers ∧
    (reportFinish s).seqCounter = s.seqCounter ∧
    (reportFinish s).flash = s.flash ∧
    (reportFinish s).dict = s.dict ∧
    (reportFinish s).fmt = s.fmt ∧
    (reportFinish s).ports = s.ports ∧
    (reportFinish s).settings = s.settings ∧
    (reportFinish s).pending = s.pending := by
  unfold reportFinish; simp

@[simp] theorem reportFinish_time_rate (s : State) :
    (reportFinish s).time.rate = s.time.rate := by
  unfold reportFinish; simp

@[simp] theorem reportFinish_time_now (s : State) :
    (reportFinish s).time.now = s.time.now := by
  unfold reportFinish; simp

@[simp] theorem reportFinish_host_phase (s : State) :
    (reportFinish s).host.phase = s.host.phase := by
  unfold reportFinish; simp

@[simp] theorem reportFinish_host_replies (s : State) :
    (reportFinish s).host.replies = s.host.replies := by
  unfold reportFinish; simp

@[simp] theorem reportFinish_host_rate (s : State) :
    (reportFinish s).host.rate = s.host.rate := by
  unfold reportFinish; simp

@[simp] theorem reportFinish_script_session (s : State) :
    (reportFinish s).script.session = s.script.session := by
  unfold reportFinish; simp

@[simp] theorem finishStroke_frame (s : State) :
    (finishStroke s).links = s.links ∧
    (finishStroke s).formers = s.formers ∧
    (finishStroke s).seqCounter = s.seqCounter ∧
    (finishStroke s).flash = s.flash ∧
    (finishStroke s).dict = s.dict ∧
    (finishStroke s).fmt = s.fmt ∧
    (finishStroke s).ports = s.ports ∧
    (finishStroke s).settings = s.settings ∧
    (finishStroke s).pending = s.pending := by
  unfold finishStroke; (repeat' split) <;> simp

@[simp] theorem finishStroke_time_rate (s : State) :
    (finishStroke s).time.rate = s.time.rate := by
  unfold finishStroke; (repeat' split) <;> simp

@[simp] theorem finishStroke_time_now (s : State) :
    (finishStroke s).time.now = s.time.now := by
  unfold finishStroke; (repeat' split) <;> simp

@[simp] theorem finishStroke_host_phase (s : State) :
    (finishStroke s).host.phase = s.host.phase := by
  unfold finishStroke; (repeat' split) <;> simp

@[simp] theorem finishStroke_host_replies (s : State) :
    (finishStroke s).host.replies = s.host.replies := by
  unfold finishStroke; (repeat' split) <;> simp

@[simp] theorem finishStroke_host_rate (s : State) :
    (finishStroke s).host.rate = s.host.rate := by
  unfold finishStroke; (repeat' split) <;> simp

@[simp] theorem finishStroke_script_session (s : State) :
    (finishStroke s).script.session = s.script.session := by
  unfold finishStroke; (repeat' split) <;> simp

@[simp] theorem undoNewest_frame (s : State) :
    (undoNewest s).links = s.links ∧
    (undoNewest s).formers = s.formers ∧
    (undoNewest s).seqCounter = s.seqCounter ∧
    (undoNewest s).floor = s.floor ∧
    (undoNewest s).time = s.time ∧
    (undoNewest s).flash = s.flash ∧
    (undoNewest s).store = s.store ∧
    (undoNewest s).log = s.log ∧
    (undoNewest s).dict = s.dict ∧
    (undoNewest s).fmt = s.fmt ∧
    (undoNewest s).ports = s.ports ∧
    (undoNewest s).host = s.host ∧
    (undoNewest s).conds = s.conds ∧
    (undoNewest s).settings = s.settings ∧
    (undoNewest s).pending = s.pending := by
  unfold undoNewest; (repeat' split) <;> simp

@[simp] theorem undoNewest_script_session (s : State) :
    (undoNewest s).script.session = s.script.session := by
  unfold undoNewest; (repeat' split) <;> simp

@[simp] theorem undoAtTake_frame (x : StrokeRec) (s : State) :
    (undoAtTake x s).links = s.links ∧
    (undoAtTake x s).formers = s.formers ∧
    (undoAtTake x s).seqCounter = s.seqCounter ∧
    (undoAtTake x s).floor = s.floor ∧
    (undoAtTake x s).flash = s.flash ∧
    (undoAtTake x s).store = s.store ∧
    (undoAtTake x s).log = s.log ∧
    (undoAtTake x s).dict = s.dict ∧
    (undoAtTake x s).fmt = s.fmt ∧
    (undoAtTake x s).ports = s.ports ∧
    (undoAtTake x s).settings = s.settings ∧
    (undoAtTake x s).pending = s.pending := by
  unfold undoAtTake; (repeat' split) <;> simp

@[simp] theorem undoAtTake_time_rate (x : StrokeRec) (s : State) :
    (undoAtTake x s).time.rate = s.time.rate := by
  unfold undoAtTake; (repeat' split) <;> simp

@[simp] theorem undoAtTake_time_now (x : StrokeRec) (s : State) :
    (undoAtTake x s).time.now = s.time.now := by
  unfold undoAtTake; (repeat' split) <;> simp

@[simp] theorem undoAtTake_host_phase (x : StrokeRec) (s : State) :
    (undoAtTake x s).host.phase = s.host.phase := by
  unfold undoAtTake; (repeat' split) <;> simp

@[simp] theorem undoAtTake_host_replies (x : StrokeRec) (s : State) :
    (undoAtTake x s).host.replies = s.host.replies := by
  unfold undoAtTake; (repeat' split) <;> simp

@[simp] theorem undoAtTake_host_rate (x : StrokeRec) (s : State) :
    (undoAtTake x s).host.rate = s.host.rate := by
  unfold undoAtTake; (repeat' split) <;> simp

@[simp] theorem undoAtTake_script_session (x : StrokeRec) (s : State) :
    (undoAtTake x s).script.session = s.script.session := by
  unfold undoAtTake; (repeat' split) <;> simp

@[simp] theorem holdExpire_frame (s : State) :
    (holdExpire s).links = s.links ∧
    (holdExpire s).formers = s.formers ∧
    (holdExpire s).seqCounter = s.seqCounter ∧
    (holdExpire s).flash = s.flash ∧
    (holdExpire s).dict = s.dict ∧
    (holdExpire s).fmt = s.fmt ∧
    (holdExpire s).ports = s.ports ∧
    (holdExpire s).settings = s.settings ∧
    (holdExpire s).pending = s.pending := by
  unfold holdExpire; (repeat' split) <;> simp

@[simp] theorem holdExpire_time_rate (s : State) :
    (holdExpire s).time.rate = s.time.rate := by
  unfold holdExpire; (repeat' split) <;> simp

@[simp] theorem holdExpire_time_now (s : State) :
    (holdExpire s).time.now = s.time.now := by
  unfold holdExpire; (repeat' split) <;> simp

@[simp] theorem holdExpire_host_phase (s : State) :
    (holdExpire s).host.phase = s.host.phase := by
  unfold holdExpire; (repeat' split) <;> simp

@[simp] theorem holdExpire_host_replies (s : State) :
    (holdExpire s).host.replies = s.host.replies := by
  unfold holdExpire; (repeat' split) <;> simp

@[simp] theorem holdExpire_host_rate (s : State) :
    (holdExpire s).host.rate = s.host.rate := by
  unfold holdExpire; (repeat' split) <;> simp

@[simp] theorem holdExpire_script_session (s : State) :
    (holdExpire s).script.session = s.script.session := by
  unfold holdExpire; (repeat' split) <;> simp

end Sys2Proof.Machine
end

