-- ==== Sys2Proof/Laws/FramesB.lean ====
section
/-! SUPPORT. What the shared operations leave as it was, block by block: dictionaries, note store and key links. -/

namespace Sys2Proof.Machine

/-! ### Dictionary -/

@[simp] theorem globalRewrite_frame (o : List Nat) (text : Bytes) (l : List (Nat × Nat)) (r : State × Nat × Nat) :
    (globalRewrite o text l r).1.links = r.1.links ∧
    (globalRewrite o text l r).1.formers = r.1.formers ∧
    (globalRewrite o text l r).1.seqCounter = r.1.seqCounter ∧
    (globalRewrite o text l r).1.floor = r.1.floor ∧
    (globalRewrite o text l r).1.time = r.1.time ∧
    (globalRewrite o text l r).1.flash = r.1.flash ∧
    (globalRewrite o text l r).1.store = r.1.store ∧
    (globalRewrite o text l r).1.log = r.1.log ∧
    (globalRewrite o text l r).1.dict = r.1.dict ∧
    (globalRewrite o text l r).1.fmt = r.1.fmt ∧
    (globalRewrite o text l r).1.ports = r.1.ports ∧
    (globalRewrite o text l r).1.host = r.1.host ∧
    (globalRewrite o text l r).1.conds = r.1.conds ∧
    (globalRewrite o text l r).1.settings = r.1.settings ∧
    (globalRewrite o text l r).1.pending = r.1.pending ∧
    (globalRewrite o text l r).1.script.session = r.1.script.session := by
  induction l generalizing r with
  | nil => simp [globalRewrite]
  | cons a l ih =>
    obtain ⟨n, k⟩ := a
    obtain ⟨s, i, j⟩ := r
    simp only [globalRewrite]
    split
    · simp [ih]
    · split <;> simp [ih]

@[simp] theorem addRunResult_frame (first : ℕ) (last : ℕ) (l : Lookup) (s : State) :
    (addRunResult first last l s).links = s.links ∧
    (addRunResult first last l s).formers = s.formers ∧
    (addRunResult first last l s).seqCounter = s.seqCounter ∧
    (addRunResult first last l s).floor = s.floor ∧
    (addRunResult first last l s).time = s.time ∧
    (addRunResult first last l s).flash = s.flash ∧
    (addRunResult first last l s).store = s.store ∧
    (addRunResult first last l s).log = s.log ∧
    (addRunResult first last l s).dict = s.dict ∧
    (addRunResult first last l s).script = s.script ∧
    (addRunResult first last l s).feeds = s.feeds ∧
    (addRunResult first last l s).fmt = s.fmt ∧
    (addRunResult first last l s).ports = s.ports ∧
    (addRunResult first last l s).host = s.host ∧
    (addRunResult first last l s).conds = s.conds ∧
    (addRunResult first last l s).settings = s.settings ∧
    (addRunResult first last l s).pending = s.pending := by
  unfold addRunResult; simp

@[simp] theorem finishIfDone_frame (s : State) :
    (finishIfDone s).links = s.links ∧
    (finishIfDone s).formers = s.formers ∧
    (finishIfDone s).seqCounter = s.seqCounter ∧
    (finishIfDone s).flash = s.flash ∧
    (finishIfDone s).dict = s.dict ∧
    (finishIfDone s).fmt = s.fmt ∧
    (finishIfDone s).ports = s.ports ∧
    (finishIfDone s).settings = s.settings ∧
    (finishIfDone s).pending = s.pending := by
  unfold finishIfDone; (repeat' split) <;> simp

@[simp] theorem finishIfDone_time_rate (s : State) :
    (finishIfDone s).time.rate = s.time.rate := by
  unfold finishIfDone; (repeat' split) <;> simp

@[simp] theorem finishIfDone_time_now (s : State) :
    (finishIfDone s).time.now = s.time.now := by
  unfold finishIfDone; (repeat' split) <;> simp

@[simp] theorem finishIfDone_host_phase (s : State) :
    (finishIfDone s).host.phase = s.host.phase := by
  unfold finishIfDone; (repeat' split) <;> simp

@[simp] theorem finishIfDone_host_replies (s : State) :
    (finishIfDone s).host.replies = s.host.replies := by
  unfold finishIfDone; (repeat' split) <;> simp

@[simp] theorem finishIfDone_host_rate (s : State) :
    (finishIfDone s).host.rate = s.host.rate := by
  unfold finishIfDone; (repeat' split) <;> simp

@[simp] theorem finishIfDone_script_session (s : State) :
    (finishIfDone s).script.session = s.script.session := by
  unfold finishIfDone; (repeat' split) <;> simp

@[simp] theorem waitRead_frame (c : Client) (s : State) :
    (waitRead c s).links = s.links ∧
    (waitRead c s).formers = s.formers ∧
    (waitRead c s).seqCounter = s.seqCounter ∧
    (waitRead c s).floor = s.floor ∧
    (waitRead c s).time = s.time ∧
    (waitRead c s).flash = s.flash ∧
    (waitRead c s).log = s.log ∧
    (waitRead c s).dict = s.dict ∧
    (waitRead c s).trans = s.trans ∧
    (waitRead c s).script = s.script ∧
    (waitRead c s).feeds = s.feeds ∧
    (waitRead c s).fmt = s.fmt ∧
    (waitRead c s).ports = s.ports ∧
    (waitRead c s).host = s.host ∧
    (waitRead c s).conds = s.conds ∧
    (waitRead c s).settings = s.settings ∧
    (waitRead c s).pending = s.pending := by
  unfold waitRead; simp

@[simp] theorem startWalk_frame (l : Lookup) (s : State) :
    (startWalk l s).links = s.links ∧
    (startWalk l s).formers = s.formers ∧
    (startWalk l s).seqCounter = s.seqCounter ∧
    (startWalk l s).floor = s.floor ∧
    (startWalk l s).time = s.time ∧
    (startWalk l s).flash = s.flash ∧
    (startWalk l s).log = s.log ∧
    (startWalk l s).trans = s.trans ∧
    (startWalk l s).script = s.script ∧
    (startWalk l s).feeds = s.feeds ∧
    (startWalk l s).fmt = s.fmt ∧
    (startWalk l s).ports = s.ports ∧
    (startWalk l s).host = s.host ∧
    (startWalk l s).conds = s.conds ∧
    (startWalk l s).settings = s.settings ∧
    (startWalk l s).pending = s.pending := by
  unfold startWalk; simp

@[simp] theorem countLookup_frame (s : State) :
    (countLookup s).links = s.links ∧
    (countLookup s).formers = s.formers ∧
    (countLookup s).seqCounter = s.seqCounter ∧
    (countLookup s).floor = s.floor ∧
    (countLookup s).time = s.time ∧
    (countLookup s).flash = s.flash ∧
    (countLookup s).store = s.store ∧
    (countLookup s).log = s.log ∧
    (countLookup s).trans = s.trans ∧
    (countLookup s).script = s.script ∧
    (countLookup s).feeds = s.feeds ∧
    (countLookup s).fmt = s.fmt ∧
    (countLookup s).ports = s.ports ∧
    (countLookup s).host = s.host ∧
    (countLookup s).conds = s.conds ∧
    (countLookup s).settings = s.settings ∧
    (countLookup s).pending = s.pending := by
  unfold countLookup; simp

@[simp] theorem beginRun_frame (first : ℕ) (last : ℕ) (d : Dict) (o : List ℕ) (s : State) :
    (beginRun first last d o s).links = s.links ∧
    (beginRun first last d o s).formers = s.formers ∧
    (beginRun first last d o s).seqCounter = s.seqCounter ∧
    (beginRun first last d o s).floor = s.floor ∧
    (beginRun first last d o s).time = s.time ∧
    (beginRun first last d o s).flash = s.flash ∧
    (beginRun first last d o s).log = s.log ∧
    (beginRun first last d o s).script = s.script ∧
    (beginRun first last d o s).feeds = s.feeds ∧
    (beginRun first last d o s).fmt = s.fmt ∧
    (beginRun first last d o s).ports = s.ports ∧
    (beginRun first last d o s).host = s.host ∧
    (beginRun first last d o s).conds = s.conds ∧
    (beginRun first last d o s).settings = s.settings ∧
    (beginRun first last d o s).pending = s.pending := by
  unfold beginRun; dsimp only; (repeat' split) <;> simp

@[simp] theorem handRecord_frame (o : StagedOp) (s : State) :
    (handRecord o s).links = s.links ∧
    (handRecord o s).formers = s.formers ∧
    (handRecord o s).seqCounter = s.seqCounter ∧
    (handRecord o s).floor = s.floor ∧
    (handRecord o s).time = s.time ∧
    (handRecord o s).flash = s.flash ∧
    (handRecord o s).log = s.log ∧
    (handRecord o s).trans = s.trans ∧
    (handRecord o s).script = s.script ∧
    (handRecord o s).feeds = s.feeds ∧
    (handRecord o s).fmt = s.fmt ∧
    (handRecord o s).ports = s.ports ∧
    (handRecord o s).host = s.host ∧
    (handRecord o s).conds = s.conds ∧
    (handRecord o s).settings = s.settings ∧
    (handRecord o s).pending = s.pending := by
  unfold handRecord; dsimp only; (repeat' split) <;> simp

@[simp] theorem drainStep_frame (s : State) :
    (drainStep s).links = s.links ∧
    (drainStep s).formers = s.formers ∧
    (drainStep s).seqCounter = s.seqCounter ∧
    (drainStep s).floor = s.floor ∧
    (drainStep s).time = s.time ∧
    (drainStep s).flash = s.flash ∧
    (drainStep s).log = s.log ∧
    (drainStep s).trans = s.trans ∧
    (drainStep s).script = s.script ∧
    (drainStep s).feeds = s.feeds ∧
    (drainStep s).fmt = s.fmt ∧
    (drainStep s).ports = s.ports ∧
    (drainStep s).host = s.host ∧
    (drainStep s).conds = s.conds ∧
    (drainStep s).settings = s.settings ∧
    (drainStep s).pending = s.pending := by
  unfold drainStep; (repeat' split) <;> simp

@[simp] theorem prefixChecked_frame (met : Bool) (s : State) :
    (prefixChecked met s).links = s.links ∧
    (prefixChecked met s).formers = s.formers ∧
    (prefixChecked met s).seqCounter = s.seqCounter ∧
    (prefixChecked met s).floor = s.floor ∧
    (prefixChecked met s).time = s.time ∧
    (prefixChecked met s).flash = s.flash ∧
    (prefixChecked met s).log = s.log ∧
    (prefixChecked met s).trans = s.trans ∧
    (prefixChecked met s).script = s.script ∧
    (prefixChecked met s).feeds = s.feeds ∧
    (prefixChecked met s).fmt = s.fmt ∧
    (prefixChecked met s).ports = s.ports ∧
    (prefixChecked met s).host = s.host ∧
    (prefixChecked met s).conds = s.conds ∧
    (prefixChecked met s).settings = s.settings ∧
    (prefixChecked met s).pending = s.pending := by
  unfold prefixChecked; (repeat' split) <;> simp

@[simp] theorem drainNext_frame (s : State) :
    (drainNext s).links = s.links ∧
    (drainNext s).formers = s.formers ∧
    (drainNext s).seqCounter = s.seqCounter ∧
    (drainNext s).floor = s.floor ∧
    (drainNext s).time = s.time ∧
    (drainNext s).flash = s.flash ∧
    (drainNext s).log = s.log ∧
    (drainNext s).trans = s.trans ∧
    (drainNext s).script = s.script ∧
    (drainNext s).feeds = s.feeds ∧
    (drainNext s).fmt = s.fmt ∧
    (drainNext s).ports = s.ports ∧
    (drainNext s).host = s.host ∧
    (drainNext s).conds = s.conds ∧
    (drainNext s).settings = s.settings ∧
    (drainNext s).pending = s.pending := by
  unfold drainNext; (repeat' split) <;> simp

@[simp] theorem drainBegin_frame (s : State) :
    (drainBegin s).links = s.links ∧
    (drainBegin s).formers = s.formers ∧
    (drainBegin s).seqCounter = s.seqCounter ∧
    (drainBegin s).floor = s.floor ∧
    (drainBegin s).time = s.time ∧
    (drainBegin s).flash = s.flash ∧
    (drainBegin s).log = s.log ∧
    (drainBegin s).trans = s.trans ∧
    (drainBegin s).script = s.script ∧
    (drainBegin s).feeds = s.feeds ∧
    (drainBegin s).fmt = s.fmt ∧
    (drainBegin s).ports = s.ports ∧
    (drainBegin s).host = s.host ∧
    (drainBegin s).conds = s.conds ∧
    (drainBegin s).settings = s.settings ∧
    (drainBegin s).pending = s.pending := by
  unfold drainBegin; simp

@[simp] theorem stepDone_frame (o : StagedOp) (s : State) :
    (stepDone o s).links = s.links ∧
    (stepDone o s).formers = s.formers ∧
    (stepDone o s).seqCounter = s.seqCounter ∧
    (stepDone o s).floor = s.floor ∧
    (stepDone o s).time = s.time ∧
    (stepDone o s).flash = s.flash ∧
    (stepDone o s).log = s.log ∧
    (stepDone o s).trans = s.trans ∧
    (stepDone o s).script = s.script ∧
    (stepDone o s).feeds = s.feeds ∧
    (stepDone o s).fmt = s.fmt ∧
    (stepDone o s).ports = s.ports ∧
    (stepDone o s).host = s.host ∧
    (stepDone o s).conds = s.conds ∧
    (stepDone o s).settings = s.settings ∧
    (stepDone o s).pending = s.pending := by
  unfold stepDone; (repeat' split) <;> simp

@[simp] theorem recordSuccess_frame (p : DictProg) (s : State) :
    (recordSuccess p s).links = s.links ∧
    (recordSuccess p s).formers = s.formers ∧
    (recordSuccess p s).seqCounter = s.seqCounter ∧
    (recordSuccess p s).floor = s.floor ∧
    (recordSuccess p s).time = s.time ∧
    (recordSuccess p s).flash = s.flash ∧
    (recordSuccess p s).log = s.log ∧
    (recordSuccess p s).trans = s.trans ∧
    (recordSuccess p s).script = s.script ∧
    (recordSuccess p s).feeds = s.feeds ∧
    (recordSuccess p s).fmt = s.fmt ∧
    (recordSuccess p s).ports = s.ports ∧
    (recordSuccess p s).host = s.host ∧
    (recordSuccess p s).conds = s.conds ∧
    (recordSuccess p s).settings = s.settings ∧
    (recordSuccess p s).pending = s.pending := by
  unfold recordSuccess; (repeat' split) <;> simp

@[simp] theorem deliver_frame (l : Lookup) (ended : Bool) (s : State) :
    (deliver l ended s).links = s.links ∧
    (deliver l ended s).formers = s.formers ∧
    (deliver l ended s).seqCounter = s.seqCounter ∧
    (deliver l ended s).flash = s.flash ∧
    (deliver l ended s).fmt = s.fmt ∧
    (deliver l ended s).ports = s.ports ∧
    (deliver l ended s).settings = s.settings ∧
    (deliver l ended s).pending = s.pending := by
  unfold deliver; (repeat' split) <;> simp

@[simp] theorem deliver_time_rate (l : Lookup) (ended : Bool) (s : State) :
    (deliver l ended s).time.rate = s.time.rate := by
  unfold deliver; (repeat' split) <;> simp

@[simp] theorem deliver_time_now (l : Lookup) (ended : Bool) (s : State) :
    (deliver l ended s).time.now = s.time.now := by
  unfold deliver; (repeat' split) <;> simp

@[simp] theorem deliver_host_phase (l : Lookup) (ended : Bool) (s : State) :
    (deliver l ended s).host.phase = s.host.phase := by
  unfold deliver; (repeat' split) <;> simp

@[simp] theorem deliver_host_replies (l : Lookup) (ended : Bool) (s : State) :
    (deliver l ended s).host.replies = s.host.replies := by
  unfold deliver; (repeat' split) <;> simp

@[simp] theorem deliver_host_rate (l : Lookup) (ended : Bool) (s : State) :
    (deliver l ended s).host.rate = s.host.rate := by
  unfold deliver; (repeat' split) <;> simp

@[simp] theorem deliver_script_session (l : Lookup) (ended : Bool) (s : State) :
    (deliver l ended s).script.session = s.script.session := by
  unfold deliver; (repeat' split) <;> simp

@[simp] theorem completeLookup_frame (l : Lookup) (ended : Bool) (s : State) :
    (completeLookup l ended s).links = s.links ∧
    (completeLookup l ended s).formers = s.formers ∧
    (completeLookup l ended s).seqCounter = s.seqCounter ∧
    (completeLookup l ended s).flash = s.flash ∧
    (completeLookup l ended s).fmt = s.fmt ∧
    (completeLookup l ended s).ports = s.ports ∧
    (completeLookup l ended s).settings = s.settings ∧
    (completeLookup l ended s).pending = s.pending := by
  unfold completeLookup; simp

@[simp] theorem completeLookup_time_rate (l : Lookup) (ended : Bool) (s : State) :
    (completeLookup l ended s).time.rate = s.time.rate := by
  unfold completeLookup; simp

@[simp] theorem completeLookup_time_now (l : Lookup) (ended : Bool) (s : State) :
    (completeLookup l ended s).time.now = s.time.now := by
  unfold completeLookup; simp

@[simp] theorem completeLookup_host_phase (l : Lookup) (ended : Bool) (s : State) :
    (completeLookup l ended s).host.phase = s.host.phase := by
  unfold completeLookup; simp

@[simp] theorem completeLookup_host_replies (l : Lookup) (ended : Bool) (s : State) :
    (completeLookup l ended s).host.replies = s.host.replies := by
  unfold completeLookup; simp

@[simp] theorem completeLookup_host_rate (l : Lookup) (ended : Bool) (s : State) :
    (completeLookup l ended s).host.rate = s.host.rate := by
  unfold completeLookup; simp

@[simp] theorem completeLookup_script_session (l : Lookup) (ended : Bool) (s : State) :
    (completeLookup l ended s).script.session = s.script.session := by
  unfold completeLookup; simp

@[simp] theorem chainError_frame (s : State) :
    (chainError s).links = s.links ∧
    (chainError s).formers = s.formers ∧
    (chainError s).seqCounter = s.seqCounter ∧
    (chainError s).floor = s.floor ∧
    (chainError s).time = s.time ∧
    (chainError s).flash = s.flash ∧
    (chainError s).store = s.store ∧
    (chainError s).log = s.log ∧
    (chainError s).trans = s.trans ∧
    (chainError s).script = s.script ∧
    (chainError s).feeds = s.feeds ∧
    (chainError s).fmt = s.fmt ∧
    (chainError s).ports = s.ports ∧
    (chainError s).host = s.host ∧
    (chainError s).conds = s.conds ∧
    (chainError s).settings = s.settings ∧
    (chainError s).pending = s.pending := by
  unfold chainError; simp

@[simp] theorem walkOn_frame (l : Lookup) (s : State) :
    (walkOn l s).links = s.links ∧
    (walkOn l s).formers = s.formers ∧
    (walkOn l s).seqCounter = s.seqCounter ∧
    (walkOn l s).floor = s.floor ∧
    (walkOn l s).time = s.time ∧
    (walkOn l s).flash = s.flash ∧
    (walkOn l s).log = s.log ∧
    (walkOn l s).trans = s.trans ∧
    (walkOn l s).script = s.script ∧
    (walkOn l s).feeds = s.feeds ∧
    (walkOn l s).fmt = s.fmt ∧
    (walkOn l s).ports = s.ports ∧
    (walkOn l s).host = s.host ∧
    (walkOn l s).conds = s.conds ∧
    (walkOn l s).settings = s.settings ∧
    (walkOn l s).pending = s.pending := by
  unfold walkOn; simp

@[simp] theorem walkStep_frame (l : Lookup) (s : State) :
    (walkStep l s).links = s.links ∧
    (walkStep l s).formers = s.formers ∧
    (walkStep l s).seqCounter = s.seqCounter ∧
    (walkStep l s).flash = s.flash ∧
    (walkStep l s).fmt = s.fmt ∧
    (walkStep l s).ports = s.ports ∧
    (walkStep l s).settings = s.settings ∧
    (walkStep l s).pending = s.pending := by
  unfold walkStep; dsimp only; (repeat' split) <;> simp

@[simp] theorem walkStep_time_rate (l : Lookup) (s : State) :
    (walkStep l s).time.rate = s.time.rate := by
  unfold walkStep; dsimp only; (repeat' split) <;> simp

@[simp] theorem walkStep_time_now (l : Lookup) (s : State) :
    (walkStep l s).time.now = s.time.now := by
  unfold walkStep; dsimp only; (repeat' split) <;> simp

@[simp] theorem walkStep_host_phase (l : Lookup) (s : State) :
    (walkStep l s).host.phase = s.host.phase := by
  unfold walkStep; dsimp only; (repeat' split) <;> simp

@[simp] theorem walkStep_host_replies (l : Lookup) (s : State) :
    (walkStep l s).host.replies = s.host.replies := by
  unfold walkStep; dsimp only; (repeat' split) <;> simp

@[simp] theorem walkStep_host_rate (l : Lookup) (s : State) :
    (walkStep l s).host.rate = s.host.rate := by
  unfold walkStep; dsimp only; (repeat' split) <;> simp

@[simp] theorem walkStep_script_session (l : Lookup) (s : State) :
    (walkStep l s).script.session = s.script.session := by
  unfold walkStep; dsimp only; (repeat' split) <;> simp

@[simp] theorem lookupRead_frame (c : Client) (s : State) :
    (lookupRead c s).links = s.links ∧
    (lookupRead c s).formers = s.formers ∧
    (lookupRead c s).seqCounter = s.seqCounter ∧
    (lookupRead c s).flash = s.flash ∧
    (lookupRead c s).fmt = s.fmt ∧
    (lookupRead c s).ports = s.ports ∧
    (lookupRead c s).settings = s.settings ∧
    (lookupRead c s).pending = s.pending := by
  unfold lookupRead; (repeat' split) <;> simp

@[simp] theorem lookupRead_time_rate (c : Client) (s : State) :
    (lookupRead c s).time.rate = s.time.rate := by
  unfold lookupRead; (repeat' split) <;> simp

@[simp] theorem lookupRead_time_now (c : Client) (s : State) :
    (lookupRead c s).time.now = s.time.now := by
  unfold lookupRead; (repeat' split) <;> simp

@[simp] theorem lookupRead_host_phase (c : Client) (s : State) :
    (lookupRead c s).host.phase = s.host.phase := by
  unfold lookupRead; (repeat' split) <;> simp

@[simp] theorem lookupRead_host_replies (c : Client) (s : State) :
    (lookupRead c s).host.replies = s.host.replies := by
  unfold lookupRead; (repeat' split) <;> simp

@[simp] theorem lookupRead_host_rate (c : Client) (s : State) :
    (lookupRead c s).host.rate = s.host.rate := by
  unfold lookupRead; (repeat' split) <;> simp

@[simp] theorem lookupRead_script_session (c : Client) (s : State) :
    (lookupRead c s).script.session = s.script.session := by
  unfold lookupRead; (repeat' split) <;> simp

@[simp] theorem endLookups_frame (x0 : List Lookup) (x1 : State) :
    (endLookups x0 x1).links = x1.links ∧
    (endLookups x0 x1).formers = x1.formers ∧
    (endLookups x0 x1).seqCounter = x1.seqCounter ∧
    (endLookups x0 x1).flash = x1.flash ∧
    (endLookups x0 x1).fmt = x1.fmt ∧
    (endLookups x0 x1).ports = x1.ports ∧
    (endLookups x0 x1).settings = x1.settings ∧
    (endLookups x0 x1).pending = x1.pending := by
  fun_induction endLookups x0 x1 <;> (try simp_all) <;> (try (split <;> simp_all)) <;> (try (split <;> simp_all))

@[simp] theorem endLookups_time_rate (x0 : List Lookup) (x1 : State) :
    (endLookups x0 x1).time.rate = x1.time.rate := by
  fun_induction endLookups x0 x1 <;> (try simp_all) <;> (try (split <;> simp_all)) <;> (try (split <;> simp_all))

@[simp] theorem endLookups_time_now (x0 : List Lookup) (x1 : State) :
    (endLookups x0 x1).time.now = x1.time.now := by
  fun_induction endLookups x0 x1 <;> (try simp_all) <;> (try (split <;> simp_all)) <;> (try (split <;> simp_all))

@[simp] theorem endLookups_host_phase (x0 : List Lookup) (x1 : State) :
    (endLookups x0 x1).host.phase = x1.host.phase := by
  fun_induction endLookups x0 x1 <;> (try simp_all) <;> (try (split <;> simp_all)) <;> (try (split <;> simp_all))

@[simp] theorem endLookups_host_replies (x0 : List Lookup) (x1 : State) :
    (endLookups x0 x1).host.replies = x1.host.replies := by
  fun_induction endLookups x0 x1 <;> (try simp_all) <;> (try (split <;> simp_all)) <;> (try (split <;> simp_all))

@[simp] theorem endLookups_host_rate (x0 : List Lookup) (x1 : State) :
    (endLookups x0 x1).host.rate = x1.host.rate := by
  fun_induction endLookups x0 x1 <;> (try simp_all) <;> (try (split <;> simp_all)) <;> (try (split <;> simp_all))

@[simp] theorem endLookups_script_session (x0 : List Lookup) (x1 : State) :
    (endLookups x0 x1).script.session = x1.script.session := by
  fun_induction endLookups x0 x1 <;> (try simp_all) <;> (try (split <;> simp_all)) <;> (try (split <;> simp_all))

@[simp] theorem endLookupsOf_frame (p : Lookup → Bool) (s : State) :
    (endLookupsOf p s).links = s.links ∧
    (endLookupsOf p s).formers = s.formers ∧
    (endLookupsOf p s).seqCounter = s.seqCounter ∧
    (endLookupsOf p s).flash = s.flash ∧
    (endLookupsOf p s).fmt = s.fmt ∧
    (endLookupsOf p s).ports = s.ports ∧
    (endLookupsOf p s).settings = s.settings ∧
    (endLookupsOf p s).pending = s.pending := by
  unfold endLookupsOf; simp

@[simp] theorem endLookupsOf_time_rate (p : Lookup → Bool) (s : State) :
    (endLookupsOf p s).time.rate = s.time.rate := by
  unfold endLookupsOf; simp

@[simp] theorem endLookupsOf_time_now (p : Lookup → Bool) (s : State) :
    (endLookupsOf p s).time.now = s.time.now := by
  unfold endLookupsOf; simp

@[simp] theorem endLookupsOf_host_phase (p : Lookup → Bool) (s : State) :
    (endLookupsOf p s).host.phase = s.host.phase := by
  unfold endLookupsOf; simp

@[simp] theorem endLookupsOf_host_replies (p : Lookup → Bool) (s : State) :
    (endLookupsOf p s).host.replies = s.host.replies := by
  unfold endLookupsOf; simp

@[simp] theorem endLookupsOf_host_rate (p : Lookup → Bool) (s : State) :
    (endLookupsOf p s).host.rate = s.host.rate := by
  unfold endLookupsOf; simp

@[simp] theorem endLookupsOf_script_session (p : Lookup → Bool) (s : State) :
    (endLookupsOf p s).script.session = s.script.session := by
  unfold endLookupsOf; simp

@[simp] theorem eraseDict_frame (d : Dict) (s : State) :
    (eraseDict d s).links = s.links ∧
    (eraseDict d s).formers = s.formers ∧
    (eraseDict d s).seqCounter = s.seqCounter ∧
    (eraseDict d s).flash = s.flash ∧
    (eraseDict d s).fmt = s.fmt ∧
    (eraseDict d s).ports = s.ports ∧
    (eraseDict d s).settings = s.settings ∧
    (eraseDict d s).pending = s.pending := by
  unfold eraseDict; simp

@[simp] theorem eraseDict_time_rate (d : Dict) (s : State) :
    (eraseDict d s).time.rate = s.time.rate := by
  unfold eraseDict; simp

@[simp] theorem eraseDict_time_now (d : Dict) (s : State) :
    (eraseDict d s).time.now = s.time.now := by
  unfold eraseDict; simp

@[simp] theorem eraseDict_host_phase (d : Dict) (s : State) :
    (eraseDict d s).host.phase = s.host.phase := by
  unfold eraseDict; simp

@[simp] theorem eraseDict_host_replies (d : Dict) (s : State) :
    (eraseDict d s).host.replies = s.host.replies := by
  unfold eraseDict; simp

@[simp] theorem eraseDict_host_rate (d : Dict) (s : State) :
    (eraseDict d s).host.rate = s.host.rate := by
  unfold eraseDict; simp

@[simp] theorem eraseDict_script_session (d : Dict) (s : State) :
    (eraseDict d s).script.session = s.script.session := by
  unfold eraseDict; simp

@[simp] theorem formatDicts_frame (s : State) :
    (formatDicts s).links = s.links ∧
    (formatDicts s).formers = s.formers ∧
    (formatDicts s).seqCounter = s.seqCounter ∧
    (formatDicts s).flash = s.flash ∧
    (formatDicts s).fmt = s.fmt ∧
    (formatDicts s).ports = s.ports ∧
    (formatDicts s).settings = s.settings ∧
    (formatDicts s).pending = s.pending := by
  unfold formatDicts; simp

@[simp] theorem formatDicts_time_rate (s : State) :
    (formatDicts s).time.rate = s.time.rate := by
  unfold formatDicts; simp

@[simp] theorem formatDicts_time_now (s : State) :
    (formatDicts s).time.now = s.time.now := by
  unfold formatDicts; simp

@[simp] theorem formatDicts_host_phase (s : State) :
    (formatDicts s).host.phase = s.host.phase := by
  unfold formatDicts; simp

@[simp] theorem formatDicts_host_replies (s : State) :
    (formatDicts s).host.replies = s.host.replies := by
  unfold formatDicts; simp

@[simp] theorem formatDicts_host_rate (s : State) :
    (formatDicts s).host.rate = s.host.rate := by
  unfold formatDicts; simp

@[simp] theorem formatDicts_script_session (s : State) :
    (formatDicts s).script.session = s.script.session := by
  unfold formatDicts; simp

@[simp] theorem acceptAdd_frame (d : Dict) (global : Bool) (o : List ℕ) (text : Bytes) (s : State) :
    (acceptAdd d global o text s).1.links = s.links ∧
    (acceptAdd d global o text s).1.formers = s.formers ∧
    (acceptAdd d global o text s).1.seqCounter = s.seqCounter ∧
    (acceptAdd d global o text s).1.floor = s.floor ∧
    (acceptAdd d global o text s).1.time = s.time ∧
    (acceptAdd d global o text s).1.flash = s.flash ∧
    (acceptAdd d global o text s).1.store = s.store ∧
    (acceptAdd d global o text s).1.log = s.log ∧
    (acceptAdd d global o text s).1.fmt = s.fmt ∧
    (acceptAdd d global o text s).1.ports = s.ports ∧
    (acceptAdd d global o text s).1.host = s.host ∧
    (acceptAdd d global o text s).1.conds = s.conds ∧
    (acceptAdd d global o text s).1.settings = s.settings ∧
    (acceptAdd d global o text s).1.pending = s.pending := by
  unfold acceptAdd; (repeat' split) <;> simp

@[simp] theorem acceptAdd_script_session (d : Dict) (global : Bool) (o : List ℕ) (text : Bytes) (s : State) :
    (acceptAdd d global o text s).1.script.session = s.script.session := by
  unfold acceptAdd; (repeat' split) <;> simp

@[simp] theorem entryAddRule_frame (p : Bytes) (s : State) :
    (entryAddRule p s).1.links = s.links ∧
    (entryAddRule p s).1.formers = s.formers ∧
    (entryAddRule p s).1.seqCounter = s.seqCounter ∧
    (entryAddRule p s).1.floor = s.floor ∧
    (entryAddRule p s).1.time = s.time ∧
    (entryAddRule p s).1.flash = s.flash ∧
    (entryAddRule p s).1.store = s.store ∧
    (entryAddRule p s).1.log = s.log ∧
    (entryAddRule p s).1.fmt = s.fmt ∧
    (entryAddRule p s).1.ports = s.ports ∧
    (entryAddRule p s).1.host = s.host ∧
    (entryAddRule p s).1.conds = s.conds ∧
    (entryAddRule p s).1.settings = s.settings ∧
    (entryAddRule p s).1.pending = s.pending := by
  unfold entryAddRule; dsimp only; (repeat' split) <;> simp

@[simp] theorem entryAddRule_script_session (p : Bytes) (s : State) :
    (entryAddRule p s).1.script.session = s.script.session := by
  unfold entryAddRule; dsimp only; (repeat' split) <;> simp

@[simp] theorem entryDeleteRule_frame (p : Bytes) (s : State) :
    (entryDeleteRule p s).1.links = s.links ∧
    (entryDeleteRule p s).1.formers = s.formers ∧
    (entryDeleteRule p s).1.seqCounter = s.seqCounter ∧
    (entryDeleteRule p s).1.floor = s.floor ∧
    (entryDeleteRule p s).1.time = s.time ∧
    (entryDeleteRule p s).1.flash = s.flash ∧
    (entryDeleteRule p s).1.store = s.store ∧
    (entryDeleteRule p s).1.log = s.log ∧
    (entryDeleteRule p s).1.trans = s.trans ∧
    (entryDeleteRule p s).1.script = s.script ∧
    (entryDeleteRule p s).1.feeds = s.feeds ∧
    (entryDeleteRule p s).1.fmt = s.fmt ∧
    (entryDeleteRule p s).1.ports = s.ports ∧
    (entryDeleteRule p s).1.host = s.host ∧
    (entryDeleteRule p s).1.conds = s.conds ∧
    (entryDeleteRule p s).1.settings = s.settings ∧
    (entryDeleteRule p s).1.pending = s.pending := by
  unfold entryDeleteRule; dsimp only; (repeat' split) <;> simp

@[simp] theorem entryLookupRule_frame (tag : Byte) (p : Bytes) (s : State) :
    (entryLookupRule tag p s).1.links = s.links ∧
    (entryLookupRule tag p s).1.formers = s.formers ∧
    (entryLookupRule tag p s).1.seqCounter = s.seqCounter ∧
    (entryLookupRule tag p s).1.flash = s.flash ∧
    (entryLookupRule tag p s).1.fmt = s.fmt ∧
    (entryLookupRule tag p s).1.ports = s.ports ∧
    (entryLookupRule tag p s).1.settings = s.settings ∧
    (entryLookupRule tag p s).1.pending = s.pending := by
  unfold entryLookupRule; dsimp only; (repeat' split) <;> simp

@[simp] theorem entryLookupRule_time_rate (tag : Byte) (p : Bytes) (s : State) :
    (entryLookupRule tag p s).1.time.rate = s.time.rate := by
  unfold entryLookupRule; dsimp only; (repeat' split) <;> simp

@[simp] theorem entryLookupRule_time_now (tag : Byte) (p : Bytes) (s : State) :
    (entryLookupRule tag p s).1.time.now = s.time.now := by
  unfold entryLookupRule; dsimp only; (repeat' split) <;> simp

@[simp] theorem entryLookupRule_host_phase (tag : Byte) (p : Bytes) (s : State) :
    (entryLookupRule tag p s).1.host.phase = s.host.phase := by
  unfold entryLookupRule; dsimp only; (repeat' split) <;> simp

@[simp] theorem entryLookupRule_host_replies (tag : Byte) (p : Bytes) (s : State) :
    (entryLookupRule tag p s).1.host.replies = s.host.replies := by
  unfold entryLookupRule; dsimp only; (repeat' split) <;> simp

@[simp] theorem entryLookupRule_host_rate (tag : Byte) (p : Bytes) (s : State) :
    (entryLookupRule tag p s).1.host.rate = s.host.rate := by
  unfold entryLookupRule; dsimp only; (repeat' split) <;> simp

@[simp] theorem entryLookupRule_script_session (tag : Byte) (p : Bytes) (s : State) :
    (entryLookupRule tag p s).1.script.session = s.script.session := by
  unfold entryLookupRule; dsimp only; (repeat' split) <;> simp

/-! ### StoreOps -/

@[simp] theorem startRead_frame (s : State) :
    (startRead s).links = s.links ∧
    (startRead s).formers = s.formers ∧
    (startRead s).seqCounter = s.seqCounter ∧
    (startRead s).floor = s.floor ∧
    (startRead s).time = s.time ∧
    (startRead s).flash = s.flash ∧
    (startRead s).log = s.log ∧
    (startRead s).dict = s.dict ∧
    (startRead s).trans = s.trans ∧
    (startRead s).script = s.script ∧
    (startRead s).feeds = s.feeds ∧
    (startRead s).fmt = s.fmt ∧
    (startRead s).ports = s.ports ∧
    (startRead s).host = s.host ∧
    (startRead s).conds = s.conds ∧
    (startRead s).settings = s.settings ∧
    (startRead s).pending = s.pending := by
  unfold startRead; (repeat' split) <;> simp

@[simp] theorem startLog_frame (p : BufPage) (s : State) :
    (startLog p s).links = s.links ∧
    (startLog p s).formers = s.formers ∧
    (startLog p s).seqCounter = s.seqCounter ∧
    (startLog p s).floor = s.floor ∧
    (startLog p s).time = s.time ∧
    (startLog p s).flash = s.flash ∧
    (startLog p s).dict = s.dict ∧
    (startLog p s).trans = s.trans ∧
    (startLog p s).script = s.script ∧
    (startLog p s).feeds = s.feeds ∧
    (startLog p s).fmt = s.fmt ∧
    (startLog p s).ports = s.ports ∧
    (startLog p s).host = s.host ∧
    (startLog p s).conds = s.conds ∧
    (startLog p s).settings = s.settings ∧
    (startLog p s).pending = s.pending := by
  unfold startLog; simp

@[simp] theorem startLog_log_flush (p : BufPage) (s : State) :
    (startLog p s).log.flush = s.log.flush := by
  unfold startLog; simp

@[simp] theorem startDict_frame (p : DictProg) (s : State) :
    (startDict p s).links = s.links ∧
    (startDict p s).formers = s.formers ∧
    (startDict p s).seqCounter = s.seqCounter ∧
    (startDict p s).floor = s.floor ∧
    (startDict p s).time = s.time ∧
    (startDict p s).flash = s.flash ∧
    (startDict p s).log = s.log ∧
    (startDict p s).dict = s.dict ∧
    (startDict p s).trans = s.trans ∧
    (startDict p s).script = s.script ∧
    (startDict p s).feeds = s.feeds ∧
    (startDict p s).fmt = s.fmt ∧
    (startDict p s).ports = s.ports ∧
    (startDict p s).host = s.host ∧
    (startDict p s).conds = s.conds ∧
    (startDict p s).settings = s.settings ∧
    (startDict p s).pending = s.pending := by
  unfold startDict; simp

@[simp] theorem startJob_frame (j : Job) (s : State) :
    (startJob j s).links = s.links ∧
    (startJob j s).formers = s.formers ∧
    (startJob j s).seqCounter = s.seqCounter ∧
    (startJob j s).floor = s.floor ∧
    (startJob j s).time = s.time ∧
    (startJob j s).flash = s.flash ∧
    (startJob j s).log = s.log ∧
    (startJob j s).dict = s.dict ∧
    (startJob j s).trans = s.trans ∧
    (startJob j s).script = s.script ∧
    (startJob j s).feeds = s.feeds ∧
    (startJob j s).fmt = s.fmt ∧
    (startJob j s).ports = s.ports ∧
    (startJob j s).host = s.host ∧
    (startJob j s).conds = s.conds ∧
    (startJob j s).settings = s.settings ∧
    (startJob j s).pending = s.pending := by
  unfold startJob; simp

@[simp] theorem pumpIdle_frame (s : State) :
    (pumpIdle s).links = s.links ∧
    (pumpIdle s).formers = s.formers ∧
    (pumpIdle s).seqCounter = s.seqCounter ∧
    (pumpIdle s).floor = s.floor ∧
    (pumpIdle s).time = s.time ∧
    (pumpIdle s).flash = s.flash ∧
    (pumpIdle s).dict = s.dict ∧
    (pumpIdle s).trans = s.trans ∧
    (pumpIdle s).script = s.script ∧
    (pumpIdle s).feeds = s.feeds ∧
    (pumpIdle s).fmt = s.fmt ∧
    (pumpIdle s).ports = s.ports ∧
    (pumpIdle s).host = s.host ∧
    (pumpIdle s).conds = s.conds ∧
    (pumpIdle s).settings = s.settings ∧
    (pumpIdle s).pending = s.pending := by
  unfold pumpIdle; (repeat' split) <;> simp

@[simp] theorem pumpIdle_log_flush (s : State) :
    (pumpIdle s).log.flush = s.log.flush := by
  unfold pumpIdle; (repeat' split) <;> simp

@[simp] theorem pumpSuspended_frame (r : Running) (s : State) :
    (pumpSuspended r s).links = s.links ∧
    (pumpSuspended r s).formers = s.formers ∧
    (pumpSuspended r s).seqCounter = s.seqCounter ∧
    (pumpSuspended r s).floor = s.floor ∧
    (pumpSuspended r s).time = s.time ∧
    (pumpSuspended r s).flash = s.flash ∧
    (pumpSuspended r s).dict = s.dict ∧
    (pumpSuspended r s).trans = s.trans ∧
    (pumpSuspended r s).script = s.script ∧
    (pumpSuspended r s).feeds = s.feeds ∧
    (pumpSuspended r s).fmt = s.fmt ∧
    (pumpSuspended r s).ports = s.ports ∧
    (pumpSuspended r s).host = s.host ∧
    (pumpSuspended r s).conds = s.conds ∧
    (pumpSuspended r s).settings = s.settings ∧
    (pumpSuspended r s).pending = s.pending := by
  unfold pumpSuspended; dsimp only; (repeat' split) <;> simp

@[simp] theorem pumpSuspended_log_flush (r : Running) (s : State) :
    (pumpSuspended r s).log.flush = s.log.flush := by
  unfold pumpSuspended; dsimp only; (repeat' split) <;> simp

@[simp] theorem pumpRunning_frame (r : Running) (s : State) :
    (pumpRunning r s).links = s.links ∧
    (pumpRunning r s).formers = s.formers ∧
    (pumpRunning r s).seqCounter = s.seqCounter ∧
    (pumpRunning r s).floor = s.floor ∧
    (pumpRunning r s).time = s.time ∧
    (pumpRunning r s).flash = s.flash ∧
    (pumpRunning r s).log = s.log ∧
    (pumpRunning r s).dict = s.dict ∧
    (pumpRunning r s).trans = s.trans ∧
    (pumpRunning r s).script = s.script ∧
    (pumpRunning r s).feeds = s.feeds ∧
    (pumpRunning r s).fmt = s.fmt ∧
    (pumpRunning r s).ports = s.ports ∧
    (pumpRunning r s).host = s.host ∧
    (pumpRunning r s).conds = s.conds ∧
    (pumpRunning r s).settings = s.settings ∧
    (pumpRunning r s).pending = s.pending := by
  unfold pumpRunning; (repeat' split) <;> simp

@[simp] theorem storePump_frame (s : State) :
    (storePump s).links = s.links ∧
    (storePump s).formers = s.formers ∧
    (storePump s).seqCounter = s.seqCounter ∧
    (storePump s).floor = s.floor ∧
    (storePump s).time = s.time ∧
    (storePump s).flash = s.flash ∧
    (storePump s).dict = s.dict ∧
    (storePump s).trans = s.trans ∧
    (storePump s).script = s.script ∧
    (storePump s).feeds = s.feeds ∧
    (storePump s).fmt = s.fmt ∧
    (storePump s).ports = s.ports ∧
    (storePump s).host = s.host ∧
    (storePump s).conds = s.conds ∧
    (storePump s).settings = s.settings ∧
    (storePump s).pending = s.pending := by
  unfold storePump; (repeat' split) <;> simp

@[simp] theorem storePump_log_flush (s : State) :
    (storePump s).log.flush = s.log.flush := by
  unfold storePump; (repeat' split) <;> simp

@[simp] theorem completeFlush_frame (failed : Option Reason) (s : State) :
    (completeFlush failed s).links = s.links ∧
    (completeFlush failed s).formers = s.formers ∧
    (completeFlush failed s).seqCounter = s.seqCounter ∧
    (completeFlush failed s).floor = s.floor ∧
    (completeFlush failed s).flash = s.flash ∧
    (completeFlush failed s).store = s.store ∧
    (completeFlush failed s).dict = s.dict ∧
    (completeFlush failed s).trans = s.trans ∧
    (completeFlush failed s).script = s.script ∧
    (completeFlush failed s).feeds = s.feeds ∧
    (completeFlush failed s).fmt = s.fmt ∧
    (completeFlush failed s).ports = s.ports ∧
    (completeFlush failed s).settings = s.settings ∧
    (completeFlush failed s).pending = s.pending := by
  unfold completeFlush; (repeat' split) <;> simp

@[simp] theorem completeFlush_time_rate (failed : Option Reason) (s : State) :
    (completeFlush failed s).time.rate = s.time.rate := by
  unfold completeFlush; (repeat' split) <;> simp

@[simp] theorem completeFlush_time_now (failed : Option Reason) (s : State) :
    (completeFlush failed s).time.now = s.time.now := by
  unfold completeFlush; (repeat' split) <;> simp

@[simp] theorem completeFlush_host_phase (failed : Option Reason) (s : State) :
    (completeFlush failed s).host.phase = s.host.phase := by
  unfold completeFlush; (repeat' split) <;> simp

@[simp] theorem completeFlush_host_replies (failed : Option Reason) (s : State) :
    (completeFlush failed s).host.replies = s.host.replies := by
  unfold completeFlush; (repeat' split) <;> simp

@[simp] theorem completeFlush_host_rate (failed : Option Reason) (s : State) :
    (completeFlush failed s).host.rate = s.host.rate := by
  unfold completeFlush; (repeat' split) <;> simp

@[simp] theorem completeFlush_log_flush (failed : Option Reason) (s : State) :
    (completeFlush failed s).log.flush = s.log.flush := by
  unfold completeFlush; (repeat' split) <;> simp

@[simp] theorem completeFormat_frame (failed : Option Reason) (data : Bytes) (s : State) :
    (completeFormat failed data s).links = s.links ∧
    (completeFormat failed data s).formers = s.formers ∧
    (completeFormat failed data s).seqCounter = s.seqCounter ∧
    (completeFormat failed data s).floor = s.floor ∧
    (completeFormat failed data s).flash = s.flash ∧
    (completeFormat failed data s).log = s.log ∧
    (completeFormat failed data s).dict = s.dict ∧
    (completeFormat failed data s).trans = s.trans ∧
    (completeFormat failed data s).script = s.script ∧
    (completeFormat failed data s).feeds = s.feeds ∧
    (completeFormat failed data s).fmt = s.fmt ∧
    (completeFormat failed data s).ports = s.ports ∧
    (completeFormat failed data s).settings = s.settings ∧
    (completeFormat failed data s).pending = s.pending := by
  unfold completeFormat; simp

@[simp] theorem completeFormat_time_rate (failed : Option Reason) (data : Bytes) (s : State) :
    (completeFormat failed data s).time.rate = s.time.rate := by
  unfold completeFormat; simp

@[simp] theorem completeFormat_time_now (failed : Option Reason) (data : Bytes) (s : State) :
    (completeFormat failed data s).time.now = s.time.now := by
  unfold completeFormat; simp

@[simp] theorem completeFormat_host_phase (failed : Option Reason) (data : Bytes) (s : State) :
    (completeFormat failed data s).host.phase = s.host.phase := by
  unfold completeFormat; simp

@[simp] theorem completeFormat_host_replies (failed : Option Reason) (data : Bytes) (s : State) :
    (completeFormat failed data s).host.replies = s.host.replies := by
  unfold completeFormat; simp

@[simp] theorem completeFormat_host_rate (failed : Option Reason) (data : Bytes) (s : State) :
    (completeFormat failed data s).host.rate = s.host.rate := by
  unfold completeFormat; simp

@[simp] theorem completeErase_frame (failed : Option Reason) (s : State) :
    (completeErase failed s).links = s.links ∧
    (completeErase failed s).formers = s.formers ∧
    (completeErase failed s).seqCounter = s.seqCounter ∧
    (completeErase failed s).floor = s.floor ∧
    (completeErase failed s).flash = s.flash ∧
    (completeErase failed s).log = s.log ∧
    (completeErase failed s).dict = s.dict ∧
    (completeErase failed s).trans = s.trans ∧
    (completeErase failed s).script = s.script ∧
    (completeErase failed s).feeds = s.feeds ∧
    (completeErase failed s).fmt = s.fmt ∧
    (completeErase failed s).ports = s.ports ∧
    (completeErase failed s).settings = s.settings ∧
    (completeErase failed s).pending = s.pending := by
  unfold completeErase; simp

@[simp] theorem completeErase_time_rate (failed : Option Reason) (s : State) :
    (completeErase failed s).time.rate = s.time.rate := by
  unfold completeErase; simp

@[simp] theorem completeErase_time_now (failed : Option Reason) (s : State) :
    (completeErase failed s).time.now = s.time.now := by
  unfold completeErase; simp

@[simp] theorem completeErase_host_phase (failed : Option Reason) (s : State) :
    (completeErase failed s).host.phase = s.host.phase := by
  unfold completeErase; simp

@[simp] theorem completeErase_host_replies (failed : Option Reason) (s : State) :
    (completeErase failed s).host.replies = s.host.replies := by
  unfold completeErase; simp

@[simp] theorem completeErase_host_rate (failed : Option Reason) (s : State) :
    (completeErase failed s).host.rate = s.host.rate := by
  unfold completeErase; simp

@[simp] theorem completeRecover_frame (failed : Option Reason) (s : State) :
    (completeRecover failed s).links = s.links ∧
    (completeRecover failed s).formers = s.formers ∧
    (completeRecover failed s).seqCounter = s.seqCounter ∧
    (completeRecover failed s).floor = s.floor ∧
    (completeRecover failed s).flash = s.flash ∧
    (completeRecover failed s).log = s.log ∧
    (completeRecover failed s).dict = s.dict ∧
    (completeRecover failed s).trans = s.trans ∧
    (completeRecover failed s).script = s.script ∧
    (completeRecover failed s).feeds = s.feeds ∧
    (completeRecover failed s).fmt = s.fmt ∧
    (completeRecover failed s).ports = s.ports ∧
    (completeRecover failed s).settings = s.settings ∧
    (completeRecover failed s).pending = s.pending := by
  unfold completeRecover; simp

@[simp] theorem completeRecover_time_rate (failed : Option Reason) (s : State) :
    (completeRecover failed s).time.rate = s.time.rate := by
  unfold completeRecover; simp

@[simp] theorem completeRecover_time_now (failed : Option Reason) (s : State) :
    (completeRecover failed s).time.now = s.time.now := by
  unfold completeRecover; simp

@[simp] theorem completeRecover_host_phase (failed : Option Reason) (s : State) :
    (completeRecover failed s).host.phase = s.host.phase := by
  unfold completeRecover; simp

@[simp] theorem completeRecover_host_replies (failed : Option Reason) (s : State) :
    (completeRecover failed s).host.replies = s.host.replies := by
  unfold completeRecover; simp

@[simp] theorem completeRecover_host_rate (failed : Option Reason) (s : State) :
    (completeRecover failed s).host.rate = s.host.rate := by
  unfold completeRecover; simp

@[simp] theorem failJob_frame (f : FailedWork) (s : State) :
    (failJob f s).links = s.links ∧
    (failJob f s).formers = s.formers ∧
    (failJob f s).seqCounter = s.seqCounter ∧
    (failJob f s).floor = s.floor ∧
    (failJob f s).flash = s.flash ∧
    (failJob f s).log = s.log ∧
    (failJob f s).dict = s.dict ∧
    (failJob f s).trans = s.trans ∧
    (failJob f s).script = s.script ∧
    (failJob f s).feeds = s.feeds ∧
    (failJob f s).fmt = s.fmt ∧
    (failJob f s).ports = s.ports ∧
    (failJob f s).settings = s.settings ∧
    (failJob f s).pending = s.pending := by
  unfold failJob; (repeat' split) <;> simp

@[simp] theorem failJob_time_rate (f : FailedWork) (s : State) :
    (failJob f s).time.rate = s.time.rate := by
  unfold failJob; (repeat' split) <;> simp

@[simp] theorem failJob_time_now (f : FailedWork) (s : State) :
    (failJob f s).time.now = s.time.now := by
  unfold failJob; (repeat' split) <;> simp

@[simp] theorem failJob_host_phase (f : FailedWork) (s : State) :
    (failJob f s).host.phase = s.host.phase := by
  unfold failJob; (repeat' split) <;> simp

@[simp] theorem failJob_host_replies (f : FailedWork) (s : State) :
    (failJob f s).host.replies = s.host.replies := by
  unfold failJob; (repeat' split) <;> simp

@[simp] theorem failJob_host_rate (f : FailedWork) (s : State) :
    (failJob f s).host.rate = s.host.rate := by
  unfold failJob; (repeat' split) <;> simp

@[simp] theorem enterFault_frame (f : FailedWork) (s : State) :
    (enterFault f s).links = s.links ∧
    (enterFault f s).formers = s.formers ∧
    (enterFault f s).seqCounter = s.seqCounter ∧
    (enterFault f s).floor = s.floor ∧
    (enterFault f s).flash = s.flash ∧
    (enterFault f s).dict = s.dict ∧
    (enterFault f s).trans = s.trans ∧
    (enterFault f s).script = s.script ∧
    (enterFault f s).feeds = s.feeds ∧
    (enterFault f s).fmt = s.fmt ∧
    (enterFault f s).ports = s.ports ∧
    (enterFault f s).settings = s.settings ∧
    (enterFault f s).pending = s.pending := by
  unfold enterFault; simp

@[simp] theorem enterFault_time_rate (f : FailedWork) (s : State) :
    (enterFault f s).time.rate = s.time.rate := by
  unfold enterFault; simp

@[simp] theorem enterFault_time_now (f : FailedWork) (s : State) :
    (enterFault f s).time.now = s.time.now := by
  unfold enterFault; simp

@[simp] theorem enterFault_host_phase (f : FailedWork) (s : State) :
    (enterFault f s).host.phase = s.host.phase := by
  unfold enterFault; simp

@[simp] theorem enterFault_host_replies (f : FailedWork) (s : State) :
    (enterFault f s).host.replies = s.host.replies := by
  unfold enterFault; simp

@[simp] theorem enterFault_host_rate (f : FailedWork) (s : State) :
    (enterFault f s).host.rate = s.host.rate := by
  unfold enterFault; simp

@[simp] theorem enterFault_log_flush (f : FailedWork) (s : State) :
    (enterFault f s).log.flush = s.log.flush := by
  unfold enterFault; simp

@[simp] theorem shiftLog_frame (s : State) :
    (shiftLog s).links = s.links ∧
    (shiftLog s).formers = s.formers ∧
    (shiftLog s).seqCounter = s.seqCounter ∧
    (shiftLog s).floor = s.floor ∧
    (shiftLog s).flash = s.flash ∧
    (shiftLog s).dict = s.dict ∧
    (shiftLog s).trans = s.trans ∧
    (shiftLog s).script = s.script ∧
    (shiftLog s).feeds = s.feeds ∧
    (shiftLog s).fmt = s.fmt ∧
    (shiftLog s).ports = s.ports ∧
    (shiftLog s).settings = s.settings ∧
    (shiftLog s).pending = s.pending := by
  unfold shiftLog; simp

@[simp] theorem shiftLog_time_rate (s : State) :
    (shiftLog s).time.rate = s.time.rate := by
  unfold shiftLog; simp

@[simp] theorem shiftLog_time_now (s : State) :
    (shiftLog s).time.now = s.time.now := by
  unfold shiftLog; simp

@[simp] theorem shiftLog_host_phase (s : State) :
    (shiftLog s).host.phase = s.host.phase := by
  unfold shiftLog; simp

@[simp] theorem shiftLog_host_replies (s : State) :
    (shiftLog s).host.replies = s.host.replies := by
  unfold shiftLog; simp

@[simp] theorem shiftLog_host_rate (s : State) :
    (shiftLog s).host.rate = s.host.rate := by
  unfold shiftLog; simp

@[simp] theorem shiftLog_log_flush (s : State) :
    (shiftLog s).log.flush = s.log.flush := by
  unfold shiftLog; simp

@[simp] theorem moveDict_frame (p : DictProg) (s : State) :
    (moveDict p s).links = s.links ∧
    (moveDict p s).formers = s.formers ∧
    (moveDict p s).seqCounter = s.seqCounter ∧
    (moveDict p s).floor = s.floor ∧
    (moveDict p s).time = s.time ∧
    (moveDict p s).flash = s.flash ∧
    (moveDict p s).log = s.log ∧
    (moveDict p s).dict = s.dict ∧
    (moveDict p s).trans = s.trans ∧
    (moveDict p s).script = s.script ∧
    (moveDict p s).feeds = s.feeds ∧
    (moveDict p s).fmt = s.fmt ∧
    (moveDict p s).ports = s.ports ∧
    (moveDict p s).host = s.host ∧
    (moveDict p s).conds = s.conds ∧
    (moveDict p s).settings = s.settings ∧
    (moveDict p s).pending = s.pending := by
  unfold moveDict; simp

@[simp] theorem countRelocation_frame (s : State) :
    (countRelocation s).links = s.links ∧
    (countRelocation s).formers = s.formers ∧
    (countRelocation s).seqCounter = s.seqCounter ∧
    (countRelocation s).floor = s.floor ∧
    (countRelocation s).time = s.time ∧
    (countRelocation s).flash = s.flash ∧
    (countRelocation s).log = s.log ∧
    (countRelocation s).dict = s.dict ∧
    (countRelocation s).trans = s.trans ∧
    (countRelocation s).script = s.script ∧
    (countRelocation s).feeds = s.feeds ∧
    (countRelocation s).fmt = s.fmt ∧
    (countRelocation s).ports = s.ports ∧
    (countRelocation s).host = s.host ∧
    (countRelocation s).conds = s.conds ∧
    (countRelocation s).settings = s.settings ∧
    (countRelocation s).pending = s.pending := by
  unfold countRelocation; simp

@[simp] theorem logFailed_frame (s : State) :
    (logFailed s).links = s.links ∧
    (logFailed s).formers = s.formers ∧
    (logFailed s).seqCounter = s.seqCounter ∧
    (logFailed s).floor = s.floor ∧
    (logFailed s).flash = s.flash ∧
    (logFailed s).dict = s.dict ∧
    (logFailed s).trans = s.trans ∧
    (logFailed s).script = s.script ∧
    (logFailed s).feeds = s.feeds ∧
    (logFailed s).fmt = s.fmt ∧
    (logFailed s).ports = s.ports ∧
    (logFailed s).settings = s.settings ∧
    (logFailed s).pending = s.pending := by
  unfold logFailed; (repeat' split) <;> simp

@[simp] theorem logFailed_time_rate (s : State) :
    (logFailed s).time.rate = s.time.rate := by
  unfold logFailed; (repeat' split) <;> simp

@[simp] theorem logFailed_time_now (s : State) :
    (logFailed s).time.now = s.time.now := by
  unfold logFailed; (repeat' split) <;> simp

@[simp] theorem logFailed_host_phase (s : State) :
    (logFailed s).host.phase = s.host.phase := by
  unfold logFailed; (repeat' split) <;> simp

@[simp] theorem logFailed_host_replies (s : State) :
    (logFailed s).host.replies = s.host.replies := by
  unfold logFailed; (repeat' split) <;> simp

@[simp] theorem logFailed_host_rate (s : State) :
    (logFailed s).host.rate = s.host.rate := by
  unfold logFailed; (repeat' split) <;> simp

@[simp] theorem logFailed_log_flush (s : State) :
    (logFailed s).log.flush = s.log.flush := by
  unfold logFailed; (repeat' split) <;> simp

@[simp] theorem dictFailed_frame (p : DictProg) (s : State) :
    (dictFailed p s).links = s.links ∧
    (dictFailed p s).formers = s.formers ∧
    (dictFailed p s).seqCounter = s.seqCounter ∧
    (dictFailed p s).floor = s.floor ∧
    (dictFailed p s).flash = s.flash ∧
    (dictFailed p s).dict = s.dict ∧
    (dictFailed p s).trans = s.trans ∧
    (dictFailed p s).script = s.script ∧
    (dictFailed p s).feeds = s.feeds ∧
    (dictFailed p s).fmt = s.fmt ∧
    (dictFailed p s).ports = s.ports ∧
    (dictFailed p s).settings = s.settings ∧
    (dictFailed p s).pending = s.pending := by
  unfold dictFailed; (repeat' split) <;> simp

@[simp] theorem dictFailed_time_rate (p : DictProg) (s : State) :
    (dictFailed p s).time.rate = s.time.rate := by
  unfold dictFailed; (repeat' split) <;> simp

@[simp] theorem dictFailed_time_now (p : DictProg) (s : State) :
    (dictFailed p s).time.now = s.time.now := by
  unfold dictFailed; (repeat' split) <;> simp

@[simp] theorem dictFailed_host_phase (p : DictProg) (s : State) :
    (dictFailed p s).host.phase = s.host.phase := by
  unfold dictFailed; (repeat' split) <;> simp

@[simp] theorem dictFailed_host_replies (p : DictProg) (s : State) :
    (dictFailed p s).host.replies = s.host.replies := by
  unfold dictFailed; (repeat' split) <;> simp

@[simp] theorem dictFailed_host_rate (p : DictProg) (s : State) :
    (dictFailed p s).host.rate = s.host.rate := by
  unfold dictFailed; (repeat' split) <;> simp

@[simp] theorem dictFailed_log_flush (p : DictProg) (s : State) :
    (dictFailed p s).log.flush = s.log.flush := by
  unfold dictFailed; (repeat' split) <;> simp

@[simp] theorem workFailed_frame (w : Work) (s : State) :
    (workFailed w s).links = s.links ∧
    (workFailed w s).formers = s.formers ∧
    (workFailed w s).seqCounter = s.seqCounter ∧
    (workFailed w s).floor = s.floor ∧
    (workFailed w s).flash = s.flash ∧
    (workFailed w s).dict = s.dict ∧
    (workFailed w s).trans = s.trans ∧
    (workFailed w s).script = s.script ∧
    (workFailed w s).feeds = s.feeds ∧
    (workFailed w s).fmt = s.fmt ∧
    (workFailed w s).ports = s.ports ∧
    (workFailed w s).settings = s.settings ∧
    (workFailed w s).pending = s.pending := by
  unfold workFailed; (repeat' split) <;> simp

@[simp] theorem workFailed_time_rate (w : Work) (s : State) :
    (workFailed w s).time.rate = s.time.rate := by
  unfold workFailed; (repeat' split) <;> simp

@[simp] theorem workFailed_time_now (w : Work) (s : State) :
    (workFailed w s).time.now = s.time.now := by
  unfold workFailed; (repeat' split) <;> simp

@[simp] theorem workFailed_host_phase (w : Work) (s : State) :
    (workFailed w s).host.phase = s.host.phase := by
  unfold workFailed; (repeat' split) <;> simp

@[simp] theorem workFailed_host_replies (w : Work) (s : State) :
    (workFailed w s).host.replies = s.host.replies := by
  unfold workFailed; (repeat' split) <;> simp

@[simp] theorem workFailed_host_rate (w : Work) (s : State) :
    (workFailed w s).host.rate = s.host.rate := by
  unfold workFailed; (repeat' split) <;> simp

@[simp] theorem workFailed_log_flush (w : Work) (s : State) :
    (workFailed w s).log.flush = s.log.flush := by
  unfold workFailed; (repeat' split) <;> simp

@[simp] theorem recovered_frame (s : State) :
    (recovered s).links = s.links ∧
    (recovered s).formers = s.formers ∧
    (recovered s).seqCounter = s.seqCounter ∧
    (recovered s).floor = s.floor ∧
    (recovered s).flash = s.flash ∧
    (recovered s).log = s.log ∧
    (recovered s).dict = s.dict ∧
    (recovered s).trans = s.trans ∧
    (recovered s).script = s.script ∧
    (recovered s).feeds = s.feeds ∧
    (recovered s).fmt = s.fmt ∧
    (recovered s).ports = s.ports ∧
    (recovered s).settings = s.settings ∧
    (recovered s).pending = s.pending := by
  unfold recovered; simp

@[simp] theorem recovered_time_rate (s : State) :
    (recovered s).time.rate = s.time.rate := by
  unfold recovered; simp

@[simp] theorem recovered_time_now (s : State) :
    (recovered s).time.now = s.time.now := by
  unfold recovered; simp

@[simp] theorem recovered_host_phase (s : State) :
    (recovered s).host.phase = s.host.phase := by
  unfold recovered; simp

@[simp] theorem recovered_host_replies (s : State) :
    (recovered s).host.replies = s.host.replies := by
  unfold recovered; simp

@[simp] theorem recovered_host_rate (s : State) :
    (recovered s).host.rate = s.host.rate := by
  unfold recovered; simp

@[simp] theorem flushProgress_frame (s : State) :
    (flushProgress s).links = s.links ∧
    (flushProgress s).formers = s.formers ∧
    (flushProgress s).seqCounter = s.seqCounter ∧
    (flushProgress s).floor = s.floor ∧
    (flushProgress s).flash = s.flash ∧
    (flushProgress s).store = s.store ∧
    (flushProgress s).dict = s.dict ∧
    (flushProgress s).trans = s.trans ∧
    (flushProgress s).script = s.script ∧
    (flushProgress s).feeds = s.feeds ∧
    (flushProgress s).fmt = s.fmt ∧
    (flushProgress s).ports = s.ports ∧
    (flushProgress s).settings = s.settings ∧
    (flushProgress s).pending = s.pending := by
  unfold flushProgress; (repeat' split) <;> simp

@[simp] theorem flushProgress_time_rate (s : State) :
    (flushProgress s).time.rate = s.time.rate := by
  unfold flushProgress; (repeat' split) <;> simp

@[simp] theorem flushProgress_time_now (s : State) :
    (flushProgress s).time.now = s.time.now := by
  unfold flushProgress; (repeat' split) <;> simp

@[simp] theorem flushProgress_host_phase (s : State) :
    (flushProgress s).host.phase = s.host.phase := by
  unfold flushProgress; (repeat' split) <;> simp

@[simp] theorem flushProgress_host_replies (s : State) :
    (flushProgress s).host.replies = s.host.replies := by
  unfold flushProgress; (repeat' split) <;> simp

@[simp] theorem flushProgress_host_rate (s : State) :
    (flushProgress s).host.rate = s.host.rate := by
  unfold flushProgress; (repeat' split) <;> simp

@[simp] theorem flushProgress_log_flush (s : State) :
    (flushProgress s).log.flush = s.log.flush := by
  unfold flushProgress; (repeat' split) <;> simp

@[simp] theorem logDone_frame (s : State) :
    (logDone s).links = s.links ∧
    (logDone s).formers = s.formers ∧
    (logDone s).seqCounter = s.seqCounter ∧
    (logDone s).floor = s.floor ∧
    (logDone s).flash = s.flash ∧
    (logDone s).dict = s.dict ∧
    (logDone s).trans = s.trans ∧
    (logDone s).script = s.script ∧
    (logDone s).feeds = s.feeds ∧
    (logDone s).fmt = s.fmt ∧
    (logDone s).ports = s.ports ∧
    (logDone s).settings = s.settings ∧
    (logDone s).pending = s.pending := by
  unfold logDone; simp

@[simp] theorem logDone_time_rate (s : State) :
    (logDone s).time.rate = s.time.rate := by
  unfold logDone; simp

@[simp] theorem logDone_time_now (s : State) :
    (logDone s).time.now = s.time.now := by
  unfold logDone; simp

@[simp] theorem logDone_host_phase (s : State) :
    (logDone s).host.phase = s.host.phase := by
  unfold logDone; simp

@[simp] theorem logDone_host_replies (s : State) :
    (logDone s).host.replies = s.host.replies := by
  unfold logDone; simp

@[simp] theorem logDone_host_rate (s : State) :
    (logDone s).host.rate = s.host.rate := by
  unfold logDone; simp

@[simp] theorem logDone_log_flush (s : State) :
    (logDone s).log.flush = s.log.flush := by
  unfold logDone; simp

@[simp] theorem dictDone_frame (p : DictProg) (s : State) :
    (dictDone p s).links = s.links ∧
    (dictDone p s).formers = s.formers ∧
    (dictDone p s).seqCounter = s.seqCounter ∧
    (dictDone p s).floor = s.floor ∧
    (dictDone p s).time = s.time ∧
    (dictDone p s).flash = s.flash ∧
    (dictDone p s).log = s.log ∧
    (dictDone p s).trans = s.trans ∧
    (dictDone p s).script = s.script ∧
    (dictDone p s).feeds = s.feeds ∧
    (dictDone p s).fmt = s.fmt ∧
    (dictDone p s).ports = s.ports ∧
    (dictDone p s).host = s.host ∧
    (dictDone p s).conds = s.conds ∧
    (dictDone p s).settings = s.settings ∧
    (dictDone p s).pending = s.pending := by
  unfold dictDone; (repeat' split) <;> simp

@[simp] theorem beginMount_frame (s : State) :
    (beginMount s).links = s.links ∧
    (beginMount s).formers = s.formers ∧
    (beginMount s).seqCounter = s.seqCounter ∧
    (beginMount s).floor = s.floor ∧
    (beginMount s).time = s.time ∧
    (beginMount s).flash = s.flash ∧
    (beginMount s).log = s.log ∧
    (beginMount s).dict = s.dict ∧
    (beginMount s).trans = s.trans ∧
    (beginMount s).script = s.script ∧
    (beginMount s).feeds = s.feeds ∧
    (beginMount s).fmt = s.fmt ∧
    (beginMount s).ports = s.ports ∧
    (beginMount s).host = s.host ∧
    (beginMount s).conds = s.conds ∧
    (beginMount s).settings = s.settings ∧
    (beginMount s).pending = s.pending := by
  unfold beginMount; simp

@[simp] theorem eraseDone_frame (d : Dict) (s : State) :
    (eraseDone d s).links = s.links ∧
    (eraseDone d s).formers = s.formers ∧
    (eraseDone d s).seqCounter = s.seqCounter ∧
    (eraseDone d s).floor = s.floor ∧
    (eraseDone d s).flash = s.flash ∧
    (eraseDone d s).log = s.log ∧
    (eraseDone d s).dict = s.dict ∧
    (eraseDone d s).trans = s.trans ∧
    (eraseDone d s).script = s.script ∧
    (eraseDone d s).feeds = s.feeds ∧
    (eraseDone d s).fmt = s.fmt ∧
    (eraseDone d s).ports = s.ports ∧
    (eraseDone d s).settings = s.settings ∧
    (eraseDone d s).pending = s.pending := by
  unfold eraseDone; simp

@[simp] theorem eraseDone_time_rate (d : Dict) (s : State) :
    (eraseDone d s).time.rate = s.time.rate := by
  unfold eraseDone; simp

@[simp] theorem eraseDone_time_now (d : Dict) (s : State) :
    (eraseDone d s).time.now = s.time.now := by
  unfold eraseDone; simp

@[simp] theorem eraseDone_host_phase (d : Dict) (s : State) :
    (eraseDone d s).host.phase = s.host.phase := by
  unfold eraseDone; simp

@[simp] theorem eraseDone_host_replies (d : Dict) (s : State) :
    (eraseDone d s).host.replies = s.host.replies := by
  unfold eraseDone; simp

@[simp] theorem eraseDone_host_rate (d : Dict) (s : State) :
    (eraseDone d s).host.rate = s.host.rate := by
  unfold eraseDone; simp

@[simp] theorem jobDone_frame (s : State) :
    (jobDone s).links = s.links ∧
    (jobDone s).formers = s.formers ∧
    (jobDone s).seqCounter = s.seqCounter ∧
    (jobDone s).floor = s.floor ∧
    (jobDone s).flash = s.flash ∧
    (jobDone s).log = s.log ∧
    (jobDone s).dict = s.dict ∧
    (jobDone s).trans = s.trans ∧
    (jobDone s).script = s.script ∧
    (jobDone s).feeds = s.feeds ∧
    (jobDone s).fmt = s.fmt ∧
    (jobDone s).ports = s.ports ∧
    (jobDone s).settings = s.settings ∧
    (jobDone s).pending = s.pending := by
  unfold jobDone; dsimp only; (repeat' split) <;> simp

@[simp] theorem jobDone_time_rate (s : State) :
    (jobDone s).time.rate = s.time.rate := by
  unfold jobDone; dsimp only; (repeat' split) <;> simp

@[simp] theorem jobDone_time_now (s : State) :
    (jobDone s).time.now = s.time.now := by
  unfold jobDone; dsimp only; (repeat' split) <;> simp

@[simp] theorem jobDone_host_phase (s : State) :
    (jobDone s).host.phase = s.host.phase := by
  unfold jobDone; dsimp only; (repeat' split) <;> simp

@[simp] theorem jobDone_host_replies (s : State) :
    (jobDone s).host.replies = s.host.replies := by
  unfold jobDone; dsimp only; (repeat' split) <;> simp

@[simp] theorem jobDone_host_rate (s : State) :
    (jobDone s).host.rate = s.host.rate := by
  unfold jobDone; dsimp only; (repeat' split) <;> simp

@[simp] theorem workDone_frame (w : Work) (s : State) :
    (workDone w s).links = s.links ∧
    (workDone w s).formers = s.formers ∧
    (workDone w s).seqCounter = s.seqCounter ∧
    (workDone w s).floor = s.floor ∧
    (workDone w s).flash = s.flash ∧
    (workDone w s).trans = s.trans ∧
    (workDone w s).script = s.script ∧
    (workDone w s).feeds = s.feeds ∧
    (workDone w s).fmt = s.fmt ∧
    (workDone w s).ports = s.ports ∧
    (workDone w s).settings = s.settings ∧
    (workDone w s).pending = s.pending := by
  unfold workDone; dsimp only; (repeat' split) <;> simp

@[simp] theorem workDone_time_rate (w : Work) (s : State) :
    (workDone w s).time.rate = s.time.rate := by
  unfold workDone; dsimp only; (repeat' split) <;> simp

@[simp] theorem workDone_time_now (w : Work) (s : State) :
    (workDone w s).time.now = s.time.now := by
  unfold workDone; dsimp only; (repeat' split) <;> simp

@[simp] theorem workDone_host_phase (w : Work) (s : State) :
    (workDone w s).host.phase = s.host.phase := by
  unfold workDone; dsimp only; (repeat' split) <;> simp

@[simp] theorem workDone_host_replies (w : Work) (s : State) :
    (workDone w s).host.replies = s.host.replies := by
  unfold workDone; dsimp only; (repeat' split) <;> simp

@[simp] theorem workDone_host_rate (w : Work) (s : State) :
    (workDone w s).host.rate = s.host.rate := by
  unfold workDone; dsimp only; (repeat' split) <;> simp

@[simp] theorem workDone_log_flush (w : Work) (s : State) :
    (workDone w s).log.flush = s.log.flush := by
  unfold workDone; dsimp only; (repeat' split) <;> simp

@[simp] theorem clearOp_frame (r : Running) (error : Bool) (left : List Host.Cell) (s : State) :
    (clearOp r error left s).links = s.links ∧
    (clearOp r error left s).formers = s.formers ∧
    (clearOp r error left s).seqCounter = s.seqCounter ∧
    (clearOp r error left s).floor = s.floor ∧
    (clearOp r error left s).time = s.time ∧
    (clearOp r error left s).log = s.log ∧
    (clearOp r error left s).dict = s.dict ∧
    (clearOp r error left s).trans = s.trans ∧
    (clearOp r error left s).script = s.script ∧
    (clearOp r error left s).feeds = s.feeds ∧
    (clearOp r error left s).fmt = s.fmt ∧
    (clearOp r error left s).ports = s.ports ∧
    (clearOp r error left s).host = s.host ∧
    (clearOp r error left s).conds = s.conds ∧
    (clearOp r error left s).settings = s.settings ∧
    (clearOp r error left s).pending = s.pending := by
  unfold clearOp; simp

@[simp] theorem opEnded_frame (r : Running) (error : Bool) (left : List Host.Cell) (s : State) :
    (opEnded r error left s).links = s.links ∧
    (opEnded r error left s).formers = s.formers ∧
    (opEnded r error left s).seqCounter = s.seqCounter ∧
    (opEnded r error left s).floor = s.floor ∧
    (opEnded r error left s).trans = s.trans ∧
    (opEnded r error left s).script = s.script ∧
    (opEnded r error left s).feeds = s.feeds ∧
    (opEnded r error left s).fmt = s.fmt ∧
    (opEnded r error left s).ports = s.ports ∧
    (opEnded r error left s).settings = s.settings ∧
    (opEnded r error left s).pending = s.pending := by
  unfold opEnded; (repeat' split) <;> simp

@[simp] theorem opEnded_time_rate (r : Running) (error : Bool) (left : List Host.Cell) (s : State) :
    (opEnded r error left s).time.rate = s.time.rate := by
  unfold opEnded; (repeat' split) <;> simp

@[simp] theorem opEnded_time_now (r : Running) (error : Bool) (left : List Host.Cell) (s : State) :
    (opEnded r error left s).time.now = s.time.now := by
  unfold opEnded; (repeat' split) <;> simp

@[simp] theorem opEnded_host_phase (r : Running) (error : Bool) (left : List Host.Cell) (s : State) :
    (opEnded r error left s).host.phase = s.host.phase := by
  unfold opEnded; (repeat' split) <;> simp

@[simp] theorem opEnded_host_replies (r : Running) (error : Bool) (left : List Host.Cell) (s : State) :
    (opEnded r error left s).host.replies = s.host.replies := by
  unfold opEnded; (repeat' split) <;> simp

@[simp] theorem opEnded_host_rate (r : Running) (error : Bool) (left : List Host.Cell) (s : State) :
    (opEnded r error left s).host.rate = s.host.rate := by
  unfold opEnded; (repeat' split) <;> simp

@[simp] theorem opEnded_log_flush (r : Running) (error : Bool) (left : List Host.Cell) (s : State) :
    (opEnded r error left s).log.flush = s.log.flush := by
  unfold opEnded; (repeat' split) <;> simp

@[simp] theorem runOpTo_frame (limit : ℕ) (ran : ℕ) (s : State) :
    (runOpTo limit ran s).links = s.links ∧
    (runOpTo limit ran s).formers = s.formers ∧
    (runOpTo limit ran s).seqCounter = s.seqCounter ∧
    (runOpTo limit ran s).floor = s.floor ∧
    (runOpTo limit ran s).flash = s.flash ∧
    (runOpTo limit ran s).log = s.log ∧
    (runOpTo limit ran s).dict = s.dict ∧
    (runOpTo limit ran s).script = s.script ∧
    (runOpTo limit ran s).feeds = s.feeds ∧
    (runOpTo limit ran s).fmt = s.fmt ∧
    (runOpTo limit ran s).ports = s.ports ∧
    (runOpTo limit ran s).host = s.host ∧
    (runOpTo limit ran s).conds = s.conds ∧
    (runOpTo limit ran s).settings = s.settings ∧
    (runOpTo limit ran s).pending = s.pending := by
  unfold runOpTo; (repeat' split) <;> simp

@[simp] theorem runOpTo_time_rate (limit : ℕ) (ran : ℕ) (s : State) :
    (runOpTo limit ran s).time.rate = s.time.rate := by
  unfold runOpTo; (repeat' split) <;> simp

@[simp] theorem stillBusy_frame (r : Running) (s : State) :
    (stillBusy r s).links = s.links ∧
    (stillBusy r s).formers = s.formers ∧
    (stillBusy r s).seqCounter = s.seqCounter ∧
    (stillBusy r s).floor = s.floor ∧
    (stillBusy r s).flash = s.flash ∧
    (stillBusy r s).dict = s.dict ∧
    (stillBusy r s).trans = s.trans ∧
    (stillBusy r s).script = s.script ∧
    (stillBusy r s).feeds = s.feeds ∧
    (stillBusy r s).fmt = s.fmt ∧
    (stillBusy r s).ports = s.ports ∧
    (stillBusy r s).settings = s.settings ∧
    (stillBusy r s).pending = s.pending := by
  unfold stillBusy; (repeat' split) <;> simp

@[simp] theorem stillBusy_time_rate (r : Running) (s : State) :
    (stillBusy r s).time.rate = s.time.rate := by
  unfold stillBusy; (repeat' split) <;> simp

@[simp] theorem stillBusy_time_now (r : Running) (s : State) :
    (stillBusy r s).time.now = s.time.now := by
  unfold stillBusy; (repeat' split) <;> simp

@[simp] theorem stillBusy_host_phase (r : Running) (s : State) :
    (stillBusy r s).host.phase = s.host.phase := by
  unfold stillBusy; (repeat' split) <;> simp

@[simp] theorem stillBusy_host_replies (r : Running) (s : State) :
    (stillBusy r s).host.replies = s.host.replies := by
  unfold stillBusy; (repeat' split) <;> simp

@[simp] theorem stillBusy_host_rate (r : Running) (s : State) :
    (stillBusy r s).host.rate = s.host.rate := by
  unfold stillBusy; (repeat' split) <;> simp

@[simp] theorem stillBusy_log_flush (r : Running) (s : State) :
    (stillBusy r s).log.flush = s.log.flush := by
  unfold stillBusy; (repeat' split) <;> simp

@[simp] theorem mountDict_frame (d : Dict) (s : State) :
    (mountDict d s).links = s.links ∧
    (mountDict d s).formers = s.formers ∧
    (mountDict d s).seqCounter = s.seqCounter ∧
    (mountDict d s).floor = s.floor ∧
    (mountDict d s).time = s.time ∧
    (mountDict d s).flash = s.flash ∧
    (mountDict d s).log = s.log ∧
    (mountDict d s).trans = s.trans ∧
    (mountDict d s).script = s.script ∧
    (mountDict d s).feeds = s.feeds ∧
    (mountDict d s).fmt = s.fmt ∧
    (mountDict d s).ports = s.ports ∧
    (mountDict d s).host = s.host ∧
    (mountDict d s).conds = s.conds ∧
    (mountDict d s).settings = s.settings ∧
    (mountDict d s).pending = s.pending := by
  unfold mountDict; (repeat' split) <;> simp

@[simp] theorem mountLog_frame (s : State) :
    (mountLog s).links = s.links ∧
    (mountLog s).formers = s.formers ∧
    (mountLog s).seqCounter = s.seqCounter ∧
    (mountLog s).floor = s.floor ∧
    (mountLog s).flash = s.flash ∧
    (mountLog s).log = s.log ∧
    (mountLog s).dict = s.dict ∧
    (mountLog s).trans = s.trans ∧
    (mountLog s).script = s.script ∧
    (mountLog s).feeds = s.feeds ∧
    (mountLog s).fmt = s.fmt ∧
    (mountLog s).ports = s.ports ∧
    (mountLog s).settings = s.settings ∧
    (mountLog s).pending = s.pending := by
  unfold mountLog; simp

@[simp] theorem mountLog_time_rate (s : State) :
    (mountLog s).time.rate = s.time.rate := by
  unfold mountLog; simp

@[simp] theorem mountLog_time_now (s : State) :
    (mountLog s).time.now = s.time.now := by
  unfold mountLog; simp

@[simp] theorem mountLog_host_phase (s : State) :
    (mountLog s).host.phase = s.host.phase := by
  unfold mountLog; simp

@[simp] theorem mountLog_host_replies (s : State) :
    (mountLog s).host.replies = s.host.replies := by
  unfold mountLog; simp

@[simp] theorem mountLog_host_rate (s : State) :
    (mountLog s).host.rate = s.host.rate := by
  unfold mountLog; simp

@[simp] theorem mountNext_frame (p : MountPhase) (s : State) :
    (mountNext p s).links = s.links ∧
    (mountNext p s).formers = s.formers ∧
    (mountNext p s).seqCounter = s.seqCounter ∧
    (mountNext p s).floor = s.floor ∧
    (mountNext p s).time = s.time ∧
    (mountNext p s).flash = s.flash ∧
    (mountNext p s).log = s.log ∧
    (mountNext p s).dict = s.dict ∧
    (mountNext p s).trans = s.trans ∧
    (mountNext p s).script = s.script ∧
    (mountNext p s).feeds = s.feeds ∧
    (mountNext p s).fmt = s.fmt ∧
    (mountNext p s).ports = s.ports ∧
    (mountNext p s).host = s.host ∧
    (mountNext p s).conds = s.conds ∧
    (mountNext p s).settings = s.settings ∧
    (mountNext p s).pending = s.pending := by
  unfold mountNext; simp

@[simp] theorem mountFails_frame (s : State) :
    (mountFails s).links = s.links ∧
    (mountFails s).formers = s.formers ∧
    (mountFails s).seqCounter = s.seqCounter ∧
    (mountFails s).floor = s.floor ∧
    (mountFails s).flash = s.flash ∧
    (mountFails s).log = s.log ∧
    (mountFails s).dict = s.dict ∧
    (mountFails s).trans = s.trans ∧
    (mountFails s).script = s.script ∧
    (mountFails s).feeds = s.feeds ∧
    (mountFails s).fmt = s.fmt ∧
    (mountFails s).ports = s.ports ∧
    (mountFails s).settings = s.settings ∧
    (mountFails s).pending = s.pending := by
  unfold mountFails; simp

@[simp] theorem mountFails_time_rate (s : State) :
    (mountFails s).time.rate = s.time.rate := by
  unfold mountFails; simp

@[simp] theorem mountFails_time_now (s : State) :
    (mountFails s).time.now = s.time.now := by
  unfold mountFails; simp

@[simp] theorem mountFails_host_phase (s : State) :
    (mountFails s).host.phase = s.host.phase := by
  unfold mountFails; simp

@[simp] theorem mountFails_host_replies (s : State) :
    (mountFails s).host.replies = s.host.replies := by
  unfold mountFails; simp

@[simp] theorem mountFails_host_rate (s : State) :
    (mountFails s).host.rate = s.host.rate := by
  unfold mountFails; simp

@[simp] theorem mountHeader_frame (s : State) :
    (mountHeader s).links = s.links ∧
    (mountHeader s).formers = s.formers ∧
    (mountHeader s).seqCounter = s.seqCounter ∧
    (mountHeader s).floor = s.floor ∧
    (mountHeader s).flash = s.flash ∧
    (mountHeader s).log = s.log ∧
    (mountHeader s).trans = s.trans ∧
    (mountHeader s).script = s.script ∧
    (mountHeader s).feeds = s.feeds ∧
    (mountHeader s).fmt = s.fmt ∧
    (mountHeader s).ports = s.ports ∧
    (mountHeader s).settings = s.settings ∧
    (mountHeader s).pending = s.pending := by
  unfold mountHeader; (repeat' split) <;> simp

@[simp] theorem mountHeader_time_rate (s : State) :
    (mountHeader s).time.rate = s.time.rate := by
  unfold mountHeader; (repeat' split) <;> simp

@[simp] theorem mountHeader_time_now (s : State) :
    (mountHeader s).time.now = s.time.now := by
  unfold mountHeader; (repeat' split) <;> simp

@[simp] theorem mountHeader_host_phase (s : State) :
    (mountHeader s).host.phase = s.host.phase := by
  unfold mountHeader; (repeat' split) <;> simp

@[simp] theorem mountHeader_host_replies (s : State) :
    (mountHeader s).host.replies = s.host.replies := by
  unfold mountHeader; (repeat' split) <;> simp

@[simp] theorem mountHeader_host_rate (s : State) :
    (mountHeader s).host.rate = s.host.rate := by
  unfold mountHeader; (repeat' split) <;> simp

@[simp] theorem mountRead_frame (s : State) :
    (mountRead s).links = s.links ∧
    (mountRead s).formers = s.formers ∧
    (mountRead s).seqCounter = s.seqCounter ∧
    (mountRead s).floor = s.floor ∧
    (mountRead s).flash = s.flash ∧
    (mountRead s).log = s.log ∧
    (mountRead s).trans = s.trans ∧
    (mountRead s).script = s.script ∧
    (mountRead s).feeds = s.feeds ∧
    (mountRead s).fmt = s.fmt ∧
    (mountRead s).ports = s.ports ∧
    (mountRead s).settings = s.settings ∧
    (mountRead s).pending = s.pending := by
  unfold mountRead; (repeat' split) <;> simp

@[simp] theorem mountRead_time_rate (s : State) :
    (mountRead s).time.rate = s.time.rate := by
  unfold mountRead; (repeat' split) <;> simp

@[simp] theorem mountRead_time_now (s : State) :
    (mountRead s).time.now = s.time.now := by
  unfold mountRead; (repeat' split) <;> simp

@[simp] theorem mountRead_host_phase (s : State) :
    (mountRead s).host.phase = s.host.phase := by
  unfold mountRead; (repeat' split) <;> simp

@[simp] theorem mountRead_host_replies (s : State) :
    (mountRead s).host.replies = s.host.replies := by
  unfold mountRead; (repeat' split) <;> simp

@[simp] theorem mountRead_host_rate (s : State) :
    (mountRead s).host.rate = s.host.rate := by
  unfold mountRead; (repeat' split) <;> simp

@[simp] theorem logReadDone_frame (q : LogReading) (s : State) :
    (logReadDone q s).links = s.links ∧
    (logReadDone q s).formers = s.formers ∧
    (logReadDone q s).seqCounter = s.seqCounter ∧
    (logReadDone q s).floor = s.floor ∧
    (logReadDone q s).flash = s.flash ∧
    (logReadDone q s).log = s.log ∧
    (logReadDone q s).dict = s.dict ∧
    (logReadDone q s).trans = s.trans ∧
    (logReadDone q s).script = s.script ∧
    (logReadDone q s).feeds = s.feeds ∧
    (logReadDone q s).fmt = s.fmt ∧
    (logReadDone q s).ports = s.ports ∧
    (logReadDone q s).settings = s.settings ∧
    (logReadDone q s).pending = s.pending := by
  unfold logReadDone; simp

@[simp] theorem logReadDone_time_rate (q : LogReading) (s : State) :
    (logReadDone q s).time.rate = s.time.rate := by
  unfold logReadDone; simp

@[simp] theorem logReadDone_time_now (q : LogReading) (s : State) :
    (logReadDone q s).time.now = s.time.now := by
  unfold logReadDone; simp

@[simp] theorem logReadDone_host_phase (q : LogReading) (s : State) :
    (logReadDone q s).host.phase = s.host.phase := by
  unfold logReadDone; simp

@[simp] theorem logReadDone_host_replies (q : LogReading) (s : State) :
    (logReadDone q s).host.replies = s.host.replies := by
  unfold logReadDone; simp

@[simp] theorem logReadDone_host_rate (q : LogReading) (s : State) :
    (logReadDone q s).host.rate = s.host.rate := by
  unfold logReadDone; simp

@[simp] theorem logReadOn_frame (x0 : ℕ) (x1 : LogReading) (x2 : State) :
    (logReadOn x0 x1 x2).links = x2.links ∧
    (logReadOn x0 x1 x2).formers = x2.formers ∧
    (logReadOn x0 x1 x2).seqCounter = x2.seqCounter ∧
    (logReadOn x0 x1 x2).floor = x2.floor ∧
    (logReadOn x0 x1 x2).flash = x2.flash ∧
    (logReadOn x0 x1 x2).log = x2.log ∧
    (logReadOn x0 x1 x2).dict = x2.dict ∧
    (logReadOn x0 x1 x2).trans = x2.trans ∧
    (logReadOn x0 x1 x2).script = x2.script ∧
    (logReadOn x0 x1 x2).feeds = x2.feeds ∧
    (logReadOn x0 x1 x2).fmt = x2.fmt ∧
    (logReadOn x0 x1 x2).ports = x2.ports ∧
    (logReadOn x0 x1 x2).settings = x2.settings ∧
    (logReadOn x0 x1 x2).pending = x2.pending := by
  fun_induction logReadOn x0 x1 x2 <;> (try simp_all) <;> (try (split <;> simp_all)) <;> (try (split <;> simp_all))

@[simp] theorem logReadOn_time_rate (x0 : ℕ) (x1 : LogReading) (x2 : State) :
    (logReadOn x0 x1 x2).time.rate = x2.time.rate := by
  fun_induction logReadOn x0 x1 x2 <;> (try simp_all) <;> (try (split <;> simp_all)) <;> (try (split <;> simp_all))

@[simp] theorem logReadOn_time_now (x0 : ℕ) (x1 : LogReading) (x2 : State) :
    (logReadOn x0 x1 x2).time.now = x2.time.now := by
  fun_induction logReadOn x0 x1 x2 <;> (try simp_all) <;> (try (split <;> simp_all)) <;> (try (split <;> simp_all))

@[simp] theorem logReadOn_host_phase (x0 : ℕ) (x1 : LogReading) (x2 : State) :
    (logReadOn x0 x1 x2).host.phase = x2.host.phase := by
  fun_induction logReadOn x0 x1 x2 <;> (try simp_all) <;> (try (split <;> simp_all)) <;> (try (split <;> simp_all))

@[simp] theorem logReadOn_host_replies (x0 : ℕ) (x1 : LogReading) (x2 : State) :
    (logReadOn x0 x1 x2).host.replies = x2.host.replies := by
  fun_induction logReadOn x0 x1 x2 <;> (try simp_all) <;> (try (split <;> simp_all)) <;> (try (split <;> simp_all))

@[simp] theorem logReadOn_host_rate (x0 : ℕ) (x1 : LogReading) (x2 : State) :
    (logReadOn x0 x1 x2).host.rate = x2.host.rate := by
  fun_induction logReadOn x0 x1 x2 <;> (try simp_all) <;> (try (split <;> simp_all)) <;> (try (split <;> simp_all))

@[simp] theorem logReadPage_frame (s : State) :
    (logReadPage s).links = s.links ∧
    (logReadPage s).formers = s.formers ∧
    (logReadPage s).seqCounter = s.seqCounter ∧
    (logReadPage s).floor = s.floor ∧
    (logReadPage s).flash = s.flash ∧
    (logReadPage s).log = s.log ∧
    (logReadPage s).dict = s.dict ∧
    (logReadPage s).trans = s.trans ∧
    (logReadPage s).script = s.script ∧
    (logReadPage s).feeds = s.feeds ∧
    (logReadPage s).fmt = s.fmt ∧
    (logReadPage s).ports = s.ports ∧
    (logReadPage s).settings = s.settings ∧
    (logReadPage s).pending = s.pending := by
  unfold logReadPage; (repeat' split) <;> simp

@[simp] theorem logReadPage_time_rate (s : State) :
    (logReadPage s).time.rate = s.time.rate := by
  unfold logReadPage; (repeat' split) <;> simp

@[simp] theorem logReadPage_time_now (s : State) :
    (logReadPage s).time.now = s.time.now := by
  unfold logReadPage; (repeat' split) <;> simp

@[simp] theorem logReadPage_host_phase (s : State) :
    (logReadPage s).host.phase = s.host.phase := by
  unfold logReadPage; (repeat' split) <;> simp

@[simp] theorem logReadPage_host_replies (s : State) :
    (logReadPage s).host.replies = s.host.replies := by
  unfold logReadPage; (repeat' split) <;> simp

@[simp] theorem logReadPage_host_rate (s : State) :
    (logReadPage s).host.rate = s.host.rate := by
  unfold logReadPage; (repeat' split) <;> simp

@[simp] theorem readEnded_frame (r : ReadFor) (s : State) :
    (readEnded r s).links = s.links ∧
    (readEnded r s).formers = s.formers ∧
    (readEnded r s).seqCounter = s.seqCounter ∧
    (readEnded r s).flash = s.flash ∧
    (readEnded r s).fmt = s.fmt ∧
    (readEnded r s).ports = s.ports ∧
    (readEnded r s).settings = s.settings ∧
    (readEnded r s).pending = s.pending := by
  unfold readEnded; (repeat' split) <;> simp

@[simp] theorem readEnded_time_rate (r : ReadFor) (s : State) :
    (readEnded r s).time.rate = s.time.rate := by
  unfold readEnded; (repeat' split) <;> simp

@[simp] theorem readEnded_time_now (r : ReadFor) (s : State) :
    (readEnded r s).time.now = s.time.now := by
  unfold readEnded; (repeat' split) <;> simp

@[simp] theorem readEnded_host_phase (r : ReadFor) (s : State) :
    (readEnded r s).host.phase = s.host.phase := by
  unfold readEnded; (repeat' split) <;> simp

@[simp] theorem readEnded_host_replies (r : ReadFor) (s : State) :
    (readEnded r s).host.replies = s.host.replies := by
  unfold readEnded; (repeat' split) <;> simp

@[simp] theorem readEnded_host_rate (r : ReadFor) (s : State) :
    (readEnded r s).host.rate = s.host.rate := by
  unfold readEnded; (repeat' split) <;> simp

@[simp] theorem readEnded_script_session (r : ReadFor) (s : State) :
    (readEnded r s).script.session = s.script.session := by
  unfold readEnded; (repeat' split) <;> simp

@[simp] theorem retryWork_frame (f : FailedWork) (s : State) :
    (retryWork f s).links = s.links ∧
    (retryWork f s).formers = s.formers ∧
    (retryWork f s).seqCounter = s.seqCounter ∧
    (retryWork f s).floor = s.floor ∧
    (retryWork f s).flash = s.flash ∧
    (retryWork f s).dict = s.dict ∧
    (retryWork f s).trans = s.trans ∧
    (retryWork f s).script = s.script ∧
    (retryWork f s).feeds = s.feeds ∧
    (retryWork f s).fmt = s.fmt ∧
    (retryWork f s).ports = s.ports ∧
    (retryWork f s).settings = s.settings ∧
    (retryWork f s).pending = s.pending := by
  unfold retryWork; (repeat' split) <;> simp

@[simp] theorem retryWork_time_rate (f : FailedWork) (s : State) :
    (retryWork f s).time.rate = s.time.rate := by
  unfold retryWork; (repeat' split) <;> simp

@[simp] theorem retryWork_time_now (f : FailedWork) (s : State) :
    (retryWork f s).time.now = s.time.now := by
  unfold retryWork; (repeat' split) <;> simp

@[simp] theorem retryWork_host_phase (f : FailedWork) (s : State) :
    (retryWork f s).host.phase = s.host.phase := by
  unfold retryWork; (repeat' split) <;> simp

@[simp] theorem retryWork_host_replies (f : FailedWork) (s : State) :
    (retryWork f s).host.replies = s.host.replies := by
  unfold retryWork; (repeat' split) <;> simp

@[simp] theorem retryWork_host_rate (f : FailedWork) (s : State) :
    (retryWork f s).host.rate = s.host.rate := by
  unfold retryWork; (repeat' split) <;> simp

@[simp] theorem retryWork_log_flush (f : FailedWork) (s : State) :
    (retryWork f s).log.flush = s.log.flush := by
  unfold retryWork; (repeat' split) <;> simp

@[simp] theorem storeRecoverRule_frame (tag : Byte) (s : State) :
    (storeRecoverRule tag s).1.links = s.links ∧
    (storeRecoverRule tag s).1.formers = s.formers ∧
    (storeRecoverRule tag s).1.seqCounter = s.seqCounter ∧
    (storeRecoverRule tag s).1.floor = s.floor ∧
    (storeRecoverRule tag s).1.flash = s.flash ∧
    (storeRecoverRule tag s).1.dict = s.dict ∧
    (storeRecoverRule tag s).1.trans = s.trans ∧
    (storeRecoverRule tag s).1.script = s.script ∧
    (storeRecoverRule tag s).1.feeds = s.feeds ∧
    (storeRecoverRule tag s).1.fmt = s.fmt ∧
    (storeRecoverRule tag s).1.ports = s.ports ∧
    (storeRecoverRule tag s).1.settings = s.settings ∧
    (storeRecoverRule tag s).1.pending = s.pending := by
  unfold storeRecoverRule; dsimp only; (repeat' split) <;> simp

@[simp] theorem storeRecoverRule_time_rate (tag : Byte) (s : State) :
    (storeRecoverRule tag s).1.time.rate = s.time.rate := by
  unfold storeRecoverRule; dsimp only; (repeat' split) <;> simp

@[simp] theorem storeRecoverRule_time_now (tag : Byte) (s : State) :
    (storeRecoverRule tag s).1.time.now = s.time.now := by
  unfold storeRecoverRule; dsimp only; (repeat' split) <;> simp

@[simp] theorem storeRecoverRule_host_phase (tag : Byte) (s : State) :
    (storeRecoverRule tag s).1.host.phase = s.host.phase := by
  unfold storeRecoverRule; dsimp only; (repeat' split) <;> simp

@[simp] theorem storeRecoverRule_host_replies (tag : Byte) (s : State) :
    (storeRecoverRule tag s).1.host.replies = s.host.replies := by
  unfold storeRecoverRule; dsimp only; (repeat' split) <;> simp

@[simp] theorem storeRecoverRule_host_rate (tag : Byte) (s : State) :
    (storeRecoverRule tag s).1.host.rate = s.host.rate := by
  unfold storeRecoverRule; dsimp only; (repeat' split) <;> simp

@[simp] theorem storeRecoverRule_log_flush (tag : Byte) (s : State) :
    (storeRecoverRule tag s).1.log.flush = s.log.flush := by
  unfold storeRecoverRule; dsimp only; (repeat' split) <;> simp

@[simp] theorem failLogRead_frame (s : State) :
    (failLogRead s).links = s.links ∧
    (failLogRead s).formers = s.formers ∧
    (failLogRead s).seqCounter = s.seqCounter ∧
    (failLogRead s).floor = s.floor ∧
    (failLogRead s).flash = s.flash ∧
    (failLogRead s).log = s.log ∧
    (failLogRead s).dict = s.dict ∧
    (failLogRead s).trans = s.trans ∧
    (failLogRead s).script = s.script ∧
    (failLogRead s).feeds = s.feeds ∧
    (failLogRead s).fmt = s.fmt ∧
    (failLogRead s).ports = s.ports ∧
    (failLogRead s).settings = s.settings ∧
    (failLogRead s).pending = s.pending := by
  unfold failLogRead; (repeat' split) <;> simp

@[simp] theorem failLogRead_time_rate (s : State) :
    (failLogRead s).time.rate = s.time.rate := by
  unfold failLogRead; (repeat' split) <;> simp

@[simp] theorem failLogRead_time_now (s : State) :
    (failLogRead s).time.now = s.time.now := by
  unfold failLogRead; (repeat' split) <;> simp

@[simp] theorem failLogRead_host_phase (s : State) :
    (failLogRead s).host.phase = s.host.phase := by
  unfold failLogRead; (repeat' split) <;> simp

@[simp] theorem failLogRead_host_replies (s : State) :
    (failLogRead s).host.replies = s.host.replies := by
  unfold failLogRead; (repeat' split) <;> simp

@[simp] theorem failLogRead_host_rate (s : State) :
    (failLogRead s).host.rate = s.host.rate := by
  unfold failLogRead; (repeat' split) <;> simp

@[simp] theorem takeFormat_frame (tag : Byte) (p : Bytes) (s : State) :
    (takeFormat tag p s).links = s.links ∧
    (takeFormat tag p s).formers = s.formers ∧
    (takeFormat tag p s).seqCounter = s.seqCounter ∧
    (takeFormat tag p s).flash = s.flash ∧
    (takeFormat tag p s).fmt = s.fmt ∧
    (takeFormat tag p s).ports = s.ports ∧
    (takeFormat tag p s).settings = s.settings ∧
    (takeFormat tag p s).pending = s.pending := by
  unfold takeFormat; simp

@[simp] theorem takeFormat_time_rate (tag : Byte) (p : Bytes) (s : State) :
    (takeFormat tag p s).time.rate = s.time.rate := by
  unfold takeFormat; simp

@[simp] theorem takeFormat_time_now (tag : Byte) (p : Bytes) (s : State) :
    (takeFormat tag p s).time.now = s.time.now := by
  unfold takeFormat; simp

@[simp] theorem takeFormat_host_phase (tag : Byte) (p : Bytes) (s : State) :
    (takeFormat tag p s).host.phase = s.host.phase := by
  unfold takeFormat; simp

@[simp] theorem takeFormat_host_replies (tag : Byte) (p : Bytes) (s : State) :
    (takeFormat tag p s).host.replies = s.host.replies := by
  unfold takeFormat; simp

@[simp] theorem takeFormat_host_rate (tag : Byte) (p : Bytes) (s : State) :
    (takeFormat tag p s).host.rate = s.host.rate := by
  unfold takeFormat; simp

@[simp] theorem takeFormat_script_session (tag : Byte) (p : Bytes) (s : State) :
    (takeFormat tag p s).script.session = s.script.session := by
  unfold takeFormat; simp

@[simp] theorem formatRule_frame (tag : Byte) (p : Bytes) (s : State) :
    (formatRule tag p s).1.links = s.links ∧
    (formatRule tag p s).1.formers = s.formers ∧
    (formatRule tag p s).1.seqCounter = s.seqCounter ∧
    (formatRule tag p s).1.flash = s.flash ∧
    (formatRule tag p s).1.fmt = s.fmt ∧
    (formatRule tag p s).1.ports = s.ports ∧
    (formatRule tag p s).1.settings = s.settings ∧
    (formatRule tag p s).1.pending = s.pending := by
  unfold formatRule; (repeat' split) <;> simp

@[simp] theorem formatRule_time_rate (tag : Byte) (p : Bytes) (s : State) :
    (formatRule tag p s).1.time.rate = s.time.rate := by
  unfold formatRule; (repeat' split) <;> simp

@[simp] theorem formatRule_time_now (tag : Byte) (p : Bytes) (s : State) :
    (formatRule tag p s).1.time.now = s.time.now := by
  unfold formatRule; (repeat' split) <;> simp

@[simp] theorem formatRule_host_phase (tag : Byte) (p : Bytes) (s : State) :
    (formatRule tag p s).1.host.phase = s.host.phase := by
  unfold formatRule; (repeat' split) <;> simp

@[simp] theorem formatRule_host_replies (tag : Byte) (p : Bytes) (s : State) :
    (formatRule tag p s).1.host.replies = s.host.replies := by
  unfold formatRule; (repeat' split) <;> simp

@[simp] theorem formatRule_host_rate (tag : Byte) (p : Bytes) (s : State) :
    (formatRule tag p s).1.host.rate = s.host.rate := by
  unfold formatRule; (repeat' split) <;> simp

@[simp] theorem formatRule_script_session (tag : Byte) (p : Bytes) (s : State) :
    (formatRule tag p s).1.script.session = s.script.session := by
  unfold formatRule; (repeat' split) <;> simp

@[simp] theorem takeErase_frame (tag : Byte) (d : Dict) (s : State) :
    (takeErase tag d s).links = s.links ∧
    (takeErase tag d s).formers = s.formers ∧
    (takeErase tag d s).seqCounter = s.seqCounter ∧
    (takeErase tag d s).flash = s.flash ∧
    (takeErase tag d s).fmt = s.fmt ∧
    (takeErase tag d s).ports = s.ports ∧
    (takeErase tag d s).settings = s.settings ∧
    (takeErase tag d s).pending = s.pending := by
  unfold takeErase; (repeat' split) <;> simp

@[simp] theorem takeErase_time_rate (tag : Byte) (d : Dict) (s : State) :
    (takeErase tag d s).time.rate = s.time.rate := by
  unfold takeErase; (repeat' split) <;> simp

@[simp] theorem takeErase_time_now (tag : Byte) (d : Dict) (s : State) :
    (takeErase tag d s).time.now = s.time.now := by
  unfold takeErase; (repeat' split) <;> simp

@[simp] theorem takeErase_host_phase (tag : Byte) (d : Dict) (s : State) :
    (takeErase tag d s).host.phase = s.host.phase := by
  unfold takeErase; (repeat' split) <;> simp

@[simp] theorem takeErase_host_replies (tag : Byte) (d : Dict) (s : State) :
    (takeErase tag d s).host.replies = s.host.replies := by
  unfold takeErase; (repeat' split) <;> simp

@[simp] theorem takeErase_host_rate (tag : Byte) (d : Dict) (s : State) :
    (takeErase tag d s).host.rate = s.host.rate := by
  unfold takeErase; (repeat' split) <;> simp

@[simp] theorem takeErase_script_session (tag : Byte) (d : Dict) (s : State) :
    (takeErase tag d s).script.session = s.script.session := by
  unfold takeErase; (repeat' split) <;> simp

@[simp] theorem eraseRule_frame (tag : Byte) (p : Bytes) (s : State) :
    (eraseRule tag p s).1.links = s.links ∧
    (eraseRule tag p s).1.formers = s.formers ∧
    (eraseRule tag p s).1.seqCounter = s.seqCounter ∧
    (eraseRule tag p s).1.flash = s.flash ∧
    (eraseRule tag p s).1.fmt = s.fmt ∧
    (eraseRule tag p s).1.ports = s.ports ∧
    (eraseRule tag p s).1.settings = s.settings ∧
    (eraseRule tag p s).1.pending = s.pending := by
  unfold eraseRule; (repeat' split) <;> simp

@[simp] theorem eraseRule_time_rate (tag : Byte) (p : Bytes) (s : State) :
    (eraseRule tag p s).1.time.rate = s.time.rate := by
  unfold eraseRule; (repeat' split) <;> simp

@[simp] theorem eraseRule_time_now (tag : Byte) (p : Bytes) (s : State) :
    (eraseRule tag p s).1.time.now = s.time.now := by
  unfold eraseRule; (repeat' split) <;> simp

@[simp] theorem eraseRule_host_phase (tag : Byte) (p : Bytes) (s : State) :
    (eraseRule tag p s).1.host.phase = s.host.phase := by
  unfold eraseRule; (repeat' split) <;> simp

@[simp] theorem eraseRule_host_replies (tag : Byte) (p : Bytes) (s : State) :
    (eraseRule tag p s).1.host.replies = s.host.replies := by
  unfold eraseRule; (repeat' split) <;> simp

@[simp] theorem eraseRule_host_rate (tag : Byte) (p : Bytes) (s : State) :
    (eraseRule tag p s).1.host.rate = s.host.rate := by
  unfold eraseRule; (repeat' split) <;> simp

@[simp] theorem eraseRule_script_session (tag : Byte) (p : Bytes) (s : State) :
    (eraseRule tag p s).1.script.session = s.script.session := by
  unfold eraseRule; (repeat' split) <;> simp

@[simp] theorem logReadRule_frame (tag : Byte) (p : Bytes) (s : State) :
    (logReadRule tag p s).1.links = s.links ∧
    (logReadRule tag p s).1.formers = s.formers ∧
    (logReadRule tag p s).1.seqCounter = s.seqCounter ∧
    (logReadRule tag p s).1.floor = s.floor ∧
    (logReadRule tag p s).1.flash = s.flash ∧
    (logReadRule tag p s).1.log = s.log ∧
    (logReadRule tag p s).1.dict = s.dict ∧
    (logReadRule tag p s).1.trans = s.trans ∧
    (logReadRule tag p s).1.script = s.script ∧
    (logReadRule tag p s).1.feeds = s.feeds ∧
    (logReadRule tag p s).1.fmt = s.fmt ∧
    (logReadRule tag p s).1.ports = s.ports ∧
    (logReadRule tag p s).1.settings = s.settings ∧
    (logReadRule tag p s).1.pending = s.pending := by
  unfold logReadRule; (repeat' split) <;> simp

@[simp] theorem logReadRule_time_rate (tag : Byte) (p : Bytes) (s : State) :
    (logReadRule tag p s).1.time.rate = s.time.rate := by
  unfold logReadRule; (repeat' split) <;> simp

@[simp] theorem logReadRule_time_now (tag : Byte) (p : Bytes) (s : State) :
    (logReadRule tag p s).1.time.now = s.time.now := by
  unfold logReadRule; (repeat' split) <;> simp

@[simp] theorem logReadRule_host_phase (tag : Byte) (p : Bytes) (s : State) :
    (logReadRule tag p s).1.host.phase = s.host.phase := by
  unfold logReadRule; (repeat' split) <;> simp

@[simp] theorem logReadRule_host_replies (tag : Byte) (p : Bytes) (s : State) :
    (logReadRule tag p s).1.host.replies = s.host.replies := by
  unfold logReadRule; (repeat' split) <;> simp

@[simp] theorem logReadRule_host_rate (tag : Byte) (p : Bytes) (s : State) :
    (logReadRule tag p s).1.host.rate = s.host.rate := by
  unfold logReadRule; (repeat' split) <;> simp

@[simp] theorem logFlushRule_frame (tag : Byte) (s : State) :
    (logFlushRule tag s).1.links = s.links ∧
    (logFlushRule tag s).1.formers = s.formers ∧
    (logFlushRule tag s).1.seqCounter = s.seqCounter ∧
    (logFlushRule tag s).1.floor = s.floor ∧
    (logFlushRule tag s).1.time = s.time ∧
    (logFlushRule tag s).1.flash = s.flash ∧
    (logFlushRule tag s).1.store = s.store ∧
    (logFlushRule tag s).1.dict = s.dict ∧
    (logFlushRule tag s).1.trans = s.trans ∧
    (logFlushRule tag s).1.script = s.script ∧
    (logFlushRule tag s).1.feeds = s.feeds ∧
    (logFlushRule tag s).1.fmt = s.fmt ∧
    (logFlushRule tag s).1.ports = s.ports ∧
    (logFlushRule tag s).1.host = s.host ∧
    (logFlushRule tag s).1.conds = s.conds ∧
    (logFlushRule tag s).1.settings = s.settings ∧
    (logFlushRule tag s).1.pending = s.pending := by
  unfold logFlushRule; (repeat' split) <;> simp

@[simp] theorem logFlushRule_log_flush (tag : Byte) (s : State) :
    (logFlushRule tag s).1.log.flush = s.log.flush := by
  unfold logFlushRule; (repeat' split) <;> simp

@[simp] theorem closeDone_frame (failed : Option Reason) (s : State) :
    (closeDone failed s).links = s.links ∧
    (closeDone failed s).formers = s.formers ∧
    (closeDone failed s).seqCounter = s.seqCounter ∧
    (closeDone failed s).floor = s.floor ∧
    (closeDone failed s).flash = s.flash ∧
    (closeDone failed s).store = s.store ∧
    (closeDone failed s).dict = s.dict ∧
    (closeDone failed s).trans = s.trans ∧
    (closeDone failed s).feeds = s.feeds ∧
    (closeDone failed s).fmt = s.fmt ∧
    (closeDone failed s).ports = s.ports ∧
    (closeDone failed s).settings = s.settings ∧
    (closeDone failed s).pending = s.pending := by
  unfold closeDone; simp

@[simp] theorem closeDone_time_rate (failed : Option Reason) (s : State) :
    (closeDone failed s).time.rate = s.time.rate := by
  unfold closeDone; simp

@[simp] theorem closeDone_time_now (failed : Option Reason) (s : State) :
    (closeDone failed s).time.now = s.time.now := by
  unfold closeDone; simp

@[simp] theorem closeDone_host_phase (failed : Option Reason) (s : State) :
    (closeDone failed s).host.phase = s.host.phase := by
  unfold closeDone; simp

@[simp] theorem closeDone_host_replies (failed : Option Reason) (s : State) :
    (closeDone failed s).host.replies = s.host.replies := by
  unfold closeDone; simp

@[simp] theorem closeDone_host_rate (failed : Option Reason) (s : State) :
    (closeDone failed s).host.rate = s.host.rate := by
  unfold closeDone; simp

@[simp] theorem flushReport_frame (s : State) :
    (flushReport s).links = s.links ∧
    (flushReport s).formers = s.formers ∧
    (flushReport s).seqCounter = s.seqCounter ∧
    (flushReport s).floor = s.floor ∧
    (flushReport s).flash = s.flash ∧
    (flushReport s).store = s.store ∧
    (flushReport s).dict = s.dict ∧
    (flushReport s).trans = s.trans ∧
    (flushReport s).feeds = s.feeds ∧
    (flushReport s).fmt = s.fmt ∧
    (flushReport s).ports = s.ports ∧
    (flushReport s).settings = s.settings ∧
    (flushReport s).pending = s.pending := by
  unfold flushReport; (repeat' split) <;> simp

@[simp] theorem flushReport_time_rate (s : State) :
    (flushReport s).time.rate = s.time.rate := by
  unfold flushReport; (repeat' split) <;> simp

@[simp] theorem flushReport_time_now (s : State) :
    (flushReport s).time.now = s.time.now := by
  unfold flushReport; (repeat' split) <;> simp

@[simp] theorem flushReport_host_replies (s : State) :
    (flushReport s).host.replies = s.host.replies := by
  unfold flushReport; (repeat' split) <;> simp

@[simp] theorem flushReport_host_rate (s : State) :
    (flushReport s).host.rate = s.host.rate := by
  unfold flushReport; (repeat' split) <;> simp

/-! ### KeyLinks -/

@[simp] theorem echoStroke_frame (r : StrokeRec) (seq : Option Count) (s : State) :
    (echoStroke r seq s).links = s.links ∧
    (echoStroke r seq s).formers = s.formers ∧
    (echoStroke r seq s).seqCounter = s.seqCounter ∧
    (echoStroke r seq s).floor = s.floor ∧
    (echoStroke r seq s).flash = s.flash ∧
    (echoStroke r seq s).store = s.store ∧
    (echoStroke r seq s).log = s.log ∧
    (echoStroke r seq s).dict = s.dict ∧
    (echoStroke r seq s).trans = s.trans ∧
    (echoStroke r seq s).script = s.script ∧
    (echoStroke r seq s).feeds = s.feeds ∧
    (echoStroke r seq s).fmt = s.fmt ∧
    (echoStroke r seq s).ports = s.ports ∧
    (echoStroke r seq s).settings = s.settings ∧
    (echoStroke r seq s).pending = s.pending := by
  unfold echoStroke; (repeat' split) <;> simp

@[simp] theorem echoStroke_time_rate (r : StrokeRec) (seq : Option Count) (s : State) :
    (echoStroke r seq s).time.rate = s.time.rate := by
  unfold echoStroke; (repeat' split) <;> simp

@[simp] theorem echoStroke_time_now (r : StrokeRec) (seq : Option Count) (s : State) :
    (echoStroke r seq s).time.now = s.time.now := by
  unfold echoStroke; (repeat' split) <;> simp

@[simp] theorem echoStroke_host_phase (r : StrokeRec) (seq : Option Count) (s : State) :
    (echoStroke r seq s).host.phase = s.host.phase := by
  unfold echoStroke; (repeat' split) <;> simp

@[simp] theorem echoStroke_host_replies (r : StrokeRec) (seq : Option Count) (s : State) :
    (echoStroke r seq s).host.replies = s.host.replies := by
  unfold echoStroke; (repeat' split) <;> simp

@[simp] theorem echoStroke_host_rate (r : StrokeRec) (seq : Option Count) (s : State) :
    (echoStroke r seq s).host.rate = s.host.rate := by
  unfold echoStroke; (repeat' split) <;> simp

@[simp] theorem numberStroke_frame (r : StrokeRec) (lost : Bool) (s : State) :
    (numberStroke r lost s).links = s.links ∧
    (numberStroke r lost s).formers = s.formers ∧
    (numberStroke r lost s).flash = s.flash ∧
    (numberStroke r lost s).dict = s.dict ∧
    (numberStroke r lost s).fmt = s.fmt ∧
    (numberStroke r lost s).ports = s.ports ∧
    (numberStroke r lost s).settings = s.settings ∧
    (numberStroke r lost s).pending = s.pending := by
  unfold numberStroke; (repeat' split) <;> simp

@[simp] theorem numberStroke_time_rate (r : StrokeRec) (lost : Bool) (s : State) :
    (numberStroke r lost s).time.rate = s.time.rate := by
  unfold numberStroke; (repeat' split) <;> simp

@[simp] theorem numberStroke_time_now (r : StrokeRec) (lost : Bool) (s : State) :
    (numberStroke r lost s).time.now = s.time.now := by
  unfold numberStroke; (repeat' split) <;> simp

@[simp] theorem numberStroke_host_phase (r : StrokeRec) (lost : Bool) (s : State) :
    (numberStroke r lost s).host.phase = s.host.phase := by
  unfold numberStroke; (repeat' split) <;> simp

@[simp] theorem numberStroke_host_replies (r : StrokeRec) (lost : Bool) (s : State) :
    (numberStroke r lost s).host.replies = s.host.replies := by
  unfold numberStroke; (repeat' split) <;> simp

@[simp] theorem numberStroke_host_rate (r : StrokeRec) (lost : Bool) (s : State) :
    (numberStroke r lost s).host.rate = s.host.rate := by
  unfold numberStroke; (repeat' split) <;> simp

@[simp] theorem numberStroke_log_flush (r : StrokeRec) (lost : Bool) (s : State) :
    (numberStroke r lost s).log.flush = s.log.flush := by
  unfold numberStroke; (repeat' split) <;> simp

@[simp] theorem numberStroke_script_session (r : StrokeRec) (lost : Bool) (s : State) :
    (numberStroke r lost s).script.session = s.script.session := by
  unfold numberStroke; (repeat' split) <;> simp

@[simp] theorem discardStroke_frame (r : StrokeRec) (s : State) :
    (discardStroke r s).links = s.links ∧
    (discardStroke r s).seqCounter = s.seqCounter ∧
    (discardStroke r s).floor = s.floor ∧
    (discardStroke r s).flash = s.flash ∧
    (discardStroke r s).store = s.store ∧
    (discardStroke r s).log = s.log ∧
    (discardStroke r s).dict = s.dict ∧
    (discardStroke r s).trans = s.trans ∧
    (discardStroke r s).script = s.script ∧
    (discardStroke r s).feeds = s.feeds ∧
    (discardStroke r s).fmt = s.fmt ∧
    (discardStroke r s).ports = s.ports ∧
    (discardStroke r s).settings = s.settings ∧
    (discardStroke r s).pending = s.pending := by
  unfold discardStroke; simp

@[simp] theorem discardStroke_time_rate (r : StrokeRec) (s : State) :
    (discardStroke r s).time.rate = s.time.rate := by
  unfold discardStroke; simp

@[simp] theorem discardStroke_time_now (r : StrokeRec) (s : State) :
    (discardStroke r s).time.now = s.time.now := by
  unfold discardStroke; simp

@[simp] theorem discardStroke_host_phase (r : StrokeRec) (s : State) :
    (discardStroke r s).host.phase = s.host.phase := by
  unfold discardStroke; simp

@[simp] theorem discardStroke_host_replies (r : StrokeRec) (s : State) :
    (discardStroke r s).host.replies = s.host.replies := by
  unfold discardStroke; simp

@[simp] theorem discardStroke_host_rate (r : StrokeRec) (s : State) :
    (discardStroke r s).host.rate = s.host.rate := by
  unfold discardStroke; simp

@[simp] theorem closeStroke_frame (p : Pos) (held : Bool) (damaged : Bool) (lost : Bool) (s : State) :
    (closeStroke p held damaged lost s).links = s.links ∧
    (closeStroke p held damaged lost s).flash = s.flash ∧
    (closeStroke p held damaged lost s).dict = s.dict ∧
    (closeStroke p held damaged lost s).fmt = s.fmt ∧
    (closeStroke p held damaged lost s).ports = s.ports ∧
    (closeStroke p held damaged lost s).settings = s.settings ∧
    (closeStroke p held damaged lost s).pending = s.pending := by
  unfold closeStroke; dsimp only; (repeat' split) <;> simp

@[simp] theorem closeStroke_time_rate (p : Pos) (held : Bool) (damaged : Bool) (lost : Bool) (s : State) :
    (closeStroke p held damaged lost s).time.rate = s.time.rate := by
  unfold closeStroke; dsimp only; (repeat' split) <;> simp

@[simp] theorem closeStroke_time_now (p : Pos) (held : Bool) (damaged : Bool) (lost : Bool) (s : State) :
    (closeStroke p held damaged lost s).time.now = s.time.now := by
  unfold closeStroke; dsimp only; (repeat' split) <;> simp

@[simp] theorem closeStroke_host_phase (p : Pos) (held : Bool) (damaged : Bool) (lost : Bool) (s : State) :
    (closeStroke p held damaged lost s).host.phase = s.host.phase := by
  unfold closeStroke; dsimp only; (repeat' split) <;> simp

@[simp] theorem closeStroke_host_replies (p : Pos) (held : Bool) (damaged : Bool) (lost : Bool) (s : State) :
    (closeStroke p held damaged lost s).host.replies = s.host.replies := by
  unfold closeStroke; dsimp only; (repeat' split) <;> simp

@[simp] theorem closeStroke_host_rate (p : Pos) (held : Bool) (damaged : Bool) (lost : Bool) (s : State) :
    (closeStroke p held damaged lost s).host.rate = s.host.rate := by
  unfold closeStroke; dsimp only; (repeat' split) <;> simp

@[simp] theorem closeStroke_log_flush (p : Pos) (held : Bool) (damaged : Bool) (lost : Bool) (s : State) :
    (closeStroke p held damaged lost s).log.flush = s.log.flush := by
  unfold closeStroke; dsimp only; (repeat' split) <;> simp

@[simp] theorem closeStroke_script_session (p : Pos) (held : Bool) (damaged : Bool) (lost : Bool) (s : State) :
    (closeStroke p held damaged lost s).script.session = s.script.session := by
  unfold closeStroke; dsimp only; (repeat' split) <;> simp

@[simp] theorem latch_frame (p : Pos) (k : Keys) (s : State) :
    (latch p k s).links = s.links ∧
    (latch p k s).seqCounter = s.seqCounter ∧
    (latch p k s).floor = s.floor ∧
    (latch p k s).time = s.time ∧
    (latch p k s).flash = s.flash ∧
    (latch p k s).store = s.store ∧
    (latch p k s).log = s.log ∧
    (latch p k s).dict = s.dict ∧
    (latch p k s).trans = s.trans ∧
    (latch p k s).script = s.script ∧
    (latch p k s).feeds = s.feeds ∧
    (latch p k s).fmt = s.fmt ∧
    (latch p k s).ports = s.ports ∧
    (latch p k s).host = s.host ∧
    (latch p k s).conds = s.conds ∧
    (latch p k s).settings = s.settings ∧
    (latch p k s).pending = s.pending := by
  unfold latch; simp

@[simp] theorem closeHeld_frame (p : Pos) (s : State) :
    (closeHeld p s).links = s.links ∧
    (closeHeld p s).flash = s.flash ∧
    (closeHeld p s).dict = s.dict ∧
    (closeHeld p s).fmt = s.fmt ∧
    (closeHeld p s).ports = s.ports ∧
    (closeHeld p s).settings = s.settings ∧
    (closeHeld p s).pending = s.pending := by
  unfold closeHeld; (repeat' split) <;> simp

@[simp] theorem closeHeld_time_rate (p : Pos) (s : State) :
    (closeHeld p s).time.rate = s.time.rate := by
  unfold closeHeld; (repeat' split) <;> simp

@[simp] theorem closeHeld_time_now (p : Pos) (s : State) :
    (closeHeld p s).time.now = s.time.now := by
  unfold closeHeld; (repeat' split) <;> simp

@[simp] theorem closeHeld_host_phase (p : Pos) (s : State) :
    (closeHeld p s).host.phase = s.host.phase := by
  unfold closeHeld; (repeat' split) <;> simp

@[simp] theorem closeHeld_host_replies (p : Pos) (s : State) :
    (closeHeld p s).host.replies = s.host.replies := by
  unfold closeHeld; (repeat' split) <;> simp

@[simp] theorem closeHeld_host_rate (p : Pos) (s : State) :
    (closeHeld p s).host.rate = s.host.rate := by
  unfold closeHeld; (repeat' split) <;> simp

@[simp] theorem closeHeld_log_flush (p : Pos) (s : State) :
    (closeHeld p s).log.flush = s.log.flush := by
  unfold closeHeld; (repeat' split) <;> simp

@[simp] theorem closeHeld_script_session (p : Pos) (s : State) :
    (closeHeld p s).script.session = s.script.session := by
  unfold closeHeld; (repeat' split) <;> simp

@[simp] theorem openStroke_frame (p : Pos) (k : Keys) (s : State) :
    (openStroke p k s).links = s.links ∧
    (openStroke p k s).seqCounter = s.seqCounter ∧
    (openStroke p k s).floor = s.floor ∧
    (openStroke p k s).flash = s.flash ∧
    (openStroke p k s).store = s.store ∧
    (openStroke p k s).log = s.log ∧
    (openStroke p k s).dict = s.dict ∧
    (openStroke p k s).trans = s.trans ∧
    (openStroke p k s).script = s.script ∧
    (openStroke p k s).feeds = s.feeds ∧
    (openStroke p k s).fmt = s.fmt ∧
    (openStroke p k s).ports = s.ports ∧
    (openStroke p k s).host = s.host ∧
    (openStroke p k s).conds = s.conds ∧
    (openStroke p k s).settings = s.settings ∧
    (openStroke p k s).pending = s.pending := by
  unfold openStroke; simp

@[simp] theorem openStroke_time_rate (p : Pos) (k : Keys) (s : State) :
    (openStroke p k s).time.rate = s.time.rate := by
  unfold openStroke; simp

@[simp] theorem openStroke_time_now (p : Pos) (k : Keys) (s : State) :
    (openStroke p k s).time.now = s.time.now := by
  unfold openStroke; simp

@[simp] theorem formerReport_frame (p : Pos) (k : Keys) (s : State) :
    (formerReport p k s).links = s.links ∧
    (formerReport p k s).flash = s.flash ∧
    (formerReport p k s).dict = s.dict ∧
    (formerReport p k s).fmt = s.fmt ∧
    (formerReport p k s).ports = s.ports ∧
    (formerReport p k s).settings = s.settings ∧
    (formerReport p k s).pending = s.pending := by
  unfold formerReport; dsimp only; (repeat' split) <;> simp

@[simp] theorem formerReport_time_rate (p : Pos) (k : Keys) (s : State) :
    (formerReport p k s).time.rate = s.time.rate := by
  unfold formerReport; dsimp only; (repeat' split) <;> simp

@[simp] theorem formerReport_time_now (p : Pos) (k : Keys) (s : State) :
    (formerReport p k s).time.now = s.time.now := by
  unfold formerReport; dsimp only; (repeat' split) <;> simp

@[simp] theorem formerReport_host_phase (p : Pos) (k : Keys) (s : State) :
    (formerReport p k s).host.phase = s.host.phase := by
  unfold formerReport; dsimp only; (repeat' split) <;> simp

@[simp] theorem formerReport_host_replies (p : Pos) (k : Keys) (s : State) :
    (formerReport p k s).host.replies = s.host.replies := by
  unfold formerReport; dsimp only; (repeat' split) <;> simp

@[simp] theorem formerReport_host_rate (p : Pos) (k : Keys) (s : State) :
    (formerReport p k s).host.rate = s.host.rate := by
  unfold formerReport; dsimp only; (repeat' split) <;> simp

@[simp] theorem formerReport_log_flush (p : Pos) (k : Keys) (s : State) :
    (formerReport p k s).log.flush = s.log.flush := by
  unfold formerReport; dsimp only; (repeat' split) <;> simp

@[simp] theorem formerReport_script_session (p : Pos) (k : Keys) (s : State) :
    (formerReport p k s).script.session = s.script.session := by
  unfold formerReport; dsimp only; (repeat' split) <;> simp

@[simp] theorem formerDamaged_frame (p : Pos) (s : State) :
    (formerDamaged p s).links = s.links ∧
    (formerDamaged p s).seqCounter = s.seqCounter ∧
    (formerDamaged p s).floor = s.floor ∧
    (formerDamaged p s).time = s.time ∧
    (formerDamaged p s).flash = s.flash ∧
    (formerDamaged p s).store = s.store ∧
    (formerDamaged p s).log = s.log ∧
    (formerDamaged p s).dict = s.dict ∧
    (formerDamaged p s).trans = s.trans ∧
    (formerDamaged p s).script = s.script ∧
    (formerDamaged p s).feeds = s.feeds ∧
    (formerDamaged p s).fmt = s.fmt ∧
    (formerDamaged p s).ports = s.ports ∧
    (formerDamaged p s).host = s.host ∧
    (formerDamaged p s).conds = s.conds ∧
    (formerDamaged p s).settings = s.settings ∧
    (formerDamaged p s).pending = s.pending := by
  unfold formerDamaged; (repeat' split) <;> simp

@[simp] theorem abandonStroke_frame (p : Pos) (s : State) :
    (abandonStroke p s).links = s.links ∧
    (abandonStroke p s).seqCounter = s.seqCounter ∧
    (abandonStroke p s).floor = s.floor ∧
    (abandonStroke p s).time = s.time ∧
    (abandonStroke p s).flash = s.flash ∧
    (abandonStroke p s).store = s.store ∧
    (abandonStroke p s).log = s.log ∧
    (abandonStroke p s).dict = s.dict ∧
    (abandonStroke p s).trans = s.trans ∧
    (abandonStroke p s).script = s.script ∧
    (abandonStroke p s).feeds = s.feeds ∧
    (abandonStroke p s).fmt = s.fmt ∧
    (abandonStroke p s).ports = s.ports ∧
    (abandonStroke p s).host = s.host ∧
    (abandonStroke p s).conds = s.conds ∧
    (abandonStroke p s).settings = s.settings ∧
    (abandonStroke p s).pending = s.pending := by
  unfold abandonStroke; simp

@[simp] theorem leaveSession_frame (s : State) :
    (leaveSession s).links = s.links ∧
    (leaveSession s).seqCounter = s.seqCounter ∧
    (leaveSession s).floor = s.floor ∧
    (leaveSession s).time = s.time ∧
    (leaveSession s).flash = s.flash ∧
    (leaveSession s).store = s.store ∧
    (leaveSession s).log = s.log ∧
    (leaveSession s).dict = s.dict ∧
    (leaveSession s).trans = s.trans ∧
    (leaveSession s).script = s.script ∧
    (leaveSession s).feeds = s.feeds ∧
    (leaveSession s).fmt = s.fmt ∧
    (leaveSession s).ports = s.ports ∧
    (leaveSession s).host = s.host ∧
    (leaveSession s).conds = s.conds ∧
    (leaveSession s).settings = s.settings ∧
    (leaveSession s).pending = s.pending := by
  unfold leaveSession; simp

@[simp] theorem damagedReport_frame (p : Pos) (s : State) :
    (damagedReport p s).seqCounter = s.seqCounter ∧
    (damagedReport p s).floor = s.floor ∧
    (damagedReport p s).time = s.time ∧
    (damagedReport p s).flash = s.flash ∧
    (damagedReport p s).store = s.store ∧
    (damagedReport p s).log = s.log ∧
    (damagedReport p s).dict = s.dict ∧
    (damagedReport p s).trans = s.trans ∧
    (damagedReport p s).script = s.script ∧
    (damagedReport p s).feeds = s.feeds ∧
    (damagedReport p s).fmt = s.fmt ∧
    (damagedReport p s).ports = s.ports ∧
    (damagedReport p s).host = s.host ∧
    (damagedReport p s).conds = s.conds ∧
    (damagedReport p s).settings = s.settings ∧
    (damagedReport p s).pending = s.pending := by
  unfold damagedReport; simp

@[simp] theorem damageProgress_frame (p : Pos) (s : State) :
    (damageProgress p s).seqCounter = s.seqCounter ∧
    (damageProgress p s).floor = s.floor ∧
    (damageProgress p s).time = s.time ∧
    (damageProgress p s).flash = s.flash ∧
    (damageProgress p s).store = s.store ∧
    (damageProgress p s).log = s.log ∧
    (damageProgress p s).dict = s.dict ∧
    (damageProgress p s).trans = s.trans ∧
    (damageProgress p s).script = s.script ∧
    (damageProgress p s).feeds = s.feeds ∧
    (damageProgress p s).fmt = s.fmt ∧
    (damageProgress p s).ports = s.ports ∧
    (damageProgress p s).host = s.host ∧
    (damageProgress p s).conds = s.conds ∧
    (damageProgress p s).settings = s.settings ∧
    (damageProgress p s).pending = s.pending := by
  unfold damageProgress; (repeat' split) <;> simp

@[simp] theorem linkDown_frame (p : Pos) (s : State) :
    (linkDown p s).flash = s.flash ∧
    (linkDown p s).dict = s.dict ∧
    (linkDown p s).fmt = s.fmt ∧
    (linkDown p s).ports = s.ports ∧
    (linkDown p s).settings = s.settings ∧
    (linkDown p s).pending = s.pending := by
  unfold linkDown; simp

@[simp] theorem linkDown_time_rate (p : Pos) (s : State) :
    (linkDown p s).time.rate = s.time.rate := by
  unfold linkDown; simp

@[simp] theorem linkDown_time_now (p : Pos) (s : State) :
    (linkDown p s).time.now = s.time.now := by
  unfold linkDown; simp

@[simp] theorem linkDown_host_phase (p : Pos) (s : State) :
    (linkDown p s).host.phase = s.host.phase := by
  unfold linkDown; simp

@[simp] theorem linkDown_host_replies (p : Pos) (s : State) :
    (linkDown p s).host.replies = s.host.replies := by
  unfold linkDown; simp

@[simp] theorem linkDown_host_rate (p : Pos) (s : State) :
    (linkDown p s).host.rate = s.host.rate := by
  unfold linkDown; simp

@[simp] theorem linkDown_log_flush (p : Pos) (s : State) :
    (linkDown p s).log.flush = s.log.flush := by
  unfold linkDown; simp

@[simp] theorem linkDown_script_session (p : Pos) (s : State) :
    (linkDown p s).script.session = s.script.session := by
  unfold linkDown; simp

@[simp] theorem linkUp_frame (p : Pos) (s : State) :
    (linkUp p s).formers = s.formers ∧
    (linkUp p s).seqCounter = s.seqCounter ∧
    (linkUp p s).flash = s.flash ∧
    (linkUp p s).store = s.store ∧
    (linkUp p s).log = s.log ∧
    (linkUp p s).dict = s.dict ∧
    (linkUp p s).trans = s.trans ∧
    (linkUp p s).script = s.script ∧
    (linkUp p s).feeds = s.feeds ∧
    (linkUp p s).fmt = s.fmt ∧
    (linkUp p s).ports = s.ports ∧
    (linkUp p s).settings = s.settings ∧
    (linkUp p s).pending = s.pending := by
  unfold linkUp; (repeat' split) <;> simp

@[simp] theorem linkUp_time_rate (p : Pos) (s : State) :
    (linkUp p s).time.rate = s.time.rate := by
  unfold linkUp; (repeat' split) <;> simp

@[simp] theorem linkUp_time_now (p : Pos) (s : State) :
    (linkUp p s).time.now = s.time.now := by
  unfold linkUp; (repeat' split) <;> simp

@[simp] theorem linkUp_host_phase (p : Pos) (s : State) :
    (linkUp p s).host.phase = s.host.phase := by
  unfold linkUp; (repeat' split) <;> simp

@[simp] theorem linkUp_host_replies (p : Pos) (s : State) :
    (linkUp p s).host.replies = s.host.replies := by
  unfold linkUp; (repeat' split) <;> simp

@[simp] theorem linkUp_host_rate (p : Pos) (s : State) :
    (linkUp p s).host.rate = s.host.rate := by
  unfold linkUp; (repeat' split) <;> simp

@[simp] theorem validReport_frame (p : Pos) (k : Keys) (s : State) :
    (validReport p k s).flash = s.flash ∧
    (validReport p k s).dict = s.dict ∧
    (validReport p k s).fmt = s.fmt ∧
    (validReport p k s).ports = s.ports ∧
    (validReport p k s).settings = s.settings ∧
    (validReport p k s).pending = s.pending := by
  unfold validReport; simp

@[simp] theorem validReport_time_rate (p : Pos) (k : Keys) (s : State) :
    (validReport p k s).time.rate = s.time.rate := by
  unfold validReport; simp

@[simp] theorem validReport_time_now (p : Pos) (k : Keys) (s : State) :
    (validReport p k s).time.now = s.time.now := by
  unfold validReport; simp

@[simp] theorem validReport_host_phase (p : Pos) (k : Keys) (s : State) :
    (validReport p k s).host.phase = s.host.phase := by
  unfold validReport; simp

@[simp] theorem validReport_host_replies (p : Pos) (k : Keys) (s : State) :
    (validReport p k s).host.replies = s.host.replies := by
  unfold validReport; simp

@[simp] theorem validReport_host_rate (p : Pos) (k : Keys) (s : State) :
    (validReport p k s).host.rate = s.host.rate := by
  unfold validReport; simp

@[simp] theorem validReport_log_flush (p : Pos) (k : Keys) (s : State) :
    (validReport p k s).log.flush = s.log.flush := by
  unfold validReport; simp

@[simp] theorem validReport_script_session (p : Pos) (k : Keys) (s : State) :
    (validReport p k s).script.session = s.script.session := by
  unfold validReport; simp

@[simp] theorem completeReport_frame (p : Pos) (b0 : Byte) (b1 : Byte) (b2 : Byte) (b3 : Byte) (s : State) :
    (completeReport p b0 b1 b2 b3 s).flash = s.flash ∧
    (completeReport p b0 b1 b2 b3 s).dict = s.dict ∧
    (completeReport p b0 b1 b2 b3 s).fmt = s.fmt ∧
    (completeReport p b0 b1 b2 b3 s).ports = s.ports ∧
    (completeReport p b0 b1 b2 b3 s).settings = s.settings ∧
    (completeReport p b0 b1 b2 b3 s).pending = s.pending := by
  unfold completeReport; (repeat' split) <;> simp

@[simp] theorem completeReport_time_rate (p : Pos) (b0 : Byte) (b1 : Byte) (b2 : Byte) (b3 : Byte) (s : State) :
    (completeReport p b0 b1 b2 b3 s).time.rate = s.time.rate := by
  unfold completeReport; (repeat' split) <;> simp

@[simp] theorem completeReport_time_now (p : Pos) (b0 : Byte) (b1 : Byte) (b2 : Byte) (b3 : Byte) (s : State) :
    (completeReport p b0 b1 b2 b3 s).time.now = s.time.now := by
  unfold completeReport; (repeat' split) <;> simp

@[simp] theorem completeReport_host_phase (p : Pos) (b0 : Byte) (b1 : Byte) (b2 : Byte) (b3 : Byte) (s : State) :
    (completeReport p b0 b1 b2 b3 s).host.phase = s.host.phase := by
  unfold completeReport; (repeat' split) <;> simp

@[simp] theorem completeReport_host_replies (p : Pos) (b0 : Byte) (b1 : Byte) (b2 : Byte) (b3 : Byte) (s : State) :
    (completeReport p b0 b1 b2 b3 s).host.replies = s.host.replies := by
  unfold completeReport; (repeat' split) <;> simp

@[simp] theorem completeReport_host_rate (p : Pos) (b0 : Byte) (b1 : Byte) (b2 : Byte) (b3 : Byte) (s : State) :
    (completeReport p b0 b1 b2 b3 s).host.rate = s.host.rate := by
  unfold completeReport; (repeat' split) <;> simp

@[simp] theorem completeReport_log_flush (p : Pos) (b0 : Byte) (b1 : Byte) (b2 : Byte) (b3 : Byte) (s : State) :
    (completeReport p b0 b1 b2 b3 s).log.flush = s.log.flush := by
  unfold completeReport; (repeat' split) <;> simp

@[simp] theorem completeReport_script_session (p : Pos) (b0 : Byte) (b1 : Byte) (b2 : Byte) (b3 : Byte) (s : State) :
    (completeReport p b0 b1 b2 b3 s).script.session = s.script.session := by
  unfold completeReport; (repeat' split) <;> simp

@[simp] theorem keyChar_frame (p : Pos) (c : Byte) (s : State) :
    (keyChar p c s).flash = s.flash ∧
    (keyChar p c s).dict = s.dict ∧
    (keyChar p c s).fmt = s.fmt ∧
    (keyChar p c s).ports = s.ports ∧
    (keyChar p c s).settings = s.settings ∧
    (keyChar p c s).pending = s.pending := by
  unfold keyChar; (repeat' split) <;> simp

@[simp] theorem keyChar_time_rate (p : Pos) (c : Byte) (s : State) :
    (keyChar p c s).time.rate = s.time.rate := by
  unfold keyChar; (repeat' split) <;> simp

@[simp] theorem keyChar_time_now (p : Pos) (c : Byte) (s : State) :
    (keyChar p c s).time.now = s.time.now := by
  unfold keyChar; (repeat' split) <;> simp

@[simp] theorem keyChar_host_phase (p : Pos) (c : Byte) (s : State) :
    (keyChar p c s).host.phase = s.host.phase := by
  unfold keyChar; (repeat' split) <;> simp

@[simp] theorem keyChar_host_replies (p : Pos) (c : Byte) (s : State) :
    (keyChar p c s).host.replies = s.host.replies := by
  unfold keyChar; (repeat' split) <;> simp

@[simp] theorem keyChar_host_rate (p : Pos) (c : Byte) (s : State) :
    (keyChar p c s).host.rate = s.host.rate := by
  unfold keyChar; (repeat' split) <;> simp

@[simp] theorem keyChar_log_flush (p : Pos) (c : Byte) (s : State) :
    (keyChar p c s).log.flush = s.log.flush := by
  unfold keyChar; (repeat' split) <;> simp

@[simp] theorem keyChar_script_session (p : Pos) (c : Byte) (s : State) :
    (keyChar p c s).script.session = s.script.session := by
  unfold keyChar; (repeat' split) <;> simp

@[simp] theorem keyChars_frame (p : Pos) (cs : Bytes) (s : State) :
    (keyChars p cs s).flash = s.flash ∧
    (keyChars p cs s).dict = s.dict ∧
    (keyChars p cs s).fmt = s.fmt ∧
    (keyChars p cs s).ports = s.ports ∧
    (keyChars p cs s).settings = s.settings ∧
    (keyChars p cs s).pending = s.pending := by
  unfold keyChars; simp

@[simp] theorem keyChars_time_rate (p : Pos) (cs : Bytes) (s : State) :
    (keyChars p cs s).time.rate = s.time.rate := by
  unfold keyChars; simp

@[simp] theorem keyChars_time_now (p : Pos) (cs : Bytes) (s : State) :
    (keyChars p cs s).time.now = s.time.now := by
  unfold keyChars; simp

@[simp] theorem keyChars_host_phase (p : Pos) (cs : Bytes) (s : State) :
    (keyChars p cs s).host.phase = s.host.phase := by
  unfold keyChars; simp

@[simp] theorem keyChars_host_replies (p : Pos) (cs : Bytes) (s : State) :
    (keyChars p cs s).host.replies = s.host.replies := by
  unfold keyChars; simp

@[simp] theorem keyChars_host_rate (p : Pos) (cs : Bytes) (s : State) :
    (keyChars p cs s).host.rate = s.host.rate := by
  unfold keyChars; simp

@[simp] theorem keyChars_log_flush (p : Pos) (cs : Bytes) (s : State) :
    (keyChars p cs s).log.flush = s.log.flush := by
  unfold keyChars; simp

@[simp] theorem keyChars_script_session (p : Pos) (cs : Bytes) (s : State) :
    (keyChars p cs s).script.session = s.script.session := by
  unfold keyChars; simp

end Sys2Proof.Machine
end

