-- ==== Sys2Proof/Laws/FramesC.lean ====
section
/-! SUPPORT. What the shared operations leave as it was, block by block: time base, positions, translation, sessions, ports and host
link. -/

namespace Sys2Proof.Machine

/-! ### Time -/

@[simp] theorem syncCauses_frame (s : State) :
    (syncCauses s).links = s.links ∧
    (syncCauses s).formers = s.formers ∧
    (syncCauses s).seqCounter = s.seqCounter ∧
    (syncCauses s).floor = s.floor ∧
    (syncCauses s).flash = s.flash ∧
    (syncCauses s).store = s.store ∧
    (syncCauses s).log = s.log ∧
    (syncCauses s).dict = s.dict ∧
    (syncCauses s).trans = s.trans ∧
    (syncCauses s).script = s.script ∧
    (syncCauses s).feeds = s.feeds ∧
    (syncCauses s).fmt = s.fmt ∧
    (syncCauses s).ports = s.ports ∧
    (syncCauses s).settings = s.settings ∧
    (syncCauses s).pending = s.pending := by
  unfold syncCauses; simp

@[simp] theorem syncCauses_time_rate (s : State) :
    (syncCauses s).time.rate = s.time.rate := by
  unfold syncCauses; simp

@[simp] theorem syncCauses_time_now (s : State) :
    (syncCauses s).time.now = s.time.now := by
  unfold syncCauses; simp

@[simp] theorem syncCauses_host_phase (s : State) :
    (syncCauses s).host.phase = s.host.phase := by
  unfold syncCauses; simp

@[simp] theorem syncCauses_host_replies (s : State) :
    (syncCauses s).host.replies = s.host.replies := by
  unfold syncCauses; simp

@[simp] theorem syncCauses_host_rate (s : State) :
    (syncCauses s).host.rate = s.host.rate := by
  unfold syncCauses; simp

@[simp] theorem timeNotice_frame (event : TimeEvent) (error : ℤ) (s : State) :
    (timeNotice event error s).links = s.links ∧
    (timeNotice event error s).formers = s.formers ∧
    (timeNotice event error s).seqCounter = s.seqCounter ∧
    (timeNotice event error s).floor = s.floor ∧
    (timeNotice event error s).flash = s.flash ∧
    (timeNotice event error s).store = s.store ∧
    (timeNotice event error s).log = s.log ∧
    (timeNotice event error s).dict = s.dict ∧
    (timeNotice event error s).trans = s.trans ∧
    (timeNotice event error s).script = s.script ∧
    (timeNotice event error s).feeds = s.feeds ∧
    (timeNotice event error s).fmt = s.fmt ∧
    (timeNotice event error s).ports = s.ports ∧
    (timeNotice event error s).settings = s.settings ∧
    (timeNotice event error s).pending = s.pending := by
  unfold timeNotice; simp

@[simp] theorem timeNotice_time_rate (event : TimeEvent) (error : ℤ) (s : State) :
    (timeNotice event error s).time.rate = s.time.rate := by
  unfold timeNotice; simp

@[simp] theorem timeNotice_time_now (event : TimeEvent) (error : ℤ) (s : State) :
    (timeNotice event error s).time.now = s.time.now := by
  unfold timeNotice; simp

@[simp] theorem timeNotice_host_phase (event : TimeEvent) (error : ℤ) (s : State) :
    (timeNotice event error s).host.phase = s.host.phase := by
  unfold timeNotice; simp

@[simp] theorem timeNotice_host_replies (event : TimeEvent) (error : ℤ) (s : State) :
    (timeNotice event error s).host.replies = s.host.replies := by
  unfold timeNotice; simp

@[simp] theorem timeNotice_host_rate (event : TimeEvent) (error : ℤ) (s : State) :
    (timeNotice event error s).host.rate = s.host.rate := by
  unfold timeNotice; simp

@[simp] theorem acceptSync_frame (r : ℕ) (s : State) :
    (acceptSync r s).1.links = s.links ∧
    (acceptSync r s).1.formers = s.formers ∧
    (acceptSync r s).1.seqCounter = s.seqCounter ∧
    (acceptSync r s).1.floor = s.floor ∧
    (acceptSync r s).1.flash = s.flash ∧
    (acceptSync r s).1.store = s.store ∧
    (acceptSync r s).1.log = s.log ∧
    (acceptSync r s).1.dict = s.dict ∧
    (acceptSync r s).1.trans = s.trans ∧
    (acceptSync r s).1.script = s.script ∧
    (acceptSync r s).1.feeds = s.feeds ∧
    (acceptSync r s).1.fmt = s.fmt ∧
    (acceptSync r s).1.ports = s.ports ∧
    (acceptSync r s).1.settings = s.settings ∧
    (acceptSync r s).1.pending = s.pending := by
  unfold acceptSync; dsimp only; (repeat' split) <;> simp

@[simp] theorem acceptSync_host_phase (r : ℕ) (s : State) :
    (acceptSync r s).1.host.phase = s.host.phase := by
  unfold acceptSync; dsimp only; (repeat' split) <;> simp

@[simp] theorem acceptSync_host_replies (r : ℕ) (s : State) :
    (acceptSync r s).1.host.replies = s.host.replies := by
  unfold acceptSync; dsimp only; (repeat' split) <;> simp

@[simp] theorem acceptSync_host_rate (r : ℕ) (s : State) :
    (acceptSync r s).1.host.rate = s.host.rate := by
  unfold acceptSync; dsimp only; (repeat' split) <;> simp

@[simp] theorem syncMarkRule_frame (payload : Bytes) (s : State) :
    (syncMarkRule payload s).1.links = s.links ∧
    (syncMarkRule payload s).1.formers = s.formers ∧
    (syncMarkRule payload s).1.seqCounter = s.seqCounter ∧
    (syncMarkRule payload s).1.floor = s.floor ∧
    (syncMarkRule payload s).1.flash = s.flash ∧
    (syncMarkRule payload s).1.store = s.store ∧
    (syncMarkRule payload s).1.log = s.log ∧
    (syncMarkRule payload s).1.dict = s.dict ∧
    (syncMarkRule payload s).1.trans = s.trans ∧
    (syncMarkRule payload s).1.script = s.script ∧
    (syncMarkRule payload s).1.feeds = s.feeds ∧
    (syncMarkRule payload s).1.fmt = s.fmt ∧
    (syncMarkRule payload s).1.ports = s.ports ∧
    (syncMarkRule payload s).1.settings = s.settings ∧
    (syncMarkRule payload s).1.pending = s.pending := by
  unfold syncMarkRule; dsimp only; (repeat' split) <;> simp

@[simp] theorem syncMarkRule_host_phase (payload : Bytes) (s : State) :
    (syncMarkRule payload s).1.host.phase = s.host.phase := by
  unfold syncMarkRule; dsimp only; (repeat' split) <;> simp

@[simp] theorem syncMarkRule_host_replies (payload : Bytes) (s : State) :
    (syncMarkRule payload s).1.host.replies = s.host.replies := by
  unfold syncMarkRule; dsimp only; (repeat' split) <;> simp

@[simp] theorem syncMarkRule_host_rate (payload : Bytes) (s : State) :
    (syncMarkRule payload s).1.host.rate = s.host.rate := by
  unfold syncMarkRule; dsimp only; (repeat' split) <;> simp

/-! ### Positions -/

@[simp] theorem enablePos_frame (p : Pos) (s : State) :
    (enablePos p s).links = s.links ∧
    (enablePos p s).seqCounter = s.seqCounter ∧
    (enablePos p s).time = s.time ∧
    (enablePos p s).flash = s.flash ∧
    (enablePos p s).store = s.store ∧
    (enablePos p s).log = s.log ∧
    (enablePos p s).dict = s.dict ∧
    (enablePos p s).trans = s.trans ∧
    (enablePos p s).script = s.script ∧
    (enablePos p s).feeds = s.feeds ∧
    (enablePos p s).fmt = s.fmt ∧
    (enablePos p s).ports = s.ports ∧
    (enablePos p s).host = s.host ∧
    (enablePos p s).conds = s.conds ∧
    (enablePos p s).settings = s.settings ∧
    (enablePos p s).pending = s.pending := by
  unfold enablePos; (repeat' split) <;> simp

@[simp] theorem disablePos_frame (p : Pos) (s : State) :
    (disablePos p s).links = s.links ∧
    (disablePos p s).seqCounter = s.seqCounter ∧
    (disablePos p s).flash = s.flash ∧
    (disablePos p s).dict = s.dict ∧
    (disablePos p s).fmt = s.fmt ∧
    (disablePos p s).ports = s.ports ∧
    (disablePos p s).settings = s.settings ∧
    (disablePos p s).pending = s.pending := by
  unfold disablePos; (repeat' split) <;> simp

@[simp] theorem disablePos_time_rate (p : Pos) (s : State) :
    (disablePos p s).time.rate = s.time.rate := by
  unfold disablePos; (repeat' split) <;> simp

@[simp] theorem disablePos_time_now (p : Pos) (s : State) :
    (disablePos p s).time.now = s.time.now := by
  unfold disablePos; (repeat' split) <;> simp

@[simp] theorem disablePos_host_phase (p : Pos) (s : State) :
    (disablePos p s).host.phase = s.host.phase := by
  unfold disablePos; (repeat' split) <;> simp

@[simp] theorem disablePos_host_replies (p : Pos) (s : State) :
    (disablePos p s).host.replies = s.host.replies := by
  unfold disablePos; (repeat' split) <;> simp

@[simp] theorem disablePos_host_rate (p : Pos) (s : State) :
    (disablePos p s).host.rate = s.host.rate := by
  unfold disablePos; (repeat' split) <;> simp

@[simp] theorem disablePos_log_flush (p : Pos) (s : State) :
    (disablePos p s).log.flush = s.log.flush := by
  unfold disablePos; (repeat' split) <;> simp

@[simp] theorem disablePos_script_session (p : Pos) (s : State) :
    (disablePos p s).script.session = s.script.session := by
  unfold disablePos; (repeat' split) <;> simp

@[simp] theorem writerEnableRule_frame (payload : Bytes) (s : State) :
    (writerEnableRule payload s).1.links = s.links ∧
    (writerEnableRule payload s).1.seqCounter = s.seqCounter ∧
    (writerEnableRule payload s).1.flash = s.flash ∧
    (writerEnableRule payload s).1.dict = s.dict ∧
    (writerEnableRule payload s).1.fmt = s.fmt ∧
    (writerEnableRule payload s).1.ports = s.ports ∧
    (writerEnableRule payload s).1.settings = s.settings ∧
    (writerEnableRule payload s).1.pending = s.pending := by
  unfold writerEnableRule; (repeat' split) <;> simp

@[simp] theorem writerEnableRule_time_rate (payload : Bytes) (s : State) :
    (writerEnableRule payload s).1.time.rate = s.time.rate := by
  unfold writerEnableRule; (repeat' split) <;> simp

@[simp] theorem writerEnableRule_time_now (payload : Bytes) (s : State) :
    (writerEnableRule payload s).1.time.now = s.time.now := by
  unfold writerEnableRule; (repeat' split) <;> simp

@[simp] theorem writerEnableRule_host_phase (payload : Bytes) (s : State) :
    (writerEnableRule payload s).1.host.phase = s.host.phase := by
  unfold writerEnableRule; (repeat' split) <;> simp

@[simp] theorem writerEnableRule_host_replies (payload : Bytes) (s : State) :
    (writerEnableRule payload s).1.host.replies = s.host.replies := by
  unfold writerEnableRule; (repeat' split) <;> simp

@[simp] theorem writerEnableRule_host_rate (payload : Bytes) (s : State) :
    (writerEnableRule payload s).1.host.rate = s.host.rate := by
  unfold writerEnableRule; (repeat' split) <;> simp

@[simp] theorem writerEnableRule_log_flush (payload : Bytes) (s : State) :
    (writerEnableRule payload s).1.log.flush = s.log.flush := by
  unfold writerEnableRule; (repeat' split) <;> simp

@[simp] theorem writerEnableRule_script_session (payload : Bytes) (s : State) :
    (writerEnableRule payload s).1.script.session = s.script.session := by
  unfold writerEnableRule; (repeat' split) <;> simp

@[simp] theorem handoverTo_frame (p : Pos) (s : State) :
    (handoverTo p s).1.links = s.links ∧
    (handoverTo p s).1.formers = s.formers ∧
    (handoverTo p s).1.seqCounter = s.seqCounter ∧
    (handoverTo p s).1.flash = s.flash ∧
    (handoverTo p s).1.dict = s.dict ∧
    (handoverTo p s).1.trans = s.trans ∧
    (handoverTo p s).1.script = s.script ∧
    (handoverTo p s).1.feeds = s.feeds ∧
    (handoverTo p s).1.fmt = s.fmt ∧
    (handoverTo p s).1.ports = s.ports ∧
    (handoverTo p s).1.settings = s.settings ∧
    (handoverTo p s).1.pending = s.pending := by
  unfold handoverTo; (repeat' split) <;> simp

@[simp] theorem handoverTo_time_rate (p : Pos) (s : State) :
    (handoverTo p s).1.time.rate = s.time.rate := by
  unfold handoverTo; (repeat' split) <;> simp

@[simp] theorem handoverTo_time_now (p : Pos) (s : State) :
    (handoverTo p s).1.time.now = s.time.now := by
  unfold handoverTo; (repeat' split) <;> simp

@[simp] theorem handoverTo_host_phase (p : Pos) (s : State) :
    (handoverTo p s).1.host.phase = s.host.phase := by
  unfold handoverTo; (repeat' split) <;> simp

@[simp] theorem handoverTo_host_replies (p : Pos) (s : State) :
    (handoverTo p s).1.host.replies = s.host.replies := by
  unfold handoverTo; (repeat' split) <;> simp

@[simp] theorem handoverTo_host_rate (p : Pos) (s : State) :
    (handoverTo p s).1.host.rate = s.host.rate := by
  unfold handoverTo; (repeat' split) <;> simp

@[simp] theorem handoverTo_log_flush (p : Pos) (s : State) :
    (handoverTo p s).1.log.flush = s.log.flush := by
  unfold handoverTo; (repeat' split) <;> simp

@[simp] theorem handoverRule_frame (payload : Bytes) (s : State) :
    (handoverRule payload s).1.links = s.links ∧
    (handoverRule payload s).1.formers = s.formers ∧
    (handoverRule payload s).1.seqCounter = s.seqCounter ∧
    (handoverRule payload s).1.flash = s.flash ∧
    (handoverRule payload s).1.dict = s.dict ∧
    (handoverRule payload s).1.trans = s.trans ∧
    (handoverRule payload s).1.script = s.script ∧
    (handoverRule payload s).1.feeds = s.feeds ∧
    (handoverRule payload s).1.fmt = s.fmt ∧
    (handoverRule payload s).1.ports = s.ports ∧
    (handoverRule payload s).1.settings = s.settings ∧
    (handoverRule payload s).1.pending = s.pending := by
  unfold handoverRule; (repeat' split) <;> simp

@[simp] theorem handoverRule_time_rate (payload : Bytes) (s : State) :
    (handoverRule payload s).1.time.rate = s.time.rate := by
  unfold handoverRule; (repeat' split) <;> simp

@[simp] theorem handoverRule_time_now (payload : Bytes) (s : State) :
    (handoverRule payload s).1.time.now = s.time.now := by
  unfold handoverRule; (repeat' split) <;> simp

@[simp] theorem handoverRule_host_phase (payload : Bytes) (s : State) :
    (handoverRule payload s).1.host.phase = s.host.phase := by
  unfold handoverRule; (repeat' split) <;> simp

@[simp] theorem handoverRule_host_replies (payload : Bytes) (s : State) :
    (handoverRule payload s).1.host.replies = s.host.replies := by
  unfold handoverRule; (repeat' split) <;> simp

@[simp] theorem handoverRule_host_rate (payload : Bytes) (s : State) :
    (handoverRule payload s).1.host.rate = s.host.rate := by
  unfold handoverRule; (repeat' split) <;> simp

@[simp] theorem handoverRule_log_flush (payload : Bytes) (s : State) :
    (handoverRule payload s).1.log.flush = s.log.flush := by
  unfold handoverRule; (repeat' split) <;> simp

/-! ### NoteStore -/

@[simp] theorem suspendTook_frame (status : FlashStatus) (s : State) :
    (suspendTook status s).links = s.links ∧
    (suspendTook status s).formers = s.formers ∧
    (suspendTook status s).seqCounter = s.seqCounter ∧
    (suspendTook status s).floor = s.floor ∧
    (suspendTook status s).trans = s.trans ∧
    (suspendTook status s).script = s.script ∧
    (suspendTook status s).feeds = s.feeds ∧
    (suspendTook status s).fmt = s.fmt ∧
    (suspendTook status s).ports = s.ports ∧
    (suspendTook status s).settings = s.settings ∧
    (suspendTook status s).pending = s.pending := by
  unfold suspendTook; dsimp only; (repeat' split) <;> simp

@[simp] theorem suspendTook_time_rate (status : FlashStatus) (s : State) :
    (suspendTook status s).time.rate = s.time.rate := by
  unfold suspendTook; dsimp only; (repeat' split) <;> simp

@[simp] theorem suspendTook_time_now (status : FlashStatus) (s : State) :
    (suspendTook status s).time.now = s.time.now := by
  unfold suspendTook; dsimp only; (repeat' split) <;> simp

@[simp] theorem suspendTook_host_phase (status : FlashStatus) (s : State) :
    (suspendTook status s).host.phase = s.host.phase := by
  unfold suspendTook; dsimp only; (repeat' split) <;> simp

@[simp] theorem suspendTook_host_replies (status : FlashStatus) (s : State) :
    (suspendTook status s).host.replies = s.host.replies := by
  unfold suspendTook; dsimp only; (repeat' split) <;> simp

@[simp] theorem suspendTook_host_rate (status : FlashStatus) (s : State) :
    (suspendTook status s).host.rate = s.host.rate := by
  unfold suspendTook; dsimp only; (repeat' split) <;> simp

@[simp] theorem suspendTook_log_flush (status : FlashStatus) (s : State) :
    (suspendTook status s).log.flush = s.log.flush := by
  unfold suspendTook; dsimp only; (repeat' split) <;> simp

/-! ### Translation -/

@[simp] theorem beginRunLookups_frame (work : List StrokeRec) (p : Pos) (s : State) (r : ℕ × ℕ) :
    (beginRunLookups work p s r).links = s.links ∧
    (beginRunLookups work p s r).formers = s.formers ∧
    (beginRunLookups work p s r).seqCounter = s.seqCounter ∧
    (beginRunLookups work p s r).floor = s.floor ∧
    (beginRunLookups work p s r).time = s.time ∧
    (beginRunLookups work p s r).flash = s.flash ∧
    (beginRunLookups work p s r).log = s.log ∧
    (beginRunLookups work p s r).script = s.script ∧
    (beginRunLookups work p s r).feeds = s.feeds ∧
    (beginRunLookups work p s r).fmt = s.fmt ∧
    (beginRunLookups work p s r).ports = s.ports ∧
    (beginRunLookups work p s r).host = s.host ∧
    (beginRunLookups work p s r).conds = s.conds ∧
    (beginRunLookups work p s r).settings = s.settings ∧
    (beginRunLookups work p s r).pending = s.pending := by
  unfold beginRunLookups; simp

@[simp] theorem beginLookups_frame (work : List StrokeRec) (p : Pos) (s : State) :
    (beginLookups work p s).links = s.links ∧
    (beginLookups work p s).formers = s.formers ∧
    (beginLookups work p s).seqCounter = s.seqCounter ∧
    (beginLookups work p s).floor = s.floor ∧
    (beginLookups work p s).time = s.time ∧
    (beginLookups work p s).flash = s.flash ∧
    (beginLookups work p s).log = s.log ∧
    (beginLookups work p s).script = s.script ∧
    (beginLookups work p s).feeds = s.feeds ∧
    (beginLookups work p s).fmt = s.fmt ∧
    (beginLookups work p s).ports = s.ports ∧
    (beginLookups work p s).host = s.host ∧
    (beginLookups work p s).conds = s.conds ∧
    (beginLookups work p s).settings = s.settings ∧
    (beginLookups work p s).pending = s.pending := by
  unfold beginLookups; simp

@[simp] theorem takeStroke_frame (x : StrokeRec) (s : State) :
    (takeStroke x s).links = s.links ∧
    (takeStroke x s).formers = s.formers ∧
    (takeStroke x s).seqCounter = s.seqCounter ∧
    (takeStroke x s).flash = s.flash ∧
    (takeStroke x s).fmt = s.fmt ∧
    (takeStroke x s).ports = s.ports ∧
    (takeStroke x s).settings = s.settings ∧
    (takeStroke x s).pending = s.pending := by
  unfold takeStroke; dsimp only; (repeat' split) <;> simp

@[simp] theorem takeStroke_time_rate (x : StrokeRec) (s : State) :
    (takeStroke x s).time.rate = s.time.rate := by
  unfold takeStroke; dsimp only; (repeat' split) <;> simp

@[simp] theorem takeStroke_time_now (x : StrokeRec) (s : State) :
    (takeStroke x s).time.now = s.time.now := by
  unfold takeStroke; dsimp only; (repeat' split) <;> simp

@[simp] theorem takeStroke_host_phase (x : StrokeRec) (s : State) :
    (takeStroke x s).host.phase = s.host.phase := by
  unfold takeStroke; dsimp only; (repeat' split) <;> simp

@[simp] theorem takeStroke_host_replies (x : StrokeRec) (s : State) :
    (takeStroke x s).host.replies = s.host.replies := by
  unfold takeStroke; dsimp only; (repeat' split) <;> simp

@[simp] theorem takeStroke_host_rate (x : StrokeRec) (s : State) :
    (takeStroke x s).host.rate = s.host.rate := by
  unfold takeStroke; dsimp only; (repeat' split) <;> simp

@[simp] theorem takeStroke_script_session (x : StrokeRec) (s : State) :
    (takeStroke x s).script.session = s.script.session := by
  unfold takeStroke; dsimp only; (repeat' split) <;> simp

/-! ### Sessions -/

@[simp] theorem openTranscript_frame (p : Bytes) (s : State) :
    (openTranscript p s).links = s.links ∧
    (openTranscript p s).formers = s.formers ∧
    (openTranscript p s).seqCounter = s.seqCounter ∧
    (openTranscript p s).floor = s.floor ∧
    (openTranscript p s).flash = s.flash ∧
    (openTranscript p s).store = s.store ∧
    (openTranscript p s).log = s.log ∧
    (openTranscript p s).dict = s.dict ∧
    (openTranscript p s).trans = s.trans ∧
    (openTranscript p s).fmt = s.fmt ∧
    (openTranscript p s).ports = s.ports ∧
    (openTranscript p s).settings = s.settings ∧
    (openTranscript p s).pending = s.pending := by
  unfold openTranscript; simp

@[simp] theorem openTranscript_time_rate (p : Bytes) (s : State) :
    (openTranscript p s).time.rate = s.time.rate := by
  unfold openTranscript; simp

@[simp] theorem openTranscript_time_now (p : Bytes) (s : State) :
    (openTranscript p s).time.now = s.time.now := by
  unfold openTranscript; simp

@[simp] theorem openTranscript_host_phase (p : Bytes) (s : State) :
    (openTranscript p s).host.phase = s.host.phase := by
  unfold openTranscript; simp

@[simp] theorem openTranscript_host_replies (p : Bytes) (s : State) :
    (openTranscript p s).host.replies = s.host.replies := by
  unfold openTranscript; simp

@[simp] theorem openTranscript_host_rate (p : Bytes) (s : State) :
    (openTranscript p s).host.rate = s.host.rate := by
  unfold openTranscript; simp

@[simp] theorem startFloor_frame (s : State) :
    (startFloor s).links = s.links ∧
    (startFloor s).formers = s.formers ∧
    (startFloor s).seqCounter = s.seqCounter ∧
    (startFloor s).flash = s.flash ∧
    (startFloor s).dict = s.dict ∧
    (startFloor s).trans = s.trans ∧
    (startFloor s).script = s.script ∧
    (startFloor s).feeds = s.feeds ∧
    (startFloor s).fmt = s.fmt ∧
    (startFloor s).ports = s.ports ∧
    (startFloor s).settings = s.settings ∧
    (startFloor s).pending = s.pending := by
  unfold startFloor; (repeat' split) <;> simp

@[simp] theorem startFloor_time_rate (s : State) :
    (startFloor s).time.rate = s.time.rate := by
  unfold startFloor; (repeat' split) <;> simp

@[simp] theorem startFloor_time_now (s : State) :
    (startFloor s).time.now = s.time.now := by
  unfold startFloor; (repeat' split) <;> simp

@[simp] theorem startFloor_host_phase (s : State) :
    (startFloor s).host.phase = s.host.phase := by
  unfold startFloor; (repeat' split) <;> simp

@[simp] theorem startFloor_host_replies (s : State) :
    (startFloor s).host.replies = s.host.replies := by
  unfold startFloor; (repeat' split) <;> simp

@[simp] theorem startFloor_host_rate (s : State) :
    (startFloor s).host.rate = s.host.rate := by
  unfold startFloor; (repeat' split) <;> simp

@[simp] theorem startFloor_log_flush (s : State) :
    (startFloor s).log.flush = s.log.flush := by
  unfold startFloor; (repeat' split) <;> simp

@[simp] theorem openBlocks_frame (epoch : ℕ) (s : State) :
    (openBlocks epoch s).links = s.links ∧
    (openBlocks epoch s).floor = s.floor ∧
    (openBlocks epoch s).flash = s.flash ∧
    (openBlocks epoch s).store = s.store ∧
    (openBlocks epoch s).log = s.log ∧
    (openBlocks epoch s).dict = s.dict ∧
    (openBlocks epoch s).script = s.script ∧
    (openBlocks epoch s).feeds = s.feeds ∧
    (openBlocks epoch s).fmt = s.fmt ∧
    (openBlocks epoch s).ports = s.ports ∧
    (openBlocks epoch s).host = s.host ∧
    (openBlocks epoch s).conds = s.conds ∧
    (openBlocks epoch s).settings = s.settings ∧
    (openBlocks epoch s).pending = s.pending := by
  unfold openBlocks; simp

@[simp] theorem takeOpen_frame (p : Bytes) (s : State) :
    (takeOpen p s).1.links = s.links ∧
    (takeOpen p s).1.flash = s.flash ∧
    (takeOpen p s).1.dict = s.dict ∧
    (takeOpen p s).1.fmt = s.fmt ∧
    (takeOpen p s).1.ports = s.ports ∧
    (takeOpen p s).1.settings = s.settings ∧
    (takeOpen p s).1.pending = s.pending := by
  unfold takeOpen; simp

@[simp] theorem takeOpen_host_phase (p : Bytes) (s : State) :
    (takeOpen p s).1.host.phase = s.host.phase := by
  unfold takeOpen; simp

@[simp] theorem takeOpen_host_replies (p : Bytes) (s : State) :
    (takeOpen p s).1.host.replies = s.host.replies := by
  unfold takeOpen; simp

@[simp] theorem takeOpen_host_rate (p : Bytes) (s : State) :
    (takeOpen p s).1.host.rate = s.host.rate := by
  unfold takeOpen; simp

@[simp] theorem takeOpen_log_flush (p : Bytes) (s : State) :
    (takeOpen p s).1.log.flush = s.log.flush := by
  unfold takeOpen; simp

@[simp] theorem openRule_frame (p : Bytes) (s : State) :
    (openRule p s).1.links = s.links ∧
    (openRule p s).1.flash = s.flash ∧
    (openRule p s).1.dict = s.dict ∧
    (openRule p s).1.fmt = s.fmt ∧
    (openRule p s).1.ports = s.ports ∧
    (openRule p s).1.settings = s.settings ∧
    (openRule p s).1.pending = s.pending := by
  unfold openRule; (repeat' split) <;> simp

@[simp] theorem openRule_host_phase (p : Bytes) (s : State) :
    (openRule p s).1.host.phase = s.host.phase := by
  unfold openRule; (repeat' split) <;> simp

@[simp] theorem openRule_host_replies (p : Bytes) (s : State) :
    (openRule p s).1.host.replies = s.host.replies := by
  unfold openRule; (repeat' split) <;> simp

@[simp] theorem openRule_host_rate (p : Bytes) (s : State) :
    (openRule p s).1.host.rate = s.host.rate := by
  unfold openRule; (repeat' split) <;> simp

@[simp] theorem openRule_log_flush (p : Bytes) (s : State) :
    (openRule p s).1.log.flush = s.log.flush := by
  unfold openRule; (repeat' split) <;> simp

@[simp] theorem beginClosing_frame (tag : Option Byte) (s : State) :
    (beginClosing tag s).links = s.links ∧
    (beginClosing tag s).formers = s.formers ∧
    (beginClosing tag s).seqCounter = s.seqCounter ∧
    (beginClosing tag s).floor = s.floor ∧
    (beginClosing tag s).flash = s.flash ∧
    (beginClosing tag s).store = s.store ∧
    (beginClosing tag s).log = s.log ∧
    (beginClosing tag s).dict = s.dict ∧
    (beginClosing tag s).trans = s.trans ∧
    (beginClosing tag s).feeds = s.feeds ∧
    (beginClosing tag s).fmt = s.fmt ∧
    (beginClosing tag s).ports = s.ports ∧
    (beginClosing tag s).settings = s.settings ∧
    (beginClosing tag s).pending = s.pending := by
  unfold beginClosing; simp

@[simp] theorem beginClosing_time_rate (tag : Option Byte) (s : State) :
    (beginClosing tag s).time.rate = s.time.rate := by
  unfold beginClosing; simp

@[simp] theorem beginClosing_time_now (tag : Option Byte) (s : State) :
    (beginClosing tag s).time.now = s.time.now := by
  unfold beginClosing; simp

@[simp] theorem beginClosing_host_phase (tag : Option Byte) (s : State) :
    (beginClosing tag s).host.phase = s.host.phase := by
  unfold beginClosing; simp

@[simp] theorem beginClosing_host_replies (tag : Option Byte) (s : State) :
    (beginClosing tag s).host.replies = s.host.replies := by
  unfold beginClosing; simp

@[simp] theorem beginClosing_host_rate (tag : Option Byte) (s : State) :
    (beginClosing tag s).host.rate = s.host.rate := by
  unfold beginClosing; simp

@[simp] theorem closeRule_frame (tag : Byte) (s : State) :
    (closeRule tag s).1.links = s.links ∧
    (closeRule tag s).1.seqCounter = s.seqCounter ∧
    (closeRule tag s).1.flash = s.flash ∧
    (closeRule tag s).1.dict = s.dict ∧
    (closeRule tag s).1.fmt = s.fmt ∧
    (closeRule tag s).1.ports = s.ports ∧
    (closeRule tag s).1.settings = s.settings ∧
    (closeRule tag s).1.pending = s.pending := by
  unfold closeRule; (repeat' split) <;> simp

@[simp] theorem closeRule_time_rate (tag : Byte) (s : State) :
    (closeRule tag s).1.time.rate = s.time.rate := by
  unfold closeRule; (repeat' split) <;> simp

@[simp] theorem closeRule_time_now (tag : Byte) (s : State) :
    (closeRule tag s).1.time.now = s.time.now := by
  unfold closeRule; (repeat' split) <;> simp

@[simp] theorem closeRule_host_phase (tag : Byte) (s : State) :
    (closeRule tag s).1.host.phase = s.host.phase := by
  unfold closeRule; (repeat' split) <;> simp

@[simp] theorem closeRule_host_replies (tag : Byte) (s : State) :
    (closeRule tag s).1.host.replies = s.host.replies := by
  unfold closeRule; (repeat' split) <;> simp

@[simp] theorem closeRule_host_rate (tag : Byte) (s : State) :
    (closeRule tag s).1.host.rate = s.host.rate := by
  unfold closeRule; (repeat' split) <;> simp

@[simp] theorem lockRule_frame (p : Bytes) (s : State) :
    (lockRule p s).1.links = s.links ∧
    (lockRule p s).1.formers = s.formers ∧
    (lockRule p s).1.seqCounter = s.seqCounter ∧
    (lockRule p s).1.floor = s.floor ∧
    (lockRule p s).1.time = s.time ∧
    (lockRule p s).1.flash = s.flash ∧
    (lockRule p s).1.store = s.store ∧
    (lockRule p s).1.log = s.log ∧
    (lockRule p s).1.dict = s.dict ∧
    (lockRule p s).1.trans = s.trans ∧
    (lockRule p s).1.feeds = s.feeds ∧
    (lockRule p s).1.fmt = s.fmt ∧
    (lockRule p s).1.ports = s.ports ∧
    (lockRule p s).1.host = s.host ∧
    (lockRule p s).1.conds = s.conds ∧
    (lockRule p s).1.settings = s.settings ∧
    (lockRule p s).1.pending = s.pending := by
  unfold lockRule; dsimp only; (repeat' split) <;> simp

@[simp] theorem lockRule_script_session (p : Bytes) (s : State) :
    (lockRule p s).1.script.session = s.script.session := by
  unfold lockRule; dsimp only; (repeat' split) <;> simp

@[simp] theorem unlockRule_frame (s : State) :
    (unlockRule s).1.links = s.links ∧
    (unlockRule s).1.formers = s.formers ∧
    (unlockRule s).1.seqCounter = s.seqCounter ∧
    (unlockRule s).1.floor = s.floor ∧
    (unlockRule s).1.time = s.time ∧
    (unlockRule s).1.flash = s.flash ∧
    (unlockRule s).1.store = s.store ∧
    (unlockRule s).1.log = s.log ∧
    (unlockRule s).1.dict = s.dict ∧
    (unlockRule s).1.trans = s.trans ∧
    (unlockRule s).1.feeds = s.feeds ∧
    (unlockRule s).1.fmt = s.fmt ∧
    (unlockRule s).1.ports = s.ports ∧
    (unlockRule s).1.host = s.host ∧
    (unlockRule s).1.conds = s.conds ∧
    (unlockRule s).1.settings = s.settings ∧
    (unlockRule s).1.pending = s.pending := by
  unfold unlockRule; (repeat' split) <;> simp

@[simp] theorem unlockRule_script_session (s : State) :
    (unlockRule s).1.script.session = s.script.session := by
  unfold unlockRule; (repeat' split) <;> simp

@[simp] theorem timeoutLock_frame (s : State) :
    (timeoutLock s).links = s.links ∧
    (timeoutLock s).formers = s.formers ∧
    (timeoutLock s).seqCounter = s.seqCounter ∧
    (timeoutLock s).floor = s.floor ∧
    (timeoutLock s).time = s.time ∧
    (timeoutLock s).flash = s.flash ∧
    (timeoutLock s).store = s.store ∧
    (timeoutLock s).log = s.log ∧
    (timeoutLock s).dict = s.dict ∧
    (timeoutLock s).trans = s.trans ∧
    (timeoutLock s).feeds = s.feeds ∧
    (timeoutLock s).fmt = s.fmt ∧
    (timeoutLock s).ports = s.ports ∧
    (timeoutLock s).host = s.host ∧
    (timeoutLock s).conds = s.conds ∧
    (timeoutLock s).settings = s.settings ∧
    (timeoutLock s).pending = s.pending := by
  unfold timeoutLock; simp

@[simp] theorem timeoutLock_script_session (s : State) :
    (timeoutLock s).script.session = s.script.session := by
  unfold timeoutLock; simp

@[simp] theorem takeEdit_frame (n : ℕ) (text : Bytes) (join : Bool) (s : State) :
    (takeEdit n text join s).links = s.links ∧
    (takeEdit n text join s).formers = s.formers ∧
    (takeEdit n text join s).seqCounter = s.seqCounter ∧
    (takeEdit n text join s).floor = s.floor ∧
    (takeEdit n text join s).time = s.time ∧
    (takeEdit n text join s).flash = s.flash ∧
    (takeEdit n text join s).store = s.store ∧
    (takeEdit n text join s).log = s.log ∧
    (takeEdit n text join s).dict = s.dict ∧
    (takeEdit n text join s).fmt = s.fmt ∧
    (takeEdit n text join s).ports = s.ports ∧
    (takeEdit n text join s).host = s.host ∧
    (takeEdit n text join s).conds = s.conds ∧
    (takeEdit n text join s).settings = s.settings ∧
    (takeEdit n text join s).pending = s.pending := by
  unfold takeEdit; simp

@[simp] theorem takeEdit_script_session (n : ℕ) (text : Bytes) (join : Bool) (s : State) :
    (takeEdit n text join s).script.session = s.script.session := by
  unfold takeEdit; simp

@[simp] theorem editRule_frame (p : Bytes) (s : State) :
    (editRule p s).1.links = s.links ∧
    (editRule p s).1.formers = s.formers ∧
    (editRule p s).1.seqCounter = s.seqCounter ∧
    (editRule p s).1.floor = s.floor ∧
    (editRule p s).1.time = s.time ∧
    (editRule p s).1.flash = s.flash ∧
    (editRule p s).1.store = s.store ∧
    (editRule p s).1.log = s.log ∧
    (editRule p s).1.dict = s.dict ∧
    (editRule p s).1.fmt = s.fmt ∧
    (editRule p s).1.ports = s.ports ∧
    (editRule p s).1.host = s.host ∧
    (editRule p s).1.conds = s.conds ∧
    (editRule p s).1.settings = s.settings ∧
    (editRule p s).1.pending = s.pending := by
  unfold editRule; dsimp only; (repeat' split) <;> simp

@[simp] theorem editRule_script_session (p : Bytes) (s : State) :
    (editRule p s).1.script.session = s.script.session := by
  unfold editRule; dsimp only; (repeat' split) <;> simp

@[simp] theorem reclassUnit_frame (c : Cls) (s : State) (u : TUnit) :
    (reclassUnit c s u).links = s.links ∧
    (reclassUnit c s u).formers = s.formers ∧
    (reclassUnit c s u).seqCounter = s.seqCounter ∧
    (reclassUnit c s u).floor = s.floor ∧
    (reclassUnit c s u).time = s.time ∧
    (reclassUnit c s u).flash = s.flash ∧
    (reclassUnit c s u).store = s.store ∧
    (reclassUnit c s u).log = s.log ∧
    (reclassUnit c s u).dict = s.dict ∧
    (reclassUnit c s u).trans = s.trans ∧
    (reclassUnit c s u).fmt = s.fmt ∧
    (reclassUnit c s u).ports = s.ports ∧
    (reclassUnit c s u).host = s.host ∧
    (reclassUnit c s u).conds = s.conds ∧
    (reclassUnit c s u).settings = s.settings ∧
    (reclassUnit c s u).pending = s.pending := by
  unfold reclassUnit; simp

@[simp] theorem reclassUnit_script_session (c : Cls) (s : State) (u : TUnit) :
    (reclassUnit c s u).script.session = s.script.session := by
  unfold reclassUnit; simp

@[simp] theorem reclassifyRule_frame (p : Bytes) (s : State) :
    (reclassifyRule p s).1.links = s.links ∧
    (reclassifyRule p s).1.formers = s.formers ∧
    (reclassifyRule p s).1.seqCounter = s.seqCounter ∧
    (reclassifyRule p s).1.floor = s.floor ∧
    (reclassifyRule p s).1.time = s.time ∧
    (reclassifyRule p s).1.flash = s.flash ∧
    (reclassifyRule p s).1.store = s.store ∧
    (reclassifyRule p s).1.log = s.log ∧
    (reclassifyRule p s).1.dict = s.dict ∧
    (reclassifyRule p s).1.trans = s.trans ∧
    (reclassifyRule p s).1.fmt = s.fmt ∧
    (reclassifyRule p s).1.ports = s.ports ∧
    (reclassifyRule p s).1.host = s.host ∧
    (reclassifyRule p s).1.conds = s.conds ∧
    (reclassifyRule p s).1.settings = s.settings ∧
    (reclassifyRule p s).1.pending = s.pending := by
  unfold reclassifyRule; dsimp only; (repeat' split) <;> simp

@[simp] theorem reclassifyRule_script_session (p : Bytes) (s : State) :
    (reclassifyRule p s).1.script.session = s.script.session := by
  unfold reclassifyRule; dsimp only; (repeat' split) <;> simp

@[simp] theorem readbackRule_frame (tag : Byte) (p : Bytes) (s : State) :
    (readbackRule tag p s).1.links = s.links ∧
    (readbackRule tag p s).1.formers = s.formers ∧
    (readbackRule tag p s).1.seqCounter = s.seqCounter ∧
    (readbackRule tag p s).1.floor = s.floor ∧
    (readbackRule tag p s).1.time = s.time ∧
    (readbackRule tag p s).1.flash = s.flash ∧
    (readbackRule tag p s).1.store = s.store ∧
    (readbackRule tag p s).1.log = s.log ∧
    (readbackRule tag p s).1.dict = s.dict ∧
    (readbackRule tag p s).1.trans = s.trans ∧
    (readbackRule tag p s).1.feeds = s.feeds ∧
    (readbackRule tag p s).1.fmt = s.fmt ∧
    (readbackRule tag p s).1.ports = s.ports ∧
    (readbackRule tag p s).1.host = s.host ∧
    (readbackRule tag p s).1.conds = s.conds ∧
    (readbackRule tag p s).1.settings = s.settings ∧
    (readbackRule tag p s).1.pending = s.pending := by
  unfold readbackRule; (repeat' split) <;> simp

@[simp] theorem readbackRule_script_session (tag : Byte) (p : Bytes) (s : State) :
    (readbackRule tag p s).1.script.session = s.script.session := by
  unfold readbackRule; (repeat' split) <;> simp

@[simp] theorem searchOn_frame (q : Search) (s : State) :
    (searchOn q s).links = s.links ∧
    (searchOn q s).formers = s.formers ∧
    (searchOn q s).seqCounter = s.seqCounter ∧
    (searchOn q s).floor = s.floor ∧
    (searchOn q s).flash = s.flash ∧
    (searchOn q s).store = s.store ∧
    (searchOn q s).log = s.log ∧
    (searchOn q s).dict = s.dict ∧
    (searchOn q s).trans = s.trans ∧
    (searchOn q s).feeds = s.feeds ∧
    (searchOn q s).fmt = s.fmt ∧
    (searchOn q s).ports = s.ports ∧
    (searchOn q s).settings = s.settings ∧
    (searchOn q s).pending = s.pending := by
  unfold searchOn; (repeat' split) <;> simp

@[simp] theorem searchOn_time_rate (q : Search) (s : State) :
    (searchOn q s).time.rate = s.time.rate := by
  unfold searchOn; (repeat' split) <;> simp

@[simp] theorem searchOn_time_now (q : Search) (s : State) :
    (searchOn q s).time.now = s.time.now := by
  unfold searchOn; (repeat' split) <;> simp

@[simp] theorem searchOn_host_phase (q : Search) (s : State) :
    (searchOn q s).host.phase = s.host.phase := by
  unfold searchOn; (repeat' split) <;> simp

@[simp] theorem searchOn_host_replies (q : Search) (s : State) :
    (searchOn q s).host.replies = s.host.replies := by
  unfold searchOn; (repeat' split) <;> simp

@[simp] theorem searchOn_host_rate (q : Search) (s : State) :
    (searchOn q s).host.rate = s.host.rate := by
  unfold searchOn; (repeat' split) <;> simp

@[simp] theorem searchOn_script_session (q : Search) (s : State) :
    (searchOn q s).script.session = s.script.session := by
  unfold searchOn; (repeat' split) <;> simp

@[simp] theorem visitBack_frame (q : Search) (s : State) :
    (visitBack q s).links = s.links ∧
    (visitBack q s).formers = s.formers ∧
    (visitBack q s).seqCounter = s.seqCounter ∧
    (visitBack q s).floor = s.floor ∧
    (visitBack q s).flash = s.flash ∧
    (visitBack q s).store = s.store ∧
    (visitBack q s).log = s.log ∧
    (visitBack q s).dict = s.dict ∧
    (visitBack q s).trans = s.trans ∧
    (visitBack q s).feeds = s.feeds ∧
    (visitBack q s).fmt = s.fmt ∧
    (visitBack q s).ports = s.ports ∧
    (visitBack q s).settings = s.settings ∧
    (visitBack q s).pending = s.pending := by
  unfold visitBack; (repeat' split) <;> simp

@[simp] theorem visitBack_time_rate (q : Search) (s : State) :
    (visitBack q s).time.rate = s.time.rate := by
  unfold visitBack; (repeat' split) <;> simp

@[simp] theorem visitBack_time_now (q : Search) (s : State) :
    (visitBack q s).time.now = s.time.now := by
  unfold visitBack; (repeat' split) <;> simp

@[simp] theorem visitBack_host_phase (q : Search) (s : State) :
    (visitBack q s).host.phase = s.host.phase := by
  unfold visitBack; (repeat' split) <;> simp

@[simp] theorem visitBack_host_replies (q : Search) (s : State) :
    (visitBack q s).host.replies = s.host.replies := by
  unfold visitBack; (repeat' split) <;> simp

@[simp] theorem visitBack_host_rate (q : Search) (s : State) :
    (visitBack q s).host.rate = s.host.rate := by
  unfold visitBack; (repeat' split) <;> simp

@[simp] theorem visitBack_script_session (q : Search) (s : State) :
    (visitBack q s).script.session = s.script.session := by
  unfold visitBack; (repeat' split) <;> simp

@[simp] theorem visitForward_frame (q : Search) (s : State) :
    (visitForward q s).links = s.links ∧
    (visitForward q s).formers = s.formers ∧
    (visitForward q s).seqCounter = s.seqCounter ∧
    (visitForward q s).floor = s.floor ∧
    (visitForward q s).flash = s.flash ∧
    (visitForward q s).store = s.store ∧
    (visitForward q s).log = s.log ∧
    (visitForward q s).dict = s.dict ∧
    (visitForward q s).trans = s.trans ∧
    (visitForward q s).feeds = s.feeds ∧
    (visitForward q s).fmt = s.fmt ∧
    (visitForward q s).ports = s.ports ∧
    (visitForward q s).settings = s.settings ∧
    (visitForward q s).pending = s.pending := by
  unfold visitForward; (repeat' split) <;> simp

@[simp] theorem visitForward_time_rate (q : Search) (s : State) :
    (visitForward q s).time.rate = s.time.rate := by
  unfold visitForward; (repeat' split) <;> simp

@[simp] theorem visitForward_time_now (q : Search) (s : State) :
    (visitForward q s).time.now = s.time.now := by
  unfold visitForward; (repeat' split) <;> simp

@[simp] theorem visitForward_host_phase (q : Search) (s : State) :
    (visitForward q s).host.phase = s.host.phase := by
  unfold visitForward; (repeat' split) <;> simp

@[simp] theorem visitForward_host_replies (q : Search) (s : State) :
    (visitForward q s).host.replies = s.host.replies := by
  unfold visitForward; (repeat' split) <;> simp

@[simp] theorem visitForward_host_rate (q : Search) (s : State) :
    (visitForward q s).host.rate = s.host.rate := by
  unfold visitForward; (repeat' split) <;> simp

@[simp] theorem visitForward_script_session (q : Search) (s : State) :
    (visitForward q s).script.session = s.script.session := by
  unfold visitForward; (repeat' split) <;> simp

/-! ### Ports -/

@[simp] theorem portKick_frame (i : PortId) (s : State) :
    (portKick i s).links = s.links ∧
    (portKick i s).formers = s.formers ∧
    (portKick i s).seqCounter = s.seqCounter ∧
    (portKick i s).floor = s.floor ∧
    (portKick i s).time = s.time ∧
    (portKick i s).flash = s.flash ∧
    (portKick i s).store = s.store ∧
    (portKick i s).log = s.log ∧
    (portKick i s).dict = s.dict ∧
    (portKick i s).trans = s.trans ∧
    (portKick i s).script = s.script ∧
    (portKick i s).feeds = s.feeds ∧
    (portKick i s).fmt = s.fmt ∧
    (portKick i s).host = s.host ∧
    (portKick i s).conds = s.conds ∧
    (portKick i s).settings = s.settings ∧
    (portKick i s).pending = s.pending := by
  unfold portKick; simp

@[simp] theorem portStall_frame (i : PortId) (s : State) :
    (portStall i s).links = s.links ∧
    (portStall i s).formers = s.formers ∧
    (portStall i s).seqCounter = s.seqCounter ∧
    (portStall i s).floor = s.floor ∧
    (portStall i s).flash = s.flash ∧
    (portStall i s).store = s.store ∧
    (portStall i s).log = s.log ∧
    (portStall i s).dict = s.dict ∧
    (portStall i s).trans = s.trans ∧
    (portStall i s).script = s.script ∧
    (portStall i s).fmt = s.fmt ∧
    (portStall i s).settings = s.settings ∧
    (portStall i s).pending = s.pending := by
  unfold portStall; simp

@[simp] theorem portStall_time_rate (i : PortId) (s : State) :
    (portStall i s).time.rate = s.time.rate := by
  unfold portStall; simp

@[simp] theorem portStall_time_now (i : PortId) (s : State) :
    (portStall i s).time.now = s.time.now := by
  unfold portStall; simp

@[simp] theorem portStall_host_phase (i : PortId) (s : State) :
    (portStall i s).host.phase = s.host.phase := by
  unfold portStall; simp

@[simp] theorem portStall_host_replies (i : PortId) (s : State) :
    (portStall i s).host.replies = s.host.replies := by
  unfold portStall; simp

@[simp] theorem portStall_host_rate (i : PortId) (s : State) :
    (portStall i s).host.rate = s.host.rate := by
  unfold portStall; simp

@[simp] theorem portRecover_frame (i : PortId) (s : State) :
    (portRecover i s).links = s.links ∧
    (portRecover i s).formers = s.formers ∧
    (portRecover i s).seqCounter = s.seqCounter ∧
    (portRecover i s).floor = s.floor ∧
    (portRecover i s).flash = s.flash ∧
    (portRecover i s).store = s.store ∧
    (portRecover i s).log = s.log ∧
    (portRecover i s).dict = s.dict ∧
    (portRecover i s).trans = s.trans ∧
    (portRecover i s).script = s.script ∧
    (portRecover i s).fmt = s.fmt ∧
    (portRecover i s).settings = s.settings ∧
    (portRecover i s).pending = s.pending := by
  unfold portRecover; simp

@[simp] theorem portRecover_time_rate (i : PortId) (s : State) :
    (portRecover i s).time.rate = s.time.rate := by
  unfold portRecover; simp

@[simp] theorem portRecover_time_now (i : PortId) (s : State) :
    (portRecover i s).time.now = s.time.now := by
  unfold portRecover; simp

@[simp] theorem portRecover_host_phase (i : PortId) (s : State) :
    (portRecover i s).host.phase = s.host.phase := by
  unfold portRecover; simp

@[simp] theorem portRecover_host_replies (i : PortId) (s : State) :
    (portRecover i s).host.replies = s.host.replies := by
  unfold portRecover; simp

@[simp] theorem portRecover_host_rate (i : PortId) (s : State) :
    (portRecover i s).host.rate = s.host.rate := by
  unfold portRecover; simp

@[simp] theorem takeAck_frame (i : PortId) (q : Byte) (s : State) :
    (takeAck i q s).links = s.links ∧
    (takeAck i q s).formers = s.formers ∧
    (takeAck i q s).seqCounter = s.seqCounter ∧
    (takeAck i q s).floor = s.floor ∧
    (takeAck i q s).flash = s.flash ∧
    (takeAck i q s).store = s.store ∧
    (takeAck i q s).log = s.log ∧
    (takeAck i q s).dict = s.dict ∧
    (takeAck i q s).trans = s.trans ∧
    (takeAck i q s).script = s.script ∧
    (takeAck i q s).fmt = s.fmt ∧
    (takeAck i q s).settings = s.settings ∧
    (takeAck i q s).pending = s.pending := by
  unfold takeAck; (repeat' split) <;> simp

@[simp] theorem takeAck_time_rate (i : PortId) (q : Byte) (s : State) :
    (takeAck i q s).time.rate = s.time.rate := by
  unfold takeAck; (repeat' split) <;> simp

@[simp] theorem takeAck_time_now (i : PortId) (q : Byte) (s : State) :
    (takeAck i q s).time.now = s.time.now := by
  unfold takeAck; (repeat' split) <;> simp

@[simp] theorem takeAck_host_phase (i : PortId) (q : Byte) (s : State) :
    (takeAck i q s).host.phase = s.host.phase := by
  unfold takeAck; (repeat' split) <;> simp

@[simp] theorem takeAck_host_replies (i : PortId) (q : Byte) (s : State) :
    (takeAck i q s).host.replies = s.host.replies := by
  unfold takeAck; (repeat' split) <;> simp

@[simp] theorem takeAck_host_rate (i : PortId) (q : Byte) (s : State) :
    (takeAck i q s).host.rate = s.host.rate := by
  unfold takeAck; (repeat' split) <;> simp

@[simp] theorem takeResync_frame (i : PortId) (s : State) :
    (takeResync i s).links = s.links ∧
    (takeResync i s).formers = s.formers ∧
    (takeResync i s).seqCounter = s.seqCounter ∧
    (takeResync i s).floor = s.floor ∧
    (takeResync i s).flash = s.flash ∧
    (takeResync i s).store = s.store ∧
    (takeResync i s).log = s.log ∧
    (takeResync i s).dict = s.dict ∧
    (takeResync i s).trans = s.trans ∧
    (takeResync i s).script = s.script ∧
    (takeResync i s).fmt = s.fmt ∧
    (takeResync i s).settings = s.settings ∧
    (takeResync i s).pending = s.pending := by
  unfold takeResync; (repeat' split) <;> simp

@[simp] theorem takeResync_time_rate (i : PortId) (s : State) :
    (takeResync i s).time.rate = s.time.rate := by
  unfold takeResync; (repeat' split) <;> simp

@[simp] theorem takeResync_time_now (i : PortId) (s : State) :
    (takeResync i s).time.now = s.time.now := by
  unfold takeResync; (repeat' split) <;> simp

@[simp] theorem takeResync_host_phase (i : PortId) (s : State) :
    (takeResync i s).host.phase = s.host.phase := by
  unfold takeResync; (repeat' split) <;> simp

@[simp] theorem takeResync_host_replies (i : PortId) (s : State) :
    (takeResync i s).host.replies = s.host.replies := by
  unfold takeResync; (repeat' split) <;> simp

@[simp] theorem takeResync_host_rate (i : PortId) (s : State) :
    (takeResync i s).host.rate = s.host.rate := by
  unfold takeResync; (repeat' split) <;> simp

@[simp] theorem handOn_frame (i : FeedId) (f : Frame) (s : State) :
    (handOn i f s).links = s.links ∧
    (handOn i f s).formers = s.formers ∧
    (handOn i f s).seqCounter = s.seqCounter ∧
    (handOn i f s).floor = s.floor ∧
    (handOn i f s).time = s.time ∧
    (handOn i f s).flash = s.flash ∧
    (handOn i f s).store = s.store ∧
    (handOn i f s).log = s.log ∧
    (handOn i f s).dict = s.dict ∧
    (handOn i f s).trans = s.trans ∧
    (handOn i f s).script = s.script ∧
    (handOn i f s).feeds = s.feeds ∧
    (handOn i f s).fmt = s.fmt ∧
    (handOn i f s).conds = s.conds ∧
    (handOn i f s).settings = s.settings ∧
    (handOn i f s).pending = s.pending := by
  unfold handOn; (repeat' split) <;> simp

@[simp] theorem handOn_host_phase (i : FeedId) (f : Frame) (s : State) :
    (handOn i f s).host.phase = s.host.phase := by
  unfold handOn; (repeat' split) <;> simp

@[simp] theorem handOn_host_replies (i : FeedId) (f : Frame) (s : State) :
    (handOn i f s).host.replies = s.host.replies := by
  unfold handOn; (repeat' split) <;> simp

@[simp] theorem handOn_host_rate (i : FeedId) (f : Frame) (s : State) :
    (handOn i f s).host.rate = s.host.rate := by
  unfold handOn; (repeat' split) <;> simp

@[simp] theorem grantTo_frame (i : FeedId) (m : Member) (s : State) :
    (grantTo i m s).links = s.links ∧
    (grantTo i m s).formers = s.formers ∧
    (grantTo i m s).seqCounter = s.seqCounter ∧
    (grantTo i m s).floor = s.floor ∧
    (grantTo i m s).time = s.time ∧
    (grantTo i m s).flash = s.flash ∧
    (grantTo i m s).store = s.store ∧
    (grantTo i m s).log = s.log ∧
    (grantTo i m s).dict = s.dict ∧
    (grantTo i m s).trans = s.trans ∧
    (grantTo i m s).script = s.script ∧
    (grantTo i m s).conds = s.conds ∧
    (grantTo i m s).settings = s.settings ∧
    (grantTo i m s).pending = s.pending := by
  unfold grantTo; (repeat' split) <;> simp

@[simp] theorem grantTo_host_phase (i : FeedId) (m : Member) (s : State) :
    (grantTo i m s).host.phase = s.host.phase := by
  unfold grantTo; (repeat' split) <;> simp

@[simp] theorem grantTo_host_replies (i : FeedId) (m : Member) (s : State) :
    (grantTo i m s).host.replies = s.host.replies := by
  unfold grantTo; (repeat' split) <;> simp

@[simp] theorem grantTo_host_rate (i : FeedId) (m : Member) (s : State) :
    (grantTo i m s).host.rate = s.host.rate := by
  unfold grantTo; (repeat' split) <;> simp

@[simp] theorem feedRepaintRule_frame (payload : Bytes) (s : State) :
    (feedRepaintRule payload s).1.links = s.links ∧
    (feedRepaintRule payload s).1.formers = s.formers ∧
    (feedRepaintRule payload s).1.seqCounter = s.seqCounter ∧
    (feedRepaintRule payload s).1.floor = s.floor ∧
    (feedRepaintRule payload s).1.time = s.time ∧
    (feedRepaintRule payload s).1.flash = s.flash ∧
    (feedRepaintRule payload s).1.store = s.store ∧
    (feedRepaintRule payload s).1.log = s.log ∧
    (feedRepaintRule payload s).1.dict = s.dict ∧
    (feedRepaintRule payload s).1.trans = s.trans ∧
    (feedRepaintRule payload s).1.script = s.script ∧
    (feedRepaintRule payload s).1.fmt = s.fmt ∧
    (feedRepaintRule payload s).1.ports = s.ports ∧
    (feedRepaintRule payload s).1.host = s.host ∧
    (feedRepaintRule payload s).1.conds = s.conds ∧
    (feedRepaintRule payload s).1.settings = s.settings ∧
    (feedRepaintRule payload s).1.pending = s.pending := by
  unfold feedRepaintRule; (repeat' split) <;> simp

/-! ### Link -/

@[simp] theorem restartRule_frame (s : State) :
    (restartRule s).1.links = s.links ∧
    (restartRule s).1.formers = s.formers ∧
    (restartRule s).1.seqCounter = s.seqCounter ∧
    (restartRule s).1.floor = s.floor ∧
    (restartRule s).1.time = s.time ∧
    (restartRule s).1.flash = s.flash ∧
    (restartRule s).1.store = s.store ∧
    (restartRule s).1.log = s.log ∧
    (restartRule s).1.dict = s.dict ∧
    (restartRule s).1.trans = s.trans ∧
    (restartRule s).1.script = s.script ∧
    (restartRule s).1.feeds = s.feeds ∧
    (restartRule s).1.fmt = s.fmt ∧
    (restartRule s).1.ports = s.ports ∧
    (restartRule s).1.conds = s.conds ∧
    (restartRule s).1.settings = s.settings ∧
    (restartRule s).1.pending = s.pending := by
  unfold restartRule; simp

@[simp] theorem restartRule_host_replies (s : State) :
    (restartRule s).1.host.replies = s.host.replies := by
  unfold restartRule; simp

@[simp] theorem restartRule_host_rate (s : State) :
    (restartRule s).1.host.rate = s.host.rate := by
  unfold restartRule; simp

@[simp] theorem abandonOpen_frame (s : State) :
    (abandonOpen s).links = s.links ∧
    (abandonOpen s).seqCounter = s.seqCounter ∧
    (abandonOpen s).floor = s.floor ∧
    (abandonOpen s).time = s.time ∧
    (abandonOpen s).flash = s.flash ∧
    (abandonOpen s).store = s.store ∧
    (abandonOpen s).log = s.log ∧
    (abandonOpen s).dict = s.dict ∧
    (abandonOpen s).trans = s.trans ∧
    (abandonOpen s).script = s.script ∧
    (abandonOpen s).feeds = s.feeds ∧
    (abandonOpen s).fmt = s.fmt ∧
    (abandonOpen s).ports = s.ports ∧
    (abandonOpen s).host = s.host ∧
    (abandonOpen s).conds = s.conds ∧
    (abandonOpen s).settings = s.settings ∧
    (abandonOpen s).pending = s.pending := by
  unfold abandonOpen; simp

@[simp] theorem restartTranslator_frame (s : State) :
    (restartTranslator s).links = s.links ∧
    (restartTranslator s).formers = s.formers ∧
    (restartTranslator s).seqCounter = s.seqCounter ∧
    (restartTranslator s).floor = s.floor ∧
    (restartTranslator s).time = s.time ∧
    (restartTranslator s).flash = s.flash ∧
    (restartTranslator s).store = s.store ∧
    (restartTranslator s).log = s.log ∧
    (restartTranslator s).dict = s.dict ∧
    (restartTranslator s).fmt = s.fmt ∧
    (restartTranslator s).ports = s.ports ∧
    (restartTranslator s).host = s.host ∧
    (restartTranslator s).conds = s.conds ∧
    (restartTranslator s).settings = s.settings ∧
    (restartTranslator s).pending = s.pending := by
  unfold restartTranslator; simp

@[simp] theorem restartTranslator_script_session (s : State) :
    (restartTranslator s).script.session = s.script.session := by
  unfold restartTranslator; simp

@[simp] theorem restartStore_frame (s : State) :
    (restartStore s).links = s.links ∧
    (restartStore s).formers = s.formers ∧
    (restartStore s).seqCounter = s.seqCounter ∧
    (restartStore s).flash = s.flash ∧
    (restartStore s).fmt = s.fmt ∧
    (restartStore s).ports = s.ports ∧
    (restartStore s).settings = s.settings ∧
    (restartStore s).pending = s.pending := by
  unfold restartStore; simp

@[simp] theorem restartStore_time_rate (s : State) :
    (restartStore s).time.rate = s.time.rate := by
  unfold restartStore; simp

@[simp] theorem restartStore_time_now (s : State) :
    (restartStore s).time.now = s.time.now := by
  unfold restartStore; simp

@[simp] theorem restartStore_host_phase (s : State) :
    (restartStore s).host.phase = s.host.phase := by
  unfold restartStore; simp

@[simp] theorem restartStore_host_replies (s : State) :
    (restartStore s).host.replies = s.host.replies := by
  unfold restartStore; simp

@[simp] theorem restartStore_host_rate (s : State) :
    (restartStore s).host.rate = s.host.rate := by
  unfold restartStore; simp

@[simp] theorem restartStore_script_session (s : State) :
    (restartStore s).script.session = s.script.session := by
  unfold restartStore; simp

@[simp] theorem restartScript_frame (s : State) :
    (restartScript s).links = s.links ∧
    (restartScript s).formers = s.formers ∧
    (restartScript s).seqCounter = s.seqCounter ∧
    (restartScript s).flash = s.flash ∧
    (restartScript s).dict = s.dict ∧
    (restartScript s).fmt = s.fmt ∧
    (restartScript s).ports = s.ports ∧
    (restartScript s).settings = s.settings ∧
    (restartScript s).pending = s.pending := by
  unfold restartScript; dsimp only; (repeat' split) <;> simp

@[simp] theorem restartScript_time_rate (s : State) :
    (restartScript s).time.rate = s.time.rate := by
  unfold restartScript; dsimp only; (repeat' split) <;> simp

@[simp] theorem restartScript_time_now (s : State) :
    (restartScript s).time.now = s.time.now := by
  unfold restartScript; dsimp only; (repeat' split) <;> simp

@[simp] theorem restartScript_host_phase (s : State) :
    (restartScript s).host.phase = s.host.phase := by
  unfold restartScript; dsimp only; (repeat' split) <;> simp

@[simp] theorem restartScript_host_replies (s : State) :
    (restartScript s).host.replies = s.host.replies := by
  unfold restartScript; dsimp only; (repeat' split) <;> simp

@[simp] theorem restartScript_host_rate (s : State) :
    (restartScript s).host.rate = s.host.rate := by
  unfold restartScript; dsimp only; (repeat' split) <;> simp

@[simp] theorem takeRestart_frame (s : State) :
    (takeRestart s).links = s.links ∧
    (takeRestart s).seqCounter = s.seqCounter ∧
    (takeRestart s).flash = s.flash ∧
    (takeRestart s).fmt = s.fmt ∧
    (takeRestart s).ports = s.ports ∧
    (takeRestart s).settings = s.settings ∧
    (takeRestart s).pending = s.pending := by
  unfold takeRestart; simp

@[simp] theorem takeRestart_time_rate (s : State) :
    (takeRestart s).time.rate = s.time.rate := by
  unfold takeRestart; simp

@[simp] theorem takeRestart_time_now (s : State) :
    (takeRestart s).time.now = s.time.now := by
  unfold takeRestart; simp

@[simp] theorem takeRestart_host_replies (s : State) :
    (takeRestart s).host.replies = s.host.replies := by
  unfold takeRestart; simp

@[simp] theorem takeRestart_host_rate (s : State) :
    (takeRestart s).host.rate = s.host.rate := by
  unfold takeRestart; simp

@[simp] theorem replySent_frame (a : AfterSent) (s : State) :
    (replySent a s).links = s.links ∧
    (replySent a s).seqCounter = s.seqCounter ∧
    (replySent a s).flash = s.flash ∧
    (replySent a s).fmt = s.fmt ∧
    (replySent a s).ports = s.ports ∧
    (replySent a s).settings = s.settings ∧
    (replySent a s).pending = s.pending := by
  unfold replySent; (repeat' split) <;> simp

@[simp] theorem replySent_time_rate (a : AfterSent) (s : State) :
    (replySent a s).time.rate = s.time.rate := by
  unfold replySent; (repeat' split) <;> simp

@[simp] theorem replySent_time_now (a : AfterSent) (s : State) :
    (replySent a s).time.now = s.time.now := by
  unfold replySent; (repeat' split) <;> simp

@[simp] theorem replySent_host_replies (a : AfterSent) (s : State) :
    (replySent a s).host.replies = s.host.replies := by
  unfold replySent; (repeat' split) <;> simp

@[simp] theorem frameSentHost_frame (f : TxFrame) (s : State) :
    (frameSentHost f s).links = s.links ∧
    (frameSentHost f s).seqCounter = s.seqCounter ∧
    (frameSentHost f s).flash = s.flash ∧
    (frameSentHost f s).fmt = s.fmt ∧
    (frameSentHost f s).ports = s.ports ∧
    (frameSentHost f s).settings = s.settings ∧
    (frameSentHost f s).pending = s.pending := by
  unfold frameSentHost; (repeat' split) <;> simp

@[simp] theorem frameSentHost_time_rate (f : TxFrame) (s : State) :
    (frameSentHost f s).time.rate = s.time.rate := by
  unfold frameSentHost; (repeat' split) <;> simp

@[simp] theorem frameSentHost_time_now (f : TxFrame) (s : State) :
    (frameSentHost f s).time.now = s.time.now := by
  unfold frameSentHost; (repeat' split) <;> simp

@[simp] theorem frameSentHost_host_replies (f : TxFrame) (s : State) :
    (frameSentHost f s).host.replies = s.host.replies := by
  unfold frameSentHost; (repeat' split) <;> simp

@[simp] theorem clearRule_frame (p : Bytes) (s : State) :
    (clearRule p s).1.links = s.links ∧
    (clearRule p s).1.formers = s.formers ∧
    (clearRule p s).1.seqCounter = s.seqCounter ∧
    (clearRule p s).1.floor = s.floor ∧
    (clearRule p s).1.time = s.time ∧
    (clearRule p s).1.flash = s.flash ∧
    (clearRule p s).1.store = s.store ∧
    (clearRule p s).1.log = s.log ∧
    (clearRule p s).1.dict = s.dict ∧
    (clearRule p s).1.trans = s.trans ∧
    (clearRule p s).1.script = s.script ∧
    (clearRule p s).1.feeds = s.feeds ∧
    (clearRule p s).1.fmt = s.fmt ∧
    (clearRule p s).1.ports = s.ports ∧
    (clearRule p s).1.host = s.host ∧
    (clearRule p s).1.settings = s.settings ∧
    (clearRule p s).1.pending = s.pending := by
  unfold clearRule; (repeat' split) <;> simp

@[simp] theorem closeDue_frame (p : Pos) (s : State) :
    (closeDue p s).links = s.links ∧
    (closeDue p s).flash = s.flash ∧
    (closeDue p s).dict = s.dict ∧
    (closeDue p s).fmt = s.fmt ∧
    (closeDue p s).ports = s.ports ∧
    (closeDue p s).settings = s.settings ∧
    (closeDue p s).pending = s.pending := by
  unfold closeDue; (repeat' split) <;> simp

@[simp] theorem closeDue_time_rate (p : Pos) (s : State) :
    (closeDue p s).time.rate = s.time.rate := by
  unfold closeDue; (repeat' split) <;> simp

@[simp] theorem closeDue_time_now (p : Pos) (s : State) :
    (closeDue p s).time.now = s.time.now := by
  unfold closeDue; (repeat' split) <;> simp

@[simp] theorem closeDue_host_phase (p : Pos) (s : State) :
    (closeDue p s).host.phase = s.host.phase := by
  unfold closeDue; (repeat' split) <;> simp

@[simp] theorem closeDue_host_replies (p : Pos) (s : State) :
    (closeDue p s).host.replies = s.host.replies := by
  unfold closeDue; (repeat' split) <;> simp

@[simp] theorem closeDue_host_rate (p : Pos) (s : State) :
    (closeDue p s).host.rate = s.host.rate := by
  unfold closeDue; (repeat' split) <;> simp

@[simp] theorem closeDue_log_flush (p : Pos) (s : State) :
    (closeDue p s).log.flush = s.log.flush := by
  unfold closeDue; (repeat' split) <;> simp

@[simp] theorem closeDue_script_session (p : Pos) (s : State) :
    (closeDue p s).script.session = s.script.session := by
  unfold closeDue; (repeat' split) <;> simp

@[simp] theorem enableFeed_frame (i : FeedId) (s : State) :
    (enableFeed i s).links = s.links ∧
    (enableFeed i s).formers = s.formers ∧
    (enableFeed i s).seqCounter = s.seqCounter ∧
    (enableFeed i s).floor = s.floor ∧
    (enableFeed i s).time = s.time ∧
    (enableFeed i s).flash = s.flash ∧
    (enableFeed i s).store = s.store ∧
    (enableFeed i s).log = s.log ∧
    (enableFeed i s).dict = s.dict ∧
    (enableFeed i s).trans = s.trans ∧
    (enableFeed i s).script = s.script ∧
    (enableFeed i s).fmt = s.fmt ∧
    (enableFeed i s).host = s.host ∧
    (enableFeed i s).conds = s.conds ∧
    (enableFeed i s).settings = s.settings ∧
    (enableFeed i s).pending = s.pending := by
  unfold enableFeed; (repeat' split) <;> simp

@[simp] theorem disableFeed_frame (i : FeedId) (s : State) :
    (disableFeed i s).links = s.links ∧
    (disableFeed i s).formers = s.formers ∧
    (disableFeed i s).seqCounter = s.seqCounter ∧
    (disableFeed i s).floor = s.floor ∧
    (disableFeed i s).flash = s.flash ∧
    (disableFeed i s).store = s.store ∧
    (disableFeed i s).log = s.log ∧
    (disableFeed i s).dict = s.dict ∧
    (disableFeed i s).trans = s.trans ∧
    (disableFeed i s).script = s.script ∧
    (disableFeed i s).fmt = s.fmt ∧
    (disableFeed i s).settings = s.settings ∧
    (disableFeed i s).pending = s.pending := by
  unfold disableFeed; (repeat' split) <;> simp

@[simp] theorem disableFeed_time_rate (i : FeedId) (s : State) :
    (disableFeed i s).time.rate = s.time.rate := by
  unfold disableFeed; (repeat' split) <;> simp

@[simp] theorem disableFeed_time_now (i : FeedId) (s : State) :
    (disableFeed i s).time.now = s.time.now := by
  unfold disableFeed; (repeat' split) <;> simp

@[simp] theorem disableFeed_host_phase (i : FeedId) (s : State) :
    (disableFeed i s).host.phase = s.host.phase := by
  unfold disableFeed; (repeat' split) <;> simp

@[simp] theorem disableFeed_host_replies (i : FeedId) (s : State) :
    (disableFeed i s).host.replies = s.host.replies := by
  unfold disableFeed; (repeat' split) <;> simp

@[simp] theorem disableFeed_host_rate (i : FeedId) (s : State) :
    (disableFeed i s).host.rate = s.host.rate := by
  unfold disableFeed; (repeat' split) <;> simp

@[simp] theorem rateChanged_frame (p : PortId) (s : State) :
    (rateChanged p s).links = s.links ∧
    (rateChanged p s).formers = s.formers ∧
    (rateChanged p s).seqCounter = s.seqCounter ∧
    (rateChanged p s).floor = s.floor ∧
    (rateChanged p s).time = s.time ∧
    (rateChanged p s).flash = s.flash ∧
    (rateChanged p s).store = s.store ∧
    (rateChanged p s).log = s.log ∧
    (rateChanged p s).dict = s.dict ∧
    (rateChanged p s).trans = s.trans ∧
    (rateChanged p s).script = s.script ∧
    (rateChanged p s).feeds = s.feeds ∧
    (rateChanged p s).fmt = s.fmt ∧
    (rateChanged p s).host = s.host ∧
    (rateChanged p s).conds = s.conds ∧
    (rateChanged p s).settings = s.settings ∧
    (rateChanged p s).pending = s.pending := by
  unfold rateChanged; (repeat' split) <;> simp

@[simp] theorem settingEffect_frame (x : Setting) (s : State) :
    (settingEffect x s).links = s.links ∧
    (settingEffect x s).flash = s.flash ∧
    (settingEffect x s).dict = s.dict ∧
    (settingEffect x s).settings = s.settings ∧
    (settingEffect x s).pending = s.pending := by
  unfold settingEffect; (repeat' split) <;> simp

@[simp] theorem settingEffect_time_rate (x : Setting) (s : State) :
    (settingEffect x s).time.rate = s.time.rate := by
  unfold settingEffect; (repeat' split) <;> simp

@[simp] theorem settingEffect_time_now (x : Setting) (s : State) :
    (settingEffect x s).time.now = s.time.now := by
  unfold settingEffect; (repeat' split) <;> simp

@[simp] theorem settingEffect_host_phase (x : Setting) (s : State) :
    (settingEffect x s).host.phase = s.host.phase := by
  unfold settingEffect; (repeat' split) <;> simp

@[simp] theorem settingEffect_host_replies (x : Setting) (s : State) :
    (settingEffect x s).host.replies = s.host.replies := by
  unfold settingEffect; (repeat' split) <;> simp

@[simp] theorem settingEffect_host_rate (x : Setting) (s : State) :
    (settingEffect x s).host.rate = s.host.rate := by
  unfold settingEffect; (repeat' split) <;> simp

@[simp] theorem settingEffect_script_session (x : Setting) (s : State) :
    (settingEffect x s).script.session = s.script.session := by
  unfold settingEffect; (repeat' split) <;> simp

@[simp] theorem takeSet_frame (x : Setting) (v : ℕ) (s : State) :
    (takeSet x v s).links = s.links ∧
    (takeSet x v s).flash = s.flash ∧
    (takeSet x v s).dict = s.dict ∧
    (takeSet x v s).pending = s.pending := by
  unfold takeSet; dsimp only; (repeat' split) <;> simp

@[simp] theorem takeSet_time_rate (x : Setting) (v : ℕ) (s : State) :
    (takeSet x v s).time.rate = s.time.rate := by
  unfold takeSet; dsimp only; (repeat' split) <;> simp

@[simp] theorem takeSet_time_now (x : Setting) (v : ℕ) (s : State) :
    (takeSet x v s).time.now = s.time.now := by
  unfold takeSet; dsimp only; (repeat' split) <;> simp

@[simp] theorem takeSet_host_phase (x : Setting) (v : ℕ) (s : State) :
    (takeSet x v s).host.phase = s.host.phase := by
  unfold takeSet; dsimp only; (repeat' split) <;> simp

@[simp] theorem takeSet_host_replies (x : Setting) (v : ℕ) (s : State) :
    (takeSet x v s).host.replies = s.host.replies := by
  unfold takeSet; dsimp only; (repeat' split) <;> simp

@[simp] theorem takeSet_host_rate (x : Setting) (v : ℕ) (s : State) :
    (takeSet x v s).host.rate = s.host.rate := by
  unfold takeSet; dsimp only; (repeat' split) <;> simp

@[simp] theorem takeSet_script_session (x : Setting) (v : ℕ) (s : State) :
    (takeSet x v s).script.session = s.script.session := by
  unfold takeSet; dsimp only; (repeat' split) <;> simp

@[simp] theorem setRule_frame (p : Bytes) (s : State) :
    (setRule p s).1.links = s.links ∧
    (setRule p s).1.flash = s.flash ∧
    (setRule p s).1.dict = s.dict ∧
    (setRule p s).1.pending = s.pending := by
  unfold setRule; (repeat' split) <;> simp

@[simp] theorem setRule_time_rate (p : Bytes) (s : State) :
    (setRule p s).1.time.rate = s.time.rate := by
  unfold setRule; (repeat' split) <;> simp

@[simp] theorem setRule_time_now (p : Bytes) (s : State) :
    (setRule p s).1.time.now = s.time.now := by
  unfold setRule; (repeat' split) <;> simp

@[simp] theorem setRule_host_phase (p : Bytes) (s : State) :
    (setRule p s).1.host.phase = s.host.phase := by
  unfold setRule; (repeat' split) <;> simp

@[simp] theorem setRule_host_replies (p : Bytes) (s : State) :
    (setRule p s).1.host.replies = s.host.replies := by
  unfold setRule; (repeat' split) <;> simp

@[simp] theorem setRule_host_rate (p : Bytes) (s : State) :
    (setRule p s).1.host.rate = s.host.rate := by
  unfold setRule; (repeat' split) <;> simp

@[simp] theorem setRule_script_session (p : Bytes) (s : State) :
    (setRule p s).1.script.session = s.script.session := by
  unfold setRule; (repeat' split) <;> simp

@[simp] theorem getRule_frame (p : Bytes) (s : State) :
    (getRule p s).1.links = s.links ∧
    (getRule p s).1.formers = s.formers ∧
    (getRule p s).1.seqCounter = s.seqCounter ∧
    (getRule p s).1.floor = s.floor ∧
    (getRule p s).1.time = s.time ∧
    (getRule p s).1.flash = s.flash ∧
    (getRule p s).1.store = s.store ∧
    (getRule p s).1.log = s.log ∧
    (getRule p s).1.dict = s.dict ∧
    (getRule p s).1.trans = s.trans ∧
    (getRule p s).1.script = s.script ∧
    (getRule p s).1.feeds = s.feeds ∧
    (getRule p s).1.fmt = s.fmt ∧
    (getRule p s).1.ports = s.ports ∧
    (getRule p s).1.host = s.host ∧
    (getRule p s).1.conds = s.conds ∧
    (getRule p s).1.settings = s.settings ∧
    (getRule p s).1.pending = s.pending := by
  unfold getRule; (repeat' split) <;> simp

@[simp] theorem statusRule_frame (p : Bytes) (s : State) :
    (statusRule p s).1.links = s.links ∧
    (statusRule p s).1.formers = s.formers ∧
    (statusRule p s).1.seqCounter = s.seqCounter ∧
    (statusRule p s).1.floor = s.floor ∧
    (statusRule p s).1.time = s.time ∧
    (statusRule p s).1.flash = s.flash ∧
    (statusRule p s).1.store = s.store ∧
    (statusRule p s).1.log = s.log ∧
    (statusRule p s).1.dict = s.dict ∧
    (statusRule p s).1.trans = s.trans ∧
    (statusRule p s).1.script = s.script ∧
    (statusRule p s).1.feeds = s.feeds ∧
    (statusRule p s).1.fmt = s.fmt ∧
    (statusRule p s).1.ports = s.ports ∧
    (statusRule p s).1.host = s.host ∧
    (statusRule p s).1.conds = s.conds ∧
    (statusRule p s).1.settings = s.settings ∧
    (statusRule p s).1.pending = s.pending := by
  unfold statusRule; (repeat' split) <;> simp

end Sys2Proof.Machine
end

