-- ==== Sys2Proof/Laws/Capacities.lean ====
section
/-! SUPPORT. The shared operations keep the notice queue, the transcript, the log buffer and the staging list within their
capacities (paragraph 0.7): `<operation>_noticesFit`, `_unitsFit`, `_pagesFit`, `_stagingFit`. -/

namespace Sys2Proof.Machine

/-- At most 32 notices (R188). -/
def noticesFit (l : List Notice) : Prop := l.length ≤ 32
/-- At most 2048 units (R128). -/
def unitsFit (l : List TUnit) : Prop := l.length ≤ 2048
/-- At most 8 occupied pages (R73). -/
def pagesFit (l : List BufPage) : Prop := l.length ≤ 8
/-- At most 32 staged operations (R89). -/
def stagingFit (l : List StagedOp) : Prop := l.length ≤ 32
@[simp] theorem foldl_noticesFit {α : Type} (g : State → α → State) (l : List α) (s : State)
    (hg : ∀ s a, noticesFit s.host.notices → noticesFit (g s a).host.notices) (h : noticesFit s.host.notices) : noticesFit (l.foldl g s).host.notices := by
  induction l generalizing s with
  | nil => exact h
  | cons a l ih => exact ih _ (hg _ _ h)
@[simp] theorem foldl_unitsFit {α : Type} (g : State → α → State) (l : List α) (s : State)
    (hg : ∀ s a, unitsFit s.script.units → unitsFit (g s a).script.units) (h : unitsFit s.script.units) : unitsFit (l.foldl g s).script.units := by
  induction l generalizing s with
  | nil => exact h
  | cons a l ih => exact ih _ (hg _ _ h)
@[simp] theorem foldl_pagesFit {α : Type} (g : State → α → State) (l : List α) (s : State)
    (hg : ∀ s a, pagesFit s.log.pages → pagesFit (g s a).log.pages) (h : pagesFit s.log.pages) : pagesFit (l.foldl g s).log.pages := by
  induction l generalizing s with
  | nil => exact h
  | cons a l ih => exact ih _ (hg _ _ h)
@[simp] theorem foldl_stagingFit {α : Type} (g : State → α → State) (l : List α) (s : State)
    (hg : ∀ s a, stagingFit s.dict.staging → stagingFit (g s a).dict.staging) (h : stagingFit s.dict.staging) : stagingFit (l.foldl g s).dict.staging := by
  induction l generalizing s with
  | nil => exact h
  | cons a l ih => exact ih _ (hg _ _ h)
@[simp] theorem changeUnit_fit (n : Nat) (f : TUnit → TUnit) (us : List TUnit) : unitsFit (changeUnit n f us) ↔ unitsFit us := by simp [unitsFit, changeUnit]
@[simp] theorem map_pagesFit (f : BufPage → BufPage) (l : List BufPage) : pagesFit (l.map f) ↔ pagesFit l := by simp [pagesFit]
@[simp] theorem drop_pagesFit (n : Nat) (l : List BufPage) (h : pagesFit l) : pagesFit (l.drop n) := by simp [pagesFit] at *; omega
@[simp] theorem HostLink.push_notices (h : HostLink) (n : Notice) : (h.push n).notices = h.notices ++ [n] := rfl
@[simp] theorem LogWriter.closePage_fit (w : LogWriter) : pagesFit w.closePage.pages ↔ pagesFit w.pages := by simp [pagesFit, LogWriter.closePage]
@[simp] theorem programFirst_fit (l : List BufPage) : pagesFit (programFirst l) ↔ pagesFit l := by cases l <;> rfl

/-! ### Flags -/

@[simp] theorem offerCondition_noticesFit (c : Cond) (raised : Bool) (s : State) (h : noticesFit s.host.notices) :
    noticesFit (offerCondition c raised s).host.notices := by
  unfold offerCondition
  split
  · rename_i hr
    simp [HostLink.hasRoom, Config.noticesMax] at hr
    simp [noticesFit]; omega
  · simpa using h

@[simp] theorem raiseLatched_noticesFit (c : Cond) (s : State) (h : noticesFit s.host.notices) :
    noticesFit (raiseLatched c s).host.notices := by
  unfold raiseLatched; split <;> simp -implicitDefEqProofs [h]

@[simp] theorem offerNotice_noticesFit (n : Notice) (s : State) (h : noticesFit s.host.notices) :
    noticesFit (offerNotice n s).host.notices := by
  unfold offerNotice
  split
  · rename_i hr
    simp [HostLink.hasRoom, Config.noticesMax] at hr
    simp [noticesFit]; omega
  · apply raiseLatched_noticesFit; exact h

theorem enterOwed_noticesFit (s : State) (hn : s.host.notices.length < Config.noticesMax) :
    noticesFit (enterOwed s).host.notices := by
  simp only [Config.noticesMax] at hn
  unfold enterOwed
  split
  · simp [noticesFit]; omega
  · simp [noticesFit]; omega

@[simp] theorem chooseFrame_noticesFit (s : State) (h : noticesFit s.host.notices) :
    noticesFit (chooseFrame s).host.notices := by
  unfold chooseFrame
  split
  · exact h
  · split
    · simpa using h
    · split
      · rename_i hn
        apply enterOwed_noticesFit
        simp [noticesFit, hn, Config.noticesMax] at h ⊢; omega
      · split
        · simpa using h
        · exact h

@[simp] theorem causePresent_noticesFit (c : Cond) (s : State) (h : noticesFit s.host.notices) :
    noticesFit (causePresent c s).host.notices := by
  unfold causePresent; (repeat' split) <;> simp -implicitDefEqProofs [h]

@[simp] theorem causeAbsent_noticesFit (c : Cond) (s : State) (h : noticesFit s.host.notices) :
    noticesFit (causeAbsent c s).host.notices := by
  unfold causeAbsent; (repeat' split) <;> simp -implicitDefEqProofs [h]

@[simp] theorem setCause_noticesFit (c : Cond) (present : Bool) (s : State) (h : noticesFit s.host.notices) :
    noticesFit (setCause c present s).host.notices := by
  unfold setCause; (repeat' split) <;> simp -implicitDefEqProofs [h]

@[simp] theorem complete_noticesFit (tag : Byte) (kind : Byte) (failed : Option Reason) (data : Bytes) (s : State) (h : noticesFit s.host.notices) :
    noticesFit (complete tag kind failed data s).host.notices := by
  simp -implicitDefEqProofs [complete, h]

@[simp] theorem completeIf_noticesFit (tag : Option Byte) (kind : Byte) (failed : Option Reason) (data : Bytes) (s : State) (h : noticesFit s.host.notices) :
    noticesFit (completeIf tag kind failed data s).host.notices := by
  unfold completeIf; (repeat' split) <;> simp -implicitDefEqProofs [h]

/-! ### Transcript -/

theorem freeHead_units (s : State) : (freeHead s).script.units = s.script.units.drop 1 := by
  unfold freeHead
  split
  · simp [*]
  · rename_i hu
    dsimp only [breakLock]; split <;> simp [hu]

@[simp] theorem freeHead_unitsFit (s : State) (h : unitsFit s.script.units) : unitsFit (freeHead s).script.units := by
  simp [unitsFit, freeHead_units] at h ⊢; omega

@[simp] theorem retractFrom_unitsFit (n : Nat) (s : State) (h : unitsFit s.script.units) :
    unitsFit (retractFrom n s).script.units := by
  unfold retractFrom
  simp [unitsFit] at h ⊢
  exact Nat.le_trans (List.length_filter_le _ _) h

@[simp] theorem firmUnit_length (n : Nat) (s : State) : (firmUnit n s).script.units.length = s.script.units.length := by
  simp [firmUnit, changeUnit]

@[simp] theorem firmOldest_length (k : Nat) (s : State) :
    (firmOldest k s).script.units.length = s.script.units.length := by
  fun_induction firmOldest k s <;> simp_all

@[simp] theorem firmByCount_length (s : State) : (firmByCount s).script.units.length = s.script.units.length := by
  simp [firmByCount]

@[simp] theorem createUnit_unitsFit (u : TUnit) (s : State) (h : unitsFit s.script.units) :
    unitsFit (createUnit u s).script.units := by
  simp only [unitsFit] at h ⊢
  unfold createUnit
  dsimp only
  split <;> split <;> simp [freeHead_units] <;> simp only [Config.unitsMax] at * <;> omega

@[simp] theorem firmUnit_unitsFit (n : ℕ) (s : State) (h : unitsFit s.script.units) :
    unitsFit (firmUnit n s).script.units := by
  simp -implicitDefEqProofs [firmUnit, h]

@[simp] theorem firmOldest_unitsFit (x0 : ℕ) (x1 : State) (h : unitsFit x1.script.units) :
    unitsFit (firmOldest x0 x1).script.units := by
  fun_induction firmOldest x0 x1 <;> (try simp_all -implicitDefEqProofs) <;> (try (split <;> simp_all -implicitDefEqProofs)) <;> (try (split <;> simp_all -implicitDefEqProofs))

@[simp] theorem firmByCount_unitsFit (s : State) (h : unitsFit s.script.units) :
    unitsFit (firmByCount s).script.units := by
  simp -implicitDefEqProofs [firmByCount, h]

@[simp] theorem firmByTime_unitsFit (s : State) (h : unitsFit s.script.units) :
    unitsFit (firmByTime s).script.units := by
  simp -implicitDefEqProofs [firmByTime, h]

@[simp] theorem releaseLock_unitsFit (s : State) (h : unitsFit s.script.units) :
    unitsFit (releaseLock s).script.units := by
  simp -implicitDefEqProofs [releaseLock, h]

@[simp] theorem breakLock_noticesFit (n : ℕ) (s : State) (h : noticesFit s.host.notices) :
    noticesFit (breakLock n s).host.notices := by
  unfold breakLock; (repeat' split) <;> simp -implicitDefEqProofs [h]

@[simp] theorem breakLock_unitsFit (n : ℕ) (s : State) (h : unitsFit s.script.units) :
    unitsFit (breakLock n s).script.units := by
  unfold breakLock; (repeat' split) <;> simp -implicitDefEqProofs [h]

@[simp] theorem freeHead_noticesFit (s : State) (h : noticesFit s.host.notices) :
    noticesFit (freeHead s).host.notices := by
  unfold freeHead; (repeat' split) <;> simp -implicitDefEqProofs [h]

@[simp] theorem createUnit_noticesFit (u : TUnit) (s : State) (h : noticesFit s.host.notices) :
    noticesFit (createUnit u s).host.notices := by
  unfold createUnit; (repeat' split) <;> simp -implicitDefEqProofs [h]

@[simp] theorem promoteUnit_unitsFit (n : ℕ) (s : State) (h : unitsFit s.script.units) :
    unitsFit (promoteUnit n s).script.units := by
  simp -implicitDefEqProofs [promoteUnit, h]

@[simp] theorem replaceUnit_unitsFit (n : ℕ) (f : TUnit → TUnit) (s : State) (h : unitsFit s.script.units) :
    unitsFit (replaceUnit n f s).script.units := by
  simp -implicitDefEqProofs [replaceUnit, h]

@[simp] theorem readbackParts_noticesFit (tag : Byte) (head : Bytes) (x2 : ℕ) (x3 : List (ℕ × Bytes)) (x4 : State) (h : noticesFit x4.host.notices) :
    noticesFit (readbackParts tag head x2 x3 x4).host.notices := by
  fun_induction readbackParts tag head x2 x3 x4 <;> (try simp_all -implicitDefEqProofs) <;> (try (split <;> simp_all -implicitDefEqProofs)) <;> (try (split <;> simp_all -implicitDefEqProofs))

@[simp] theorem completeReadback_noticesFit (q : Search) (s : State) (h : noticesFit s.host.notices) :
    noticesFit (completeReadback q s).host.notices := by
  simp -implicitDefEqProofs [completeReadback, h]

@[simp] theorem completeReadback_unitsFit (q : Search) (s : State) (h : unitsFit s.script.units) :
    unitsFit (completeReadback q s).script.units := by
  simp -implicitDefEqProofs [completeReadback, h]

@[simp] theorem completeSearch_noticesFit (s : State) (h : noticesFit s.host.notices) :
    noticesFit (completeSearch s).host.notices := by
  unfold completeSearch; (repeat' split) <;> simp -implicitDefEqProofs [h]

@[simp] theorem completeSearch_unitsFit (s : State) (h : unitsFit s.script.units) :
    unitsFit (completeSearch s).script.units := by
  unfold completeSearch; (repeat' split) <;> simp -implicitDefEqProofs [h]

/-! ### LogWriter -/

@[simp] theorem offerRecord_pagesFit (rec : Bytes) (s : State) (h : pagesFit s.log.pages) : 
    pagesFit (offerRecord rec s).1.log.pages := by
  unfold offerRecord
  split
  · exact h
  · split
    · simpa using h
    · split
      · exact h
      · rename_i hn
        unfold State.newPage at hn
        split at hn
        · rename_i hc
          simp [Config.bufferPages] at hc
          simp [pagesFit]; omega
        · simp at hn

@[simp] theorem logCauses_noticesFit (s : State) (h : noticesFit s.host.notices) :
    noticesFit (logCauses s).host.notices := by
  simp -implicitDefEqProofs [logCauses, h]

@[simp] theorem offerRecord_noticesFit (rec : Bytes) (s : State) (h : noticesFit s.host.notices) :
    noticesFit (offerRecord rec s).1.host.notices := by
  unfold offerRecord; (repeat' split) <;> simp -implicitDefEqProofs [h]

@[simp] theorem offerOther_noticesFit (rec : Bytes) (s : State) (h : noticesFit s.host.notices) :
    noticesFit (offerOther rec s).host.notices := by
  unfold offerOther; dsimp only; (repeat' split) <;> simp -implicitDefEqProofs [h]

@[simp] theorem offerOther_pagesFit (rec : Bytes) (s : State) (h : pagesFit s.log.pages) :
    pagesFit (offerOther rec s).log.pages := by
  unfold offerOther; dsimp only; (repeat' split) <;> simp -implicitDefEqProofs [h]

@[simp] theorem offerStroke_noticesFit (r : StrokeRec) (s : State) (h : noticesFit s.host.notices) :
    noticesFit (offerStroke r s).1.host.notices := by
  unfold offerStroke; dsimp only; (repeat' split) <;> simp -implicitDefEqProofs [h]

@[simp] theorem offerStroke_pagesFit (r : StrokeRec) (s : State) (h : pagesFit s.log.pages) :
    pagesFit (offerStroke r s).1.log.pages := by
  unfold offerStroke; dsimp only; (repeat' split) <;> simp -implicitDefEqProofs [h]

@[simp] theorem beginFlush_pagesFit (f : Flush) (s : State) (h : pagesFit s.log.pages) :
    pagesFit (beginFlush f s).log.pages := by
  simp -implicitDefEqProofs [beginFlush, h]

/-! ### Translator -/

@[simp] theorem createFormed_unitsFit (n : NewUnit) (s : State) (h : unitsFit s.script.units) :
    unitsFit (createFormed n s).script.units := by
  unfold createFormed
  dsimp only
  split <;> simp -implicitDefEqProofs [h]

@[simp] theorem commitUnit_unitsFit (u : TUnit) (s : State) (h : unitsFit s.script.units) :
    unitsFit (commitUnit u s).script.units := by
  unfold commitUnit; simp -implicitDefEqProofs [h]

theorem promoteKept_unitsFit (os : List TUnit) (ns : List NewUnit) (s : State) (h : unitsFit s.script.units) :
    unitsFit (promoteKept os ns s).script.units := by
  fun_induction promoteKept os ns s <;> (try simp_all -implicitDefEqProofs) <;> (try (split <;> simp_all -implicitDefEqProofs))

@[simp] theorem reconcile_unitsFit (new : List NewUnit) (s : State) (h : unitsFit s.script.units) :
    unitsFit (reconcile new s).script.units := by
  unfold reconcile
  dsimp only
  split <;> (apply foldl_unitsFit; (intro s a h; simp -implicitDefEqProofs [h]); (apply promoteKept_unitsFit; simp -implicitDefEqProofs [h]))

@[simp] theorem createFormed_noticesFit (n : NewUnit) (s : State) (h : noticesFit s.host.notices) :
    noticesFit (createFormed n s).host.notices := by
  unfold createFormed; (repeat' split) <;> simp -implicitDefEqProofs [h]

@[simp] theorem reconcile_noticesFit (new : List NewUnit) (s : State) (h : noticesFit s.host.notices) :
    noticesFit (reconcile new s).host.notices := by
  unfold reconcile; dsimp only; (repeat' split) <;> simp_all -implicitDefEqProofs

@[simp] theorem resolveHold_unitsFit (s : State) (h : unitsFit s.script.units) :
    unitsFit (resolveHold s).script.units := by
  unfold resolveHold; (repeat' split) <;> simp_all -implicitDefEqProofs

@[simp] theorem insertNote_noticesFit (n : Note) (s : State) (h : noticesFit s.host.notices) :
    noticesFit (insertNote n s).host.notices := by
  simp -implicitDefEqProofs [insertNote, h]

@[simp] theorem insertNote_unitsFit (n : Note) (s : State) (h : unitsFit s.script.units) :
    unitsFit (insertNote n s).script.units := by
  simp -implicitDefEqProofs [insertNote, h]

@[simp] theorem insertNote_pagesFit (n : Note) (s : State) (h : pagesFit s.log.pages) :
    pagesFit (insertNote n s).log.pages := by
  simp -implicitDefEqProofs [insertNote, h]

@[simp] theorem insertQueued_noticesFit (n : Note) (s : State) (h : noticesFit s.host.notices) :
    noticesFit (insertQueued n s).host.notices := by
  simp -implicitDefEqProofs [insertQueued, h]

@[simp] theorem insertQueued_unitsFit (n : Note) (s : State) (h : unitsFit s.script.units) :
    unitsFit (insertQueued n s).script.units := by
  simp -implicitDefEqProofs [insertQueued, h]

@[simp] theorem insertQueued_pagesFit (n : Note) (s : State) (h : pagesFit s.log.pages) :
    pagesFit (insertQueued n s).log.pages := by
  simp -implicitDefEqProofs [insertQueued, h]

@[simp] theorem insertNotes_noticesFit (s : State) (h : noticesFit s.host.notices) :
    noticesFit (insertNotes s).host.notices := by
  unfold insertNotes; (repeat' split) <;> simp_all -implicitDefEqProofs

@[simp] theorem insertNotes_unitsFit (s : State) (h : unitsFit s.script.units) :
    unitsFit (insertNotes s).script.units := by
  unfold insertNotes; (repeat' split) <;> simp_all -implicitDefEqProofs

@[simp] theorem insertNotes_pagesFit (s : State) (h : pagesFit s.log.pages) :
    pagesFit (insertNotes s).log.pages := by
  unfold insertNotes; (repeat' split) <;> simp_all -implicitDefEqProofs

@[simp] theorem resolveOrder_noticesFit (s : State) (h : noticesFit s.host.notices) :
    noticesFit (resolveOrder s).host.notices := by
  unfold resolveOrder; (repeat' split) <;> simp -implicitDefEqProofs [h]

@[simp] theorem resolveOrder_unitsFit (s : State) (h : unitsFit s.script.units) :
    unitsFit (resolveOrder s).script.units := by
  unfold resolveOrder; (repeat' split) <;> simp -implicitDefEqProofs [h]

@[simp] theorem resolveOrder_pagesFit (s : State) (h : pagesFit s.log.pages) :
    pagesFit (resolveOrder s).log.pages := by
  unfold resolveOrder; (repeat' split) <;> simp -implicitDefEqProofs [h]

@[simp] theorem insertNoteRule_noticesFit (tag : Byte) (payload : Bytes) (s : State) (h : noticesFit s.host.notices) :
    noticesFit (insertNoteRule tag payload s).1.host.notices := by
  unfold insertNoteRule; dsimp only; (repeat' split) <;> simp -implicitDefEqProofs [h]

@[simp] theorem insertNoteRule_unitsFit (tag : Byte) (payload : Bytes) (s : State) (h : unitsFit s.script.units) :
    unitsFit (insertNoteRule tag payload s).1.script.units := by
  unfold insertNoteRule; dsimp only; (repeat' split) <;> simp -implicitDefEqProofs [h]

@[simp] theorem insertNoteRule_pagesFit (tag : Byte) (payload : Bytes) (s : State) (h : pagesFit s.log.pages) :
    pagesFit (insertNoteRule tag payload s).1.log.pages := by
  unfold insertNoteRule; dsimp only; (repeat' split) <;> simp -implicitDefEqProofs [h]

/-! ### FloorOps -/

@[simp] theorem floorVacantCause_noticesFit (s : State) (h : noticesFit s.host.notices) :
    noticesFit (floorVacantCause s).host.notices := by
  simp -implicitDefEqProofs [floorVacantCause, h]

@[simp] theorem announceFloor_noticesFit (cause : FloorCause) (dropped : ℕ) (s : State) (h : noticesFit s.host.notices) :
    noticesFit (announceFloor cause dropped s).host.notices := by
  simp -implicitDefEqProofs [announceFloor, h]

@[simp] theorem announceFloor_pagesFit (cause : FloorCause) (dropped : ℕ) (s : State) (h : pagesFit s.log.pages) :
    pagesFit (announceFloor cause dropped s).log.pages := by
  simp -implicitDefEqProofs [announceFloor, h]

@[simp] theorem floorChanged_noticesFit (cause : FloorCause) (dropped : ℕ) (s : State) (h : noticesFit s.host.notices) :
    noticesFit (floorChanged cause dropped s).host.notices := by
  unfold floorChanged; (repeat' split) <;> simp -implicitDefEqProofs [h]

@[simp] theorem floorChanged_pagesFit (cause : FloorCause) (dropped : ℕ) (s : State) (h : pagesFit s.log.pages) :
    pagesFit (floorChanged cause dropped s).log.pages := by
  unfold floorChanged; (repeat' split) <;> simp -implicitDefEqProofs [h]

@[simp] theorem takeFloor_noticesFit (p : Pos) (cause : FloorCause) (s : State) (h : noticesFit s.host.notices) :
    noticesFit (takeFloor p cause s).host.notices := by
  simp -implicitDefEqProofs [takeFloor, h]

@[simp] theorem takeFloor_pagesFit (p : Pos) (cause : FloorCause) (s : State) (h : pagesFit s.log.pages) :
    pagesFit (takeFloor p cause s).log.pages := by
  simp -implicitDefEqProofs [takeFloor, h]

@[simp] theorem cleanPass_noticesFit (off : Pos) (on : Pos) (s : State) (h : noticesFit s.host.notices) :
    noticesFit (cleanPass off on s).host.notices := by
  simp -implicitDefEqProofs [cleanPass, h]

@[simp] theorem cleanPass_pagesFit (off : Pos) (on : Pos) (s : State) (h : pagesFit s.log.pages) :
    pagesFit (cleanPass off on s).log.pages := by
  simp -implicitDefEqProofs [cleanPass, h]

@[simp] theorem cleanTest_noticesFit (s : State) (h : noticesFit s.host.notices) :
    noticesFit (cleanTest s).host.notices := by
  unfold cleanTest; (repeat' split) <;> simp -implicitDefEqProofs [h]

@[simp] theorem cleanTest_pagesFit (s : State) (h : pagesFit s.log.pages) :
    pagesFit (cleanTest s).log.pages := by
  unfold cleanTest; (repeat' split) <;> simp -implicitDefEqProofs [h]

@[simp] theorem beginPass_noticesFit (p : Pos) (cause : FloorCause) (s : State) (h : noticesFit s.host.notices) :
    noticesFit (beginPass p cause s).host.notices := by
  simp -implicitDefEqProofs [beginPass, h]

@[simp] theorem beginPass_pagesFit (p : Pos) (cause : FloorCause) (s : State) (h : pagesFit s.log.pages) :
    pagesFit (beginPass p cause s).log.pages := by
  simp -implicitDefEqProofs [beginPass, h]

@[simp] theorem forcePass_noticesFit (off : Pos) (on : Pos) (cause : FloorCause) (s : State) (h : noticesFit s.host.notices) :
    noticesFit (forcePass off on cause s).host.notices := by
  simp -implicitDefEqProofs [forcePass, h]

@[simp] theorem forcePass_unitsFit (off : Pos) (on : Pos) (cause : FloorCause) (s : State) (h : unitsFit s.script.units) :
    unitsFit (forcePass off on cause s).script.units := by
  simp -implicitDefEqProofs [forcePass, h]

@[simp] theorem forcePass_pagesFit (off : Pos) (on : Pos) (cause : FloorCause) (s : State) (h : pagesFit s.log.pages) :
    pagesFit (forcePass off on cause s).log.pages := by
  simp -implicitDefEqProofs [forcePass, h]

@[simp] theorem cancelPass_noticesFit (incoming : Pos) (st : PosState) (s : State) (h : noticesFit s.host.notices) :
    noticesFit (cancelPass incoming st s).host.notices := by
  simp -implicitDefEqProofs [cancelPass, h]

@[simp] theorem cancelPass_pagesFit (incoming : Pos) (st : PosState) (s : State) (h : pagesFit s.log.pages) :
    pagesFit (cancelPass incoming st s).log.pages := by
  simp -implicitDefEqProofs [cancelPass, h]

@[simp] theorem losePos_noticesFit (p : Pos) (st : PosState) (s : State) (h : noticesFit s.host.notices) :
    noticesFit (losePos p st s).host.notices := by
  simp -implicitDefEqProofs [losePos, h]

@[simp] theorem losePos_unitsFit (p : Pos) (st : PosState) (s : State) (h : unitsFit s.script.units) :
    unitsFit (losePos p st s).script.units := by
  simp -implicitDefEqProofs [losePos, h]

@[simp] theorem losePos_pagesFit (p : Pos) (st : PosState) (s : State) (h : pagesFit s.log.pages) :
    pagesFit (losePos p st s).log.pages := by
  simp -implicitDefEqProofs [losePos, h]

@[simp] theorem withdraw_noticesFit (p : Pos) (st : PosState) (s : State) (h : noticesFit s.host.notices) :
    noticesFit (withdraw p st s).host.notices := by
  unfold withdraw; (repeat' split) <;> simp -implicitDefEqProofs [h]

@[simp] theorem withdraw_unitsFit (p : Pos) (st : PosState) (s : State) (h : unitsFit s.script.units) :
    unitsFit (withdraw p st s).script.units := by
  unfold withdraw; (repeat' split) <;> simp -implicitDefEqProofs [h]

@[simp] theorem withdraw_pagesFit (p : Pos) (st : PosState) (s : State) (h : pagesFit s.log.pages) :
    pagesFit (withdraw p st s).log.pages := by
  unfold withdraw; (repeat' split) <;> simp -implicitDefEqProofs [h]

@[simp] theorem releaseFloor_noticesFit (s : State) (h : noticesFit s.host.notices) :
    noticesFit (releaseFloor s).host.notices := by
  simp -implicitDefEqProofs [releaseFloor, h]

@[simp] theorem releaseFloor_pagesFit (s : State) (h : pagesFit s.log.pages) :
    pagesFit (releaseFloor s).log.pages := by
  simp -implicitDefEqProofs [releaseFloor, h]

@[simp] theorem forceByWait_noticesFit (s : State) (h : noticesFit s.host.notices) :
    noticesFit (forceByWait s).host.notices := by
  unfold forceByWait; (repeat' split) <;> simp -implicitDefEqProofs [h]

@[simp] theorem forceByWait_unitsFit (s : State) (h : unitsFit s.script.units) :
    unitsFit (forceByWait s).script.units := by
  unfold forceByWait; (repeat' split) <;> simp -implicitDefEqProofs [h]

@[simp] theorem forceByWait_pagesFit (s : State) (h : pagesFit s.log.pages) :
    pagesFit (forceByWait s).log.pages := by
  unfold forceByWait; (repeat' split) <;> simp -implicitDefEqProofs [h]

@[simp] theorem disposeShadow_noticesFit (x : StrokeRec) (s : State) (h : noticesFit s.host.notices) :
    noticesFit (disposeShadow x s).host.notices := by
  unfold disposeShadow; (repeat' split) <;> simp -implicitDefEqProofs [h]

@[simp] theorem disposeShadow_pagesFit (x : StrokeRec) (s : State) (h : pagesFit s.log.pages) :
    pagesFit (disposeShadow x s).log.pages := by
  unfold disposeShadow; (repeat' split) <;> simp -implicitDefEqProofs [h]

@[simp] theorem disposeRequesting_noticesFit (x : StrokeRec) (s : State) (h : noticesFit s.host.notices) :
    noticesFit (disposeRequesting x s).host.notices := by
  unfold disposeRequesting; (repeat' split) <;> simp -implicitDefEqProofs [h]

@[simp] theorem disposeRequesting_unitsFit (x : StrokeRec) (s : State) (h : unitsFit s.script.units) :
    unitsFit (disposeRequesting x s).script.units := by
  unfold disposeRequesting; (repeat' split) <;> simp -implicitDefEqProofs [h]

@[simp] theorem disposeRequesting_pagesFit (x : StrokeRec) (s : State) (h : pagesFit s.log.pages) :
    pagesFit (disposeRequesting x s).log.pages := by
  unfold disposeRequesting; (repeat' split) <;> simp -implicitDefEqProofs [h]

@[simp] theorem dispose_noticesFit (x : StrokeRec) (s : State) (h : noticesFit s.host.notices) :
    noticesFit (dispose x s).host.notices := by
  unfold dispose; (repeat' split) <;> simp -implicitDefEqProofs [h]

@[simp] theorem dispose_unitsFit (x : StrokeRec) (s : State) (h : unitsFit s.script.units) :
    unitsFit (dispose x s).script.units := by
  unfold dispose; (repeat' split) <;> simp -implicitDefEqProofs [h]

@[simp] theorem dispose_pagesFit (x : StrokeRec) (s : State) (h : pagesFit s.log.pages) :
    pagesFit (dispose x s).log.pages := by
  unfold dispose; (repeat' split) <;> simp -implicitDefEqProofs [h]

@[simp] theorem floorLinkDown_noticesFit (p : Pos) (s : State) (h : noticesFit s.host.notices) :
    noticesFit (floorLinkDown p s).host.notices := by
  unfold floorLinkDown; (repeat' split) <;> simp -implicitDefEqProofs [h]

@[simp] theorem floorLinkDown_unitsFit (p : Pos) (s : State) (h : unitsFit s.script.units) :
    unitsFit (floorLinkDown p s).script.units := by
  unfold floorLinkDown; (repeat' split) <;> simp -implicitDefEqProofs [h]

@[simp] theorem floorLinkDown_pagesFit (p : Pos) (s : State) (h : pagesFit s.log.pages) :
    pagesFit (floorLinkDown p s).log.pages := by
  unfold floorLinkDown; (repeat' split) <;> simp -implicitDefEqProofs [h]

/-! ### Finish -/

@[simp] theorem firmAll_unitsFit (s : State) (h : unitsFit s.script.units) :
    unitsFit (firmAll s).script.units := by
  simp -implicitDefEqProofs [firmAll, h]

@[simp] theorem offerClose_noticesFit (aborted : Bool) (s : State) (h : noticesFit s.host.notices) :
    noticesFit (offerClose aborted s).host.notices := by
  simp -implicitDefEqProofs [offerClose, h]

@[simp] theorem offerClose_pagesFit (aborted : Bool) (s : State) (h : pagesFit s.log.pages) :
    pagesFit (offerClose aborted s).log.pages := by
  simp -implicitDefEqProofs [offerClose, h]

@[simp] theorem holdResolved_noticesFit (s : State) (h : noticesFit s.host.notices) :
    noticesFit (holdResolved s).host.notices := by
  simp -implicitDefEqProofs [holdResolved, h]

@[simp] theorem holdResolved_unitsFit (s : State) (h : unitsFit s.script.units) :
    unitsFit (holdResolved s).script.units := by
  simp -implicitDefEqProofs [holdResolved, h]

@[simp] theorem holdResolved_pagesFit (s : State) (h : pagesFit s.log.pages) :
    pagesFit (holdResolved s).log.pages := by
  unfold holdResolved
  dsimp only
  apply beginFlush_pagesFit
  apply offerClose_pagesFit
  apply releaseFloor_pagesFit
  simpa using h

@[simp] theorem reportResolved_noticesFit (s : State) (h : noticesFit s.host.notices) :
    noticesFit (reportResolved s).host.notices := by
  unfold reportResolved; (repeat' split) <;> simp -implicitDefEqProofs [h]

@[simp] theorem reportResolved_unitsFit (s : State) (h : unitsFit s.script.units) :
    unitsFit (reportResolved s).script.units := by
  unfold reportResolved; (repeat' split) <;> simp -implicitDefEqProofs [h]

@[simp] theorem reportResolved_pagesFit (s : State) (h : pagesFit s.log.pages) :
    pagesFit (reportResolved s).log.pages := by
  unfold reportResolved; (repeat' split) <;> simp -implicitDefEqProofs [h]

@[simp] theorem afterRest_noticesFit (s : State) (h : noticesFit s.host.notices) :
    noticesFit (afterRest s).host.notices := by
  simp -implicitDefEqProofs [afterRest, h]

@[simp] theorem afterRest_unitsFit (s : State) (h : unitsFit s.script.units) :
    unitsFit (afterRest s).script.units := by
  simp -implicitDefEqProofs [afterRest, h]

@[simp] theorem afterRest_pagesFit (s : State) (h : pagesFit s.log.pages) :
    pagesFit (afterRest s).log.pages := by
  simp -implicitDefEqProofs [afterRest, h]

@[simp] theorem finishPending_unitsFit (s : State) (h : unitsFit s.script.units) :
    unitsFit (finishPending s).script.units := by
  unfold finishPending; (repeat' split) <;> simp -implicitDefEqProofs [h]

@[simp] theorem reportFinish_noticesFit (s : State) (h : noticesFit s.host.notices) :
    noticesFit (reportFinish s).host.notices := by
  simp -implicitDefEqProofs [reportFinish, h]

@[simp] theorem reportFinish_unitsFit (s : State) (h : unitsFit s.script.units) :
    unitsFit (reportFinish s).script.units := by
  simp -implicitDefEqProofs [reportFinish, h]

@[simp] theorem reportFinish_pagesFit (s : State) (h : pagesFit s.log.pages) :
    pagesFit (reportFinish s).log.pages := by
  simp -implicitDefEqProofs [reportFinish, h]

@[simp] theorem finishStroke_noticesFit (s : State) (h : noticesFit s.host.notices) :
    noticesFit (finishStroke s).host.notices := by
  unfold finishStroke; (repeat' split) <;> simp -implicitDefEqProofs [h]

@[simp] theorem finishStroke_unitsFit (s : State) (h : unitsFit s.script.units) :
    unitsFit (finishStroke s).script.units := by
  unfold finishStroke
  split
  · exact h
  · apply reportFinish_unitsFit
    apply finishPending_unitsFit
    simp -implicitDefEqProofs [h]

@[simp] theorem finishStroke_pagesFit (s : State) (h : pagesFit s.log.pages) :
    pagesFit (finishStroke s).log.pages := by
  unfold finishStroke; (repeat' split) <;> simp -implicitDefEqProofs [h]

@[simp] theorem undoNewest_unitsFit (s : State) (h : unitsFit s.script.units) :
    unitsFit (undoNewest s).script.units := by
  unfold undoNewest; (repeat' split) <;> simp -implicitDefEqProofs [h]

@[simp] theorem undoAtTake_noticesFit (x : StrokeRec) (s : State) (h : noticesFit s.host.notices) :
    noticesFit (undoAtTake x s).host.notices := by
  unfold undoAtTake; (repeat' split) <;> simp -implicitDefEqProofs [h]

@[simp] theorem undoAtTake_unitsFit (x : StrokeRec) (s : State) (h : unitsFit s.script.units) :
    unitsFit (undoAtTake x s).script.units := by
  unfold undoAtTake; (repeat' split) <;> simp -implicitDefEqProofs [h]

@[simp] theorem holdExpire_noticesFit (s : State) (h : noticesFit s.host.notices) :
    noticesFit (holdExpire s).host.notices := by
  unfold holdExpire; (repeat' split) <;> simp -implicitDefEqProofs [h]

@[simp] theorem holdExpire_unitsFit (s : State) (h : unitsFit s.script.units) :
    unitsFit (holdExpire s).script.units := by
  unfold holdExpire; (repeat' split) <;> simp -implicitDefEqProofs [h]

@[simp] theorem holdExpire_pagesFit (s : State) (h : pagesFit s.log.pages) :
    pagesFit (holdExpire s).log.pages := by
  unfold holdExpire; (repeat' split) <;> simp -implicitDefEqProofs [h]

/-! ### Dictionary -/

@[simp] theorem Dictionary.upd_staging (x : Dictionary) (d : Dict) (f : DictRec → DictRec) :
    (x.upd d f).staging = x.staging := by cases d <;> rfl

@[simp] theorem changeFirst_length (p : StagedOp → Bool) (f : StagedOp → StagedOp) (l : List StagedOp) :
    (changeFirst p f l).length = l.length := by
  induction l with
  | nil => rfl
  | cons o os ih => simp only [changeFirst]; split <;> simp [ih]

@[simp] theorem changeFirst_stagingFit (p : StagedOp → Bool) (f : StagedOp → StagedOp) (l : List StagedOp) :
    stagingFit (changeFirst p f l) ↔ stagingFit l := by simp [stagingFit]

@[simp] theorem Dictionary.stall_staging (d : Dict) (x : Dictionary) : (x.stall d).staging = x.staging := by
  simp [Dictionary.stall]

@[simp] theorem Dictionary.onActive_stagingFit (f : StagedOp → StagedOp) (x : Dictionary) :
    stagingFit (x.onActive f).staging ↔ stagingFit x.staging := by simp [Dictionary.onActive]

@[simp] theorem Dictionary.drained_stagingFit (x : Dictionary) (h : stagingFit x.staging) :
    stagingFit x.drained.staging := by
  simp only [stagingFit, Dictionary.drained] at *
  exact Nat.le_trans (List.length_eraseP_le) h

@[simp] theorem Dictionary.clear_stagingFit (d : Dict) (x : Dictionary) (h : stagingFit x.staging) :
    stagingFit (x.clear d).staging := by
  simp only [stagingFit, Dictionary.clear] at *
  exact Nat.le_trans (List.length_filter_le _ _) h

@[simp] theorem Dictionary.enter_staging (d : Dict) (b off : Nat) (x : Dictionary) :
    (x.enter d b off).staging = x.staging := by simp [Dictionary.enter]

@[simp] theorem globalRewrite_unitsFit (o : List Nat) (text : Bytes) (l : List (Nat × Nat)) (r : State × Nat × Nat)
    (h : unitsFit r.1.script.units) : unitsFit (globalRewrite o text l r).1.script.units := by
  induction l generalizing r with
  | nil => simpa [globalRewrite] using h
  | cons a l ih =>
    obtain ⟨n, k⟩ := a
    obtain ⟨s, i, j⟩ := r
    simp only [globalRewrite]
    apply ih
    split
    · exact h
    · split
      · exact h
      · simpa [replaceUnit] using h

@[simp] theorem Dictionary.without_staging (c : Client) (x : Dictionary) : (x.without c).staging = x.staging := rfl

theorem stageRefusal_none (d : Dict) (rs : List (Nat × Nat)) (s : State) (h : stageRefusal d rs s = none) :
    s.dict.staging.length < 32 := by
  by_contra hc
  unfold stageRefusal at h
  have : Config.stagingMax ≤ s.dict.staging.length := by simpa [Config.stagingMax] using hc
  revert h
  split <;> simp_all <;> (repeat' split) <;> simp_all

@[simp] theorem finishIfDone_noticesFit (s : State) (h : noticesFit s.host.notices) :
    noticesFit (finishIfDone s).host.notices := by
  unfold finishIfDone; (repeat' split) <;> simp -implicitDefEqProofs [h]

@[simp] theorem finishIfDone_unitsFit (s : State) (h : unitsFit s.script.units) :
    unitsFit (finishIfDone s).script.units := by
  unfold finishIfDone; (repeat' split) <;> simp -implicitDefEqProofs [h]

@[simp] theorem finishIfDone_pagesFit (s : State) (h : pagesFit s.log.pages) :
    pagesFit (finishIfDone s).log.pages := by
  unfold finishIfDone; (repeat' split) <;> simp -implicitDefEqProofs [h]

@[simp] theorem startWalk_stagingFit (l : Lookup) (s : State) (h : stagingFit s.dict.staging) :
    stagingFit (startWalk l s).dict.staging := by
  simp -implicitDefEqProofs [startWalk, h]

@[simp] theorem countLookup_stagingFit (s : State) (h : stagingFit s.dict.staging) :
    stagingFit (countLookup s).dict.staging := by
  simp -implicitDefEqProofs [countLookup, h]

@[simp] theorem beginRun_stagingFit (first : ℕ) (last : ℕ) (d : Dict) (o : List ℕ) (s : State) (h : stagingFit s.dict.staging) :
    stagingFit (beginRun first last d o s).dict.staging := by
  unfold beginRun; dsimp only; (repeat' split) <;> simp -implicitDefEqProofs [h]

@[simp] theorem handRecord_stagingFit (o : StagedOp) (s : State) (h : stagingFit s.dict.staging) :
    stagingFit (handRecord o s).dict.staging := by
  unfold handRecord; dsimp only; (repeat' split) <;> simp -implicitDefEqProofs [h]

@[simp] theorem drainStep_stagingFit (s : State) (h : stagingFit s.dict.staging) :
    stagingFit (drainStep s).dict.staging := by
  unfold drainStep; (repeat' split) <;> simp -implicitDefEqProofs [h]

@[simp] theorem prefixChecked_stagingFit (met : Bool) (s : State) (h : stagingFit s.dict.staging) :
    stagingFit (prefixChecked met s).dict.staging := by
  unfold prefixChecked; (repeat' split) <;> simp -implicitDefEqProofs [h]

@[simp] theorem drainNext_stagingFit (s : State) (h : stagingFit s.dict.staging) :
    stagingFit (drainNext s).dict.staging := by
  unfold drainNext; (repeat' split) <;> simp -implicitDefEqProofs [h]

@[simp] theorem drainBegin_stagingFit (s : State) (h : stagingFit s.dict.staging) :
    stagingFit (drainBegin s).dict.staging := by
  exact drainNext_stagingFit _ (drainNext_stagingFit _ (drainNext_stagingFit s h))

@[simp] theorem stepDone_stagingFit (o : StagedOp) (s : State) (h : stagingFit s.dict.staging) :
    stagingFit (stepDone o s).dict.staging := by
  unfold stepDone; (repeat' split) <;> simp -implicitDefEqProofs [h]

@[simp] theorem recordSuccess_stagingFit (p : DictProg) (s : State) (h : stagingFit s.dict.staging) :
    stagingFit (recordSuccess p s).dict.staging := by
  unfold recordSuccess; (repeat' split) <;> simp -implicitDefEqProofs [h]

@[simp] theorem deliver_noticesFit (l : Lookup) (ended : Bool) (s : State) (h : noticesFit s.host.notices) :
    noticesFit (deliver l ended s).host.notices := by
  unfold deliver; (repeat' split) <;> simp -implicitDefEqProofs [h]

@[simp] theorem deliver_unitsFit (l : Lookup) (ended : Bool) (s : State) (h : unitsFit s.script.units) :
    unitsFit (deliver l ended s).script.units := by
  unfold deliver; (repeat' split) <;> simp -implicitDefEqProofs [h]

@[simp] theorem deliver_pagesFit (l : Lookup) (ended : Bool) (s : State) (h : pagesFit s.log.pages) :
    pagesFit (deliver l ended s).log.pages := by
  unfold deliver; (repeat' split) <;> simp -implicitDefEqProofs [h]

@[simp] theorem deliver_stagingFit (l : Lookup) (ended : Bool) (s : State) (h : stagingFit s.dict.staging) :
    stagingFit (deliver l ended s).dict.staging := by
  unfold deliver; (repeat' split) <;> simp -implicitDefEqProofs [h]

@[simp] theorem completeLookup_noticesFit (l : Lookup) (ended : Bool) (s : State) (h : noticesFit s.host.notices) :
    noticesFit (completeLookup l ended s).host.notices := by
  simp -implicitDefEqProofs [completeLookup, h]

@[simp] theorem completeLookup_unitsFit (l : Lookup) (ended : Bool) (s : State) (h : unitsFit s.script.units) :
    unitsFit (completeLookup l ended s).script.units := by
  simp -implicitDefEqProofs [completeLookup, h]

@[simp] theorem completeLookup_pagesFit (l : Lookup) (ended : Bool) (s : State) (h : pagesFit s.log.pages) :
    pagesFit (completeLookup l ended s).log.pages := by
  simp -implicitDefEqProofs [completeLookup, h]

@[simp] theorem completeLookup_stagingFit (l : Lookup) (ended : Bool) (s : State) (h : stagingFit s.dict.staging) :
    stagingFit (completeLookup l ended s).dict.staging := by
  simp -implicitDefEqProofs [completeLookup, h]

@[simp] theorem chainError_stagingFit (s : State) (h : stagingFit s.dict.staging) :
    stagingFit (chainError s).dict.staging := by
  simp -implicitDefEqProofs [chainError, h]

@[simp] theorem walkOn_stagingFit (l : Lookup) (s : State) (h : stagingFit s.dict.staging) :
    stagingFit (walkOn l s).dict.staging := by
  simp -implicitDefEqProofs [walkOn, h]

@[simp] theorem walkStep_noticesFit (l : Lookup) (s : State) (h : noticesFit s.host.notices) :
    noticesFit (walkStep l s).host.notices := by
  unfold walkStep; dsimp only; (repeat' split) <;> simp -implicitDefEqProofs [h]

@[simp] theorem walkStep_unitsFit (l : Lookup) (s : State) (h : unitsFit s.script.units) :
    unitsFit (walkStep l s).script.units := by
  unfold walkStep; dsimp only; (repeat' split) <;> simp -implicitDefEqProofs [h]

@[simp] theorem walkStep_pagesFit (l : Lookup) (s : State) (h : pagesFit s.log.pages) :
    pagesFit (walkStep l s).log.pages := by
  unfold walkStep; dsimp only; (repeat' split) <;> simp -implicitDefEqProofs [h]

@[simp] theorem walkStep_stagingFit (l : Lookup) (s : State) (h : stagingFit s.dict.staging) :
    stagingFit (walkStep l s).dict.staging := by
  unfold walkStep; dsimp only; (repeat' split) <;> simp -implicitDefEqProofs [h]

@[simp] theorem lookupRead_noticesFit (c : Client) (s : State) (h : noticesFit s.host.notices) :
    noticesFit (lookupRead c s).host.notices := by
  unfold lookupRead; (repeat' split) <;> simp -implicitDefEqProofs [h]

@[simp] theorem lookupRead_unitsFit (c : Client) (s : State) (h : unitsFit s.script.units) :
    unitsFit (lookupRead c s).script.units := by
  unfold lookupRead; (repeat' split) <;> simp -implicitDefEqProofs [h]

@[simp] theorem lookupRead_pagesFit (c : Client) (s : State) (h : pagesFit s.log.pages) :
    pagesFit (lookupRead c s).log.pages := by
  unfold lookupRead; (repeat' split) <;> simp -implicitDefEqProofs [h]

@[simp] theorem lookupRead_stagingFit (c : Client) (s : State) (h : stagingFit s.dict.staging) :
    stagingFit (lookupRead c s).dict.staging := by
  unfold lookupRead; (repeat' split) <;> simp -implicitDefEqProofs [h]

@[simp] theorem endLookups_noticesFit (x0 : List Lookup) (x1 : State) (h : noticesFit x1.host.notices) :
    noticesFit (endLookups x0 x1).host.notices := by
  fun_induction endLookups x0 x1 <;> (try simp_all -implicitDefEqProofs) <;> (try (split <;> simp_all -implicitDefEqProofs)) <;> (try (split <;> simp_all -implicitDefEqProofs))

@[simp] theorem endLookups_unitsFit (x0 : List Lookup) (x1 : State) (h : unitsFit x1.script.units) :
    unitsFit (endLookups x0 x1).script.units := by
  fun_induction endLookups x0 x1 <;> (try simp_all -implicitDefEqProofs) <;> (try (split <;> simp_all -implicitDefEqProofs)) <;> (try (split <;> simp_all -implicitDefEqProofs))

@[simp] theorem endLookups_pagesFit (x0 : List Lookup) (x1 : State) (h : pagesFit x1.log.pages) :
    pagesFit (endLookups x0 x1).log.pages := by
  fun_induction endLookups x0 x1 <;> (try simp_all -implicitDefEqProofs) <;> (try (split <;> simp_all -implicitDefEqProofs)) <;> (try (split <;> simp_all -implicitDefEqProofs))

@[simp] theorem endLookups_stagingFit (x0 : List Lookup) (x1 : State) (h : stagingFit x1.dict.staging) :
    stagingFit (endLookups x0 x1).dict.staging := by
  fun_induction endLookups x0 x1 <;> (try simp_all -implicitDefEqProofs) <;> (try (split <;> simp_all -implicitDefEqProofs)) <;> (try (split <;> simp_all -implicitDefEqProofs))

@[simp] theorem endLookupsOf_noticesFit (p : Lookup → Bool) (s : State) (h : noticesFit s.host.notices) :
    noticesFit (endLookupsOf p s).host.notices := by
  simp -implicitDefEqProofs [endLookupsOf, h]

@[simp] theorem endLookupsOf_unitsFit (p : Lookup → Bool) (s : State) (h : unitsFit s.script.units) :
    unitsFit (endLookupsOf p s).script.units := by
  simp -implicitDefEqProofs [endLookupsOf, h]

@[simp] theorem endLookupsOf_pagesFit (p : Lookup → Bool) (s : State) (h : pagesFit s.log.pages) :
    pagesFit (endLookupsOf p s).log.pages := by
  simp -implicitDefEqProofs [endLookupsOf, h]

@[simp] theorem endLookupsOf_stagingFit (p : Lookup → Bool) (s : State) (h : stagingFit s.dict.staging) :
    stagingFit (endLookupsOf p s).dict.staging := by
  simp -implicitDefEqProofs [endLookupsOf, h]

@[simp] theorem eraseDict_noticesFit (d : Dict) (s : State) (h : noticesFit s.host.notices) :
    noticesFit (eraseDict d s).host.notices := by
  simp -implicitDefEqProofs [eraseDict, h]

@[simp] theorem eraseDict_unitsFit (d : Dict) (s : State) (h : unitsFit s.script.units) :
    unitsFit (eraseDict d s).script.units := by
  simp -implicitDefEqProofs [eraseDict, h]

@[simp] theorem eraseDict_pagesFit (d : Dict) (s : State) (h : pagesFit s.log.pages) :
    pagesFit (eraseDict d s).log.pages := by
  simp -implicitDefEqProofs [eraseDict, h]

@[simp] theorem eraseDict_stagingFit (d : Dict) (s : State) (h : stagingFit s.dict.staging) :
    stagingFit (eraseDict d s).dict.staging := by
  simp -implicitDefEqProofs [eraseDict, h]

@[simp] theorem formatDicts_noticesFit (s : State) (h : noticesFit s.host.notices) :
    noticesFit (formatDicts s).host.notices := by
  simp -implicitDefEqProofs [formatDicts, h]

@[simp] theorem formatDicts_unitsFit (s : State) (h : unitsFit s.script.units) :
    unitsFit (formatDicts s).script.units := by
  simp -implicitDefEqProofs [formatDicts, h]

@[simp] theorem formatDicts_pagesFit (s : State) (h : pagesFit s.log.pages) :
    pagesFit (formatDicts s).log.pages := by
  simp -implicitDefEqProofs [formatDicts, h]

@[simp] theorem formatDicts_stagingFit (s : State) (h : stagingFit s.dict.staging) :
    stagingFit (formatDicts s).dict.staging := by
  unfold formatDicts
  apply endLookupsOf_stagingFit
  simp -implicitDefEqProofs [h]
  exact Dictionary.clear_stagingFit _ _ (Dictionary.clear_stagingFit _ _ (Dictionary.clear_stagingFit _ _ h))

@[simp] theorem acceptAdd_unitsFit (d : Dict) (global : Bool) (o : List ℕ) (text : Bytes) (s : State) (h : unitsFit s.script.units) :
    unitsFit (acceptAdd d global o text s).1.script.units := by
  unfold acceptAdd; (repeat' split) <;> simp -implicitDefEqProofs [h]

@[simp] theorem entryAddRule_unitsFit (p : Bytes) (s : State) (h : unitsFit s.script.units) :
    unitsFit (entryAddRule p s).1.script.units := by
  unfold entryAddRule; dsimp only; (repeat' split) <;> simp -implicitDefEqProofs [h]

@[simp] theorem entryLookupRule_noticesFit (tag : Byte) (p : Bytes) (s : State) (h : noticesFit s.host.notices) :
    noticesFit (entryLookupRule tag p s).1.host.notices := by
  unfold entryLookupRule; dsimp only; (repeat' split) <;> simp -implicitDefEqProofs [h]

@[simp] theorem entryLookupRule_unitsFit (tag : Byte) (p : Bytes) (s : State) (h : unitsFit s.script.units) :
    unitsFit (entryLookupRule tag p s).1.script.units := by
  unfold entryLookupRule; dsimp only; (repeat' split) <;> simp -implicitDefEqProofs [h]

@[simp] theorem entryLookupRule_pagesFit (tag : Byte) (p : Bytes) (s : State) (h : pagesFit s.log.pages) :
    pagesFit (entryLookupRule tag p s).1.log.pages := by
  unfold entryLookupRule; dsimp only; (repeat' split) <;> simp -implicitDefEqProofs [h]

@[simp] theorem entryLookupRule_stagingFit (tag : Byte) (p : Bytes) (s : State) (h : stagingFit s.dict.staging) :
    stagingFit (entryLookupRule tag p s).1.dict.staging := by
  unfold entryLookupRule; dsimp only; (repeat' split) <;> simp -implicitDefEqProofs [h]

@[simp] theorem entryAddRule_stagingFit (p : Bytes) (s : State) (h : stagingFit s.dict.staging) :
    stagingFit (entryAddRule p s).1.dict.staging := by
  unfold entryAddRule
  dsimp only
  split
  · exact h
  · split
    · exact h
    · rename_i hr
      have := stageRefusal_none _ _ _ hr
      unfold acceptAdd
      dsimp only
      split <;> simp [stage, stagingFit] <;> omega

@[simp] theorem entryDeleteRule_stagingFit (p : Bytes) (s : State) (h : stagingFit s.dict.staging) :
    stagingFit (entryDeleteRule p s).1.dict.staging := by
  unfold entryDeleteRule
  dsimp only
  split
  · exact h
  · split
    · exact h
    · rename_i hr
      have := stageRefusal_none _ _ _ hr
      simp [stage, stagingFit]; omega

/-! ### StoreOps -/

@[simp] theorem enterAll_staging (d : Dict) (rs : List (Nat × Nat)) (x : Dictionary) :
    (enterAll d rs x).staging = x.staging := by
  unfold enterAll
  induction rs generalizing x with
  | nil => rfl
  | cons r rs ih => simp [ih]

@[simp] theorem startLog_pagesFit (p : BufPage) (s : State) (h : pagesFit s.log.pages) :
    pagesFit (startLog p s).log.pages := by
  simp -implicitDefEqProofs [startLog, h]

@[simp] theorem pumpIdle_pagesFit (s : State) (h : pagesFit s.log.pages) :
    pagesFit (pumpIdle s).log.pages := by
  unfold pumpIdle; (repeat' split) <;> simp -implicitDefEqProofs [h]

@[simp] theorem pumpSuspended_pagesFit (r : Running) (s : State) (h : pagesFit s.log.pages) :
    pagesFit (pumpSuspended r s).log.pages := by
  unfold pumpSuspended; dsimp only; (repeat' split) <;> simp -implicitDefEqProofs [h]

@[simp] theorem storePump_pagesFit (s : State) (h : pagesFit s.log.pages) :
    pagesFit (storePump s).log.pages := by
  unfold storePump; (repeat' split) <;> simp -implicitDefEqProofs [h]

@[simp] theorem completeFlush_noticesFit (failed : Option Reason) (s : State) (h : noticesFit s.host.notices) :
    noticesFit (completeFlush failed s).host.notices := by
  unfold completeFlush; (repeat' split) <;> simp -implicitDefEqProofs [h]

@[simp] theorem completeFlush_pagesFit (failed : Option Reason) (s : State) (h : pagesFit s.log.pages) :
    pagesFit (completeFlush failed s).log.pages := by
  unfold completeFlush; (repeat' split) <;> simp -implicitDefEqProofs [h]

@[simp] theorem completeFormat_noticesFit (failed : Option Reason) (data : Bytes) (s : State) (h : noticesFit s.host.notices) :
    noticesFit (completeFormat failed data s).host.notices := by
  simp -implicitDefEqProofs [completeFormat, h]

@[simp] theorem completeErase_noticesFit (failed : Option Reason) (s : State) (h : noticesFit s.host.notices) :
    noticesFit (completeErase failed s).host.notices := by
  simp -implicitDefEqProofs [completeErase, h]

@[simp] theorem completeRecover_noticesFit (failed : Option Reason) (s : State) (h : noticesFit s.host.notices) :
    noticesFit (completeRecover failed s).host.notices := by
  simp -implicitDefEqProofs [completeRecover, h]

@[simp] theorem failJob_noticesFit (f : FailedWork) (s : State) (h : noticesFit s.host.notices) :
    noticesFit (failJob f s).host.notices := by
  unfold failJob; (repeat' split) <;> simp -implicitDefEqProofs [h]

@[simp] theorem enterFault_noticesFit (f : FailedWork) (s : State) (h : noticesFit s.host.notices) :
    noticesFit (enterFault f s).host.notices := by
  unfold enterFault
  dsimp only
  apply completeRecover_noticesFit
  apply completeFlush_noticesFit
  apply failJob_noticesFit
  apply setCause_noticesFit
  simpa using h

@[simp] theorem enterFault_pagesFit (f : FailedWork) (s : State) (h : pagesFit s.log.pages) :
    pagesFit (enterFault f s).log.pages := by
  simp -implicitDefEqProofs [enterFault, h]

@[simp] theorem shiftLog_noticesFit (s : State) (h : noticesFit s.host.notices) :
    noticesFit (shiftLog s).host.notices := by
  simp -implicitDefEqProofs [shiftLog, h]

@[simp] theorem shiftLog_pagesFit (s : State) (h : pagesFit s.log.pages) :
    pagesFit (shiftLog s).log.pages := by
  simp -implicitDefEqProofs [shiftLog, h]

@[simp] theorem logFailed_noticesFit (s : State) (h : noticesFit s.host.notices) :
    noticesFit (logFailed s).host.notices := by
  unfold logFailed; (repeat' split) <;> simp -implicitDefEqProofs [h]

@[simp] theorem logFailed_pagesFit (s : State) (h : pagesFit s.log.pages) :
    pagesFit (logFailed s).log.pages := by
  unfold logFailed; (repeat' split) <;> simp -implicitDefEqProofs [h]

@[simp] theorem dictFailed_noticesFit (p : DictProg) (s : State) (h : noticesFit s.host.notices) :
    noticesFit (dictFailed p s).host.notices := by
  unfold dictFailed; (repeat' split) <;> simp -implicitDefEqProofs [h]

@[simp] theorem dictFailed_pagesFit (p : DictProg) (s : State) (h : pagesFit s.log.pages) :
    pagesFit (dictFailed p s).log.pages := by
  unfold dictFailed; (repeat' split) <;> simp -implicitDefEqProofs [h]

@[simp] theorem workFailed_noticesFit (w : Work) (s : State) (h : noticesFit s.host.notices) :
    noticesFit (workFailed w s).host.notices := by
  unfold workFailed; (repeat' split) <;> simp -implicitDefEqProofs [h]

@[simp] theorem workFailed_pagesFit (w : Work) (s : State) (h : pagesFit s.log.pages) :
    pagesFit (workFailed w s).log.pages := by
  unfold workFailed; (repeat' split) <;> simp -implicitDefEqProofs [h]

@[simp] theorem recovered_noticesFit (s : State) (h : noticesFit s.host.notices) :
    noticesFit (recovered s).host.notices := by
  simp -implicitDefEqProofs [recovered, h]

@[simp] theorem flushProgress_noticesFit (s : State) (h : noticesFit s.host.notices) :
    noticesFit (flushProgress s).host.notices := by
  unfold flushProgress; (repeat' split) <;> simp -implicitDefEqProofs [h]

@[simp] theorem flushProgress_pagesFit (s : State) (h : pagesFit s.log.pages) :
    pagesFit (flushProgress s).log.pages := by
  unfold flushProgress; (repeat' split) <;> simp -implicitDefEqProofs [h]

@[simp] theorem logDone_noticesFit (s : State) (h : noticesFit s.host.notices) :
    noticesFit (logDone s).host.notices := by
  simp -implicitDefEqProofs [logDone, h]

@[simp] theorem logDone_pagesFit (s : State) (h : pagesFit s.log.pages) :
    pagesFit (logDone s).log.pages := by
  unfold logDone
  apply flushProgress_pagesFit
  simpa using drop_pagesFit 1 _ h

@[simp] theorem dictDone_stagingFit (p : DictProg) (s : State) (h : stagingFit s.dict.staging) :
    stagingFit (dictDone p s).dict.staging := by
  unfold dictDone; (repeat' split) <;> simp -implicitDefEqProofs [h]

@[simp] theorem eraseDone_noticesFit (d : Dict) (s : State) (h : noticesFit s.host.notices) :
    noticesFit (eraseDone d s).host.notices := by
  simp -implicitDefEqProofs [eraseDone, h]

@[simp] theorem jobDone_noticesFit (s : State) (h : noticesFit s.host.notices) :
    noticesFit (jobDone s).host.notices := by
  unfold jobDone; dsimp only; (repeat' split) <;> simp -implicitDefEqProofs [h]

@[simp] theorem workDone_noticesFit (w : Work) (s : State) (h : noticesFit s.host.notices) :
    noticesFit (workDone w s).host.notices := by
  unfold workDone; dsimp only; (repeat' split) <;> simp -implicitDefEqProofs [h]

@[simp] theorem workDone_pagesFit (w : Work) (s : State) (h : pagesFit s.log.pages) :
    pagesFit (workDone w s).log.pages := by
  unfold workDone; dsimp only; (repeat' split) <;> simp -implicitDefEqProofs [h]

@[simp] theorem workDone_stagingFit (w : Work) (s : State) (h : stagingFit s.dict.staging) :
    stagingFit (workDone w s).dict.staging := by
  unfold workDone; dsimp only; (repeat' split) <;> simp -implicitDefEqProofs [h]

@[simp] theorem opEnded_noticesFit (r : Running) (error : Bool) (left : List Host.Cell) (s : State) (h : noticesFit s.host.notices) :
    noticesFit (opEnded r error left s).host.notices := by
  unfold opEnded; (repeat' split) <;> simp -implicitDefEqProofs [h]

@[simp] theorem opEnded_pagesFit (r : Running) (error : Bool) (left : List Host.Cell) (s : State) (h : pagesFit s.log.pages) :
    pagesFit (opEnded r error left s).log.pages := by
  unfold opEnded; (repeat' split) <;> simp -implicitDefEqProofs [h]

@[simp] theorem opEnded_stagingFit (r : Running) (error : Bool) (left : List Host.Cell) (s : State) (h : stagingFit s.dict.staging) :
    stagingFit (opEnded r error left s).dict.staging := by
  unfold opEnded; (repeat' split) <;> simp -implicitDefEqProofs [h]

@[simp] theorem stillBusy_noticesFit (r : Running) (s : State) (h : noticesFit s.host.notices) :
    noticesFit (stillBusy r s).host.notices := by
  unfold stillBusy; (repeat' split) <;> simp -implicitDefEqProofs [h]

@[simp] theorem stillBusy_pagesFit (r : Running) (s : State) (h : pagesFit s.log.pages) :
    pagesFit (stillBusy r s).log.pages := by
  unfold stillBusy; (repeat' split) <;> simp -implicitDefEqProofs [h]

@[simp] theorem mountDict_stagingFit (d : Dict) (s : State) (h : stagingFit s.dict.staging) :
    stagingFit (mountDict d s).dict.staging := by
  unfold mountDict; (repeat' split) <;> simp -implicitDefEqProofs [h]

@[simp] theorem mountLog_noticesFit (s : State) (h : noticesFit s.host.notices) :
    noticesFit (mountLog s).host.notices := by
  simp -implicitDefEqProofs [mountLog, h]

@[simp] theorem mountFails_noticesFit (s : State) (h : noticesFit s.host.notices) :
    noticesFit (mountFails s).host.notices := by
  simp -implicitDefEqProofs [mountFails, h]

@[simp] theorem mountHeader_noticesFit (s : State) (h : noticesFit s.host.notices) :
    noticesFit (mountHeader s).host.notices := by
  unfold mountHeader; (repeat' split) <;> simp -implicitDefEqProofs [h]

@[simp] theorem mountHeader_stagingFit (s : State) (h : stagingFit s.dict.staging) :
    stagingFit (mountHeader s).dict.staging := by
  unfold mountHeader; (repeat' split) <;> simp -implicitDefEqProofs [h]

@[simp] theorem mountRead_noticesFit (s : State) (h : noticesFit s.host.notices) :
    noticesFit (mountRead s).host.notices := by
  unfold mountRead; (repeat' split) <;> simp -implicitDefEqProofs [h]

@[simp] theorem mountRead_stagingFit (s : State) (h : stagingFit s.dict.staging) :
    stagingFit (mountRead s).dict.staging := by
  unfold mountRead; (repeat' split) <;> simp -implicitDefEqProofs [h]

@[simp] theorem logReadDone_noticesFit (q : LogReading) (s : State) (h : noticesFit s.host.notices) :
    noticesFit (logReadDone q s).host.notices := by
  simp -implicitDefEqProofs [logReadDone, h]

@[simp] theorem logReadOn_noticesFit (x0 : ℕ) (x1 : LogReading) (x2 : State) (h : noticesFit x2.host.notices) :
    noticesFit (logReadOn x0 x1 x2).host.notices := by
  fun_induction logReadOn x0 x1 x2 <;> (try simp_all -implicitDefEqProofs) <;> (try (split <;> simp_all -implicitDefEqProofs)) <;> (try (split <;> simp_all -implicitDefEqProofs))

@[simp] theorem logReadPage_noticesFit (s : State) (h : noticesFit s.host.notices) :
    noticesFit (logReadPage s).host.notices := by
  unfold logReadPage; (repeat' split) <;> simp -implicitDefEqProofs [h]

@[simp] theorem readEnded_noticesFit (r : ReadFor) (s : State) (h : noticesFit s.host.notices) :
    noticesFit (readEnded r s).host.notices := by
  unfold readEnded; (repeat' split) <;> simp -implicitDefEqProofs [h]

@[simp] theorem readEnded_unitsFit (r : ReadFor) (s : State) (h : unitsFit s.script.units) :
    unitsFit (readEnded r s).script.units := by
  unfold readEnded; (repeat' split) <;> simp -implicitDefEqProofs [h]

@[simp] theorem readEnded_pagesFit (r : ReadFor) (s : State) (h : pagesFit s.log.pages) :
    pagesFit (readEnded r s).log.pages := by
  unfold readEnded; (repeat' split) <;> simp -implicitDefEqProofs [h]

@[simp] theorem readEnded_stagingFit (r : ReadFor) (s : State) (h : stagingFit s.dict.staging) :
    stagingFit (readEnded r s).dict.staging := by
  unfold readEnded; (repeat' split) <;> simp -implicitDefEqProofs [h]

@[simp] theorem retryWork_noticesFit (f : FailedWork) (s : State) (h : noticesFit s.host.notices) :
    noticesFit (retryWork f s).host.notices := by
  unfold retryWork; (repeat' split) <;> simp -implicitDefEqProofs [h]

@[simp] theorem retryWork_pagesFit (f : FailedWork) (s : State) (h : pagesFit s.log.pages) :
    pagesFit (retryWork f s).log.pages := by
  unfold retryWork; (repeat' split) <;> simp -implicitDefEqProofs [h]

@[simp] theorem storeRecoverRule_noticesFit (tag : Byte) (s : State) (h : noticesFit s.host.notices) :
    noticesFit (storeRecoverRule tag s).1.host.notices := by
  unfold storeRecoverRule; dsimp only; (repeat' split) <;> simp -implicitDefEqProofs [h]

@[simp] theorem storeRecoverRule_pagesFit (tag : Byte) (s : State) (h : pagesFit s.log.pages) :
    pagesFit (storeRecoverRule tag s).1.log.pages := by
  unfold storeRecoverRule; dsimp only; (repeat' split) <;> simp -implicitDefEqProofs [h]

@[simp] theorem failLogRead_noticesFit (s : State) (h : noticesFit s.host.notices) :
    noticesFit (failLogRead s).host.notices := by
  unfold failLogRead; (repeat' split) <;> simp -implicitDefEqProofs [h]

@[simp] theorem takeFormat_noticesFit (tag : Byte) (p : Bytes) (s : State) (h : noticesFit s.host.notices) :
    noticesFit (takeFormat tag p s).host.notices := by
  unfold takeFormat
  dsimp only
  apply logCauses_noticesFit
  apply setCause_noticesFit
  simp only [onLog_host, onStore_host]
  apply completeRecover_noticesFit
  apply completeFlush_noticesFit
  apply completeErase_noticesFit
  simp -implicitDefEqProofs [h]

@[simp] theorem takeFormat_unitsFit (tag : Byte) (p : Bytes) (s : State) (h : unitsFit s.script.units) :
    unitsFit (takeFormat tag p s).script.units := by
  simp -implicitDefEqProofs [takeFormat, h]

@[simp] theorem takeFormat_pagesFit (tag : Byte) (p : Bytes) (s : State) (h : pagesFit s.log.pages) :
    pagesFit (takeFormat tag p s).log.pages := by
  unfold takeFormat; (repeat' split) <;> simp_all [noticesFit, unitsFit, pagesFit, stagingFit]

@[simp] theorem takeFormat_stagingFit (tag : Byte) (p : Bytes) (s : State) (h : stagingFit s.dict.staging) :
    stagingFit (takeFormat tag p s).dict.staging := by
  unfold takeFormat
  dsimp only
  simp -implicitDefEqProofs [h]

@[simp] theorem formatRule_noticesFit (tag : Byte) (p : Bytes) (s : State) (h : noticesFit s.host.notices) :
    noticesFit (formatRule tag p s).1.host.notices := by
  unfold formatRule; (repeat' split) <;> simp -implicitDefEqProofs [h]

@[simp] theorem formatRule_unitsFit (tag : Byte) (p : Bytes) (s : State) (h : unitsFit s.script.units) :
    unitsFit (formatRule tag p s).1.script.units := by
  unfold formatRule; (repeat' split) <;> simp -implicitDefEqProofs [h]

@[simp] theorem formatRule_pagesFit (tag : Byte) (p : Bytes) (s : State) (h : pagesFit s.log.pages) :
    pagesFit (formatRule tag p s).1.log.pages := by
  unfold formatRule; (repeat' split) <;> simp -implicitDefEqProofs [h]

@[simp] theorem formatRule_stagingFit (tag : Byte) (p : Bytes) (s : State) (h : stagingFit s.dict.staging) :
    stagingFit (formatRule tag p s).1.dict.staging := by
  unfold formatRule; (repeat' split) <;> simp -implicitDefEqProofs [h]

@[simp] theorem takeErase_noticesFit (tag : Byte) (d : Dict) (s : State) (h : noticesFit s.host.notices) :
    noticesFit (takeErase tag d s).host.notices := by
  unfold takeErase; (repeat' split) <;> simp -implicitDefEqProofs [h]

@[simp] theorem takeErase_unitsFit (tag : Byte) (d : Dict) (s : State) (h : unitsFit s.script.units) :
    unitsFit (takeErase tag d s).script.units := by
  unfold takeErase; (repeat' split) <;> simp -implicitDefEqProofs [h]

@[simp] theorem takeErase_pagesFit (tag : Byte) (d : Dict) (s : State) (h : pagesFit s.log.pages) :
    pagesFit (takeErase tag d s).log.pages := by
  unfold takeErase; (repeat' split) <;> simp -implicitDefEqProofs [h]

@[simp] theorem takeErase_stagingFit (tag : Byte) (d : Dict) (s : State) (h : stagingFit s.dict.staging) :
    stagingFit (takeErase tag d s).dict.staging := by
  unfold takeErase; (repeat' split) <;> simp -implicitDefEqProofs [h]

@[simp] theorem eraseRule_noticesFit (tag : Byte) (p : Bytes) (s : State) (h : noticesFit s.host.notices) :
    noticesFit (eraseRule tag p s).1.host.notices := by
  unfold eraseRule; (repeat' split) <;> simp -implicitDefEqProofs [h]

@[simp] theorem eraseRule_unitsFit (tag : Byte) (p : Bytes) (s : State) (h : unitsFit s.script.units) :
    unitsFit (eraseRule tag p s).1.script.units := by
  unfold eraseRule; (repeat' split) <;> simp -implicitDefEqProofs [h]

@[simp] theorem eraseRule_pagesFit (tag : Byte) (p : Bytes) (s : State) (h : pagesFit s.log.pages) :
    pagesFit (eraseRule tag p s).1.log.pages := by
  unfold eraseRule; (repeat' split) <;> simp -implicitDefEqProofs [h]

@[simp] theorem eraseRule_stagingFit (tag : Byte) (p : Bytes) (s : State) (h : stagingFit s.dict.staging) :
    stagingFit (eraseRule tag p s).1.dict.staging := by
  unfold eraseRule; (repeat' split) <;> simp -implicitDefEqProofs [h]

@[simp] theorem logReadRule_noticesFit (tag : Byte) (p : Bytes) (s : State) (h : noticesFit s.host.notices) :
    noticesFit (logReadRule tag p s).1.host.notices := by
  unfold logReadRule; (repeat' split) <;> simp -implicitDefEqProofs [h]

@[simp] theorem logFlushRule_pagesFit (tag : Byte) (s : State) (h : pagesFit s.log.pages) :
    pagesFit (logFlushRule tag s).1.log.pages := by
  unfold logFlushRule; (repeat' split) <;> simp -implicitDefEqProofs [h]

@[simp] theorem closeDone_noticesFit (failed : Option Reason) (s : State) (h : noticesFit s.host.notices) :
    noticesFit (closeDone failed s).host.notices := by
  simp -implicitDefEqProofs [closeDone, h]

@[simp] theorem closeDone_unitsFit (failed : Option Reason) (s : State) (h : unitsFit s.script.units) :
    unitsFit (closeDone failed s).script.units := by
  simp -implicitDefEqProofs [closeDone, h]

@[simp] theorem closeDone_pagesFit (failed : Option Reason) (s : State) (h : pagesFit s.log.pages) :
    pagesFit (closeDone failed s).log.pages := by
  simp -implicitDefEqProofs [closeDone, h]

@[simp] theorem flushReport_noticesFit (s : State) (h : noticesFit s.host.notices) :
    noticesFit (flushReport s).host.notices := by
  unfold flushReport; (repeat' split) <;> simp -implicitDefEqProofs [h]

@[simp] theorem flushReport_unitsFit (s : State) (h : unitsFit s.script.units) :
    unitsFit (flushReport s).script.units := by
  unfold flushReport; (repeat' split) <;> simp -implicitDefEqProofs [h]

@[simp] theorem flushReport_pagesFit (s : State) (h : pagesFit s.log.pages) :
    pagesFit (flushReport s).log.pages := by
  unfold flushReport; (repeat' split) <;> simp -implicitDefEqProofs [h]

/-! ### KeyLinks -/

@[simp] theorem echoStroke_noticesFit (r : StrokeRec) (seq : Option Count) (s : State) (h : noticesFit s.host.notices) :
    noticesFit (echoStroke r seq s).host.notices := by
  unfold echoStroke; (repeat' split) <;> simp -implicitDefEqProofs [h]

@[simp] theorem numberStroke_noticesFit (r : StrokeRec) (lost : Bool) (s : State) (h : noticesFit s.host.notices) :
    noticesFit (numberStroke r lost s).host.notices := by
  unfold numberStroke
  dsimp only
  apply echoStroke_noticesFit
  have h1 : noticesFit (offerStroke r { s with seqCounter := s.seqCounter + 1 }).1.host.notices :=
    offerStroke_noticesFit _ _ h
  split
  · simpa using h1
  · apply dispose_noticesFit
    exact h1

@[simp] theorem numberStroke_unitsFit (r : StrokeRec) (lost : Bool) (s : State) (h : unitsFit s.script.units) :
    unitsFit (numberStroke r lost s).script.units := by
  unfold numberStroke; (repeat' split) <;> simp -implicitDefEqProofs [h]

@[simp] theorem numberStroke_pagesFit (r : StrokeRec) (lost : Bool) (s : State) (h : pagesFit s.log.pages) :
    pagesFit (numberStroke r lost s).log.pages := by
  unfold numberStroke; (repeat' split) <;> simp -implicitDefEqProofs [h]

@[simp] theorem discardStroke_noticesFit (r : StrokeRec) (s : State) (h : noticesFit s.host.notices) :
    noticesFit (discardStroke r s).host.notices := by
  simp -implicitDefEqProofs [discardStroke, h]

@[simp] theorem closeStroke_noticesFit (p : Pos) (held : Bool) (damaged : Bool) (lost : Bool) (s : State) (h : noticesFit s.host.notices) :
    noticesFit (closeStroke p held damaged lost s).host.notices := by
  unfold closeStroke; dsimp only; (repeat' split) <;> simp -implicitDefEqProofs [h]

@[simp] theorem closeStroke_unitsFit (p : Pos) (held : Bool) (damaged : Bool) (lost : Bool) (s : State) (h : unitsFit s.script.units) :
    unitsFit (closeStroke p held damaged lost s).script.units := by
  unfold closeStroke; dsimp only; (repeat' split) <;> simp -implicitDefEqProofs [h]

@[simp] theorem closeStroke_pagesFit (p : Pos) (held : Bool) (damaged : Bool) (lost : Bool) (s : State) (h : pagesFit s.log.pages) :
    pagesFit (closeStroke p held damaged lost s).log.pages := by
  unfold closeStroke; dsimp only; (repeat' split) <;> simp -implicitDefEqProofs [h]

@[simp] theorem closeHeld_noticesFit (p : Pos) (s : State) (h : noticesFit s.host.notices) :
    noticesFit (closeHeld p s).host.notices := by
  unfold closeHeld; (repeat' split) <;> simp -implicitDefEqProofs [h]

@[simp] theorem closeHeld_unitsFit (p : Pos) (s : State) (h : unitsFit s.script.units) :
    unitsFit (closeHeld p s).script.units := by
  unfold closeHeld; (repeat' split) <;> simp -implicitDefEqProofs [h]

@[simp] theorem closeHeld_pagesFit (p : Pos) (s : State) (h : pagesFit s.log.pages) :
    pagesFit (closeHeld p s).log.pages := by
  unfold closeHeld; (repeat' split) <;> simp -implicitDefEqProofs [h]

@[simp] theorem formerReport_noticesFit (p : Pos) (k : Keys) (s : State) (h : noticesFit s.host.notices) :
    noticesFit (formerReport p k s).host.notices := by
  unfold formerReport; dsimp only; (repeat' split) <;> simp -implicitDefEqProofs [h]

@[simp] theorem formerReport_unitsFit (p : Pos) (k : Keys) (s : State) (h : unitsFit s.script.units) :
    unitsFit (formerReport p k s).script.units := by
  unfold formerReport; dsimp only; (repeat' split) <;> simp -implicitDefEqProofs [h]

@[simp] theorem formerReport_pagesFit (p : Pos) (k : Keys) (s : State) (h : pagesFit s.log.pages) :
    pagesFit (formerReport p k s).log.pages := by
  unfold formerReport; dsimp only; (repeat' split) <;> simp -implicitDefEqProofs [h]

@[simp] theorem linkDown_noticesFit (p : Pos) (s : State) (h : noticesFit s.host.notices) :
    noticesFit (linkDown p s).host.notices := by
  unfold linkDown
  dsimp only
  apply setCause_noticesFit
  apply floorLinkDown_noticesFit
  simp -implicitDefEqProofs [h]

@[simp] theorem linkDown_unitsFit (p : Pos) (s : State) (h : unitsFit s.script.units) :
    unitsFit (linkDown p s).script.units := by
  simp -implicitDefEqProofs [linkDown, h]

@[simp] theorem linkDown_pagesFit (p : Pos) (s : State) (h : pagesFit s.log.pages) :
    pagesFit (linkDown p s).log.pages := by
  simp -implicitDefEqProofs [linkDown, h]

@[simp] theorem linkUp_noticesFit (p : Pos) (s : State) (h : noticesFit s.host.notices) :
    noticesFit (linkUp p s).host.notices := by
  unfold linkUp; (repeat' split) <;> simp -implicitDefEqProofs [h]

@[simp] theorem validReport_noticesFit (p : Pos) (k : Keys) (s : State) (h : noticesFit s.host.notices) :
    noticesFit (validReport p k s).host.notices := by
  simp -implicitDefEqProofs [validReport, h]

@[simp] theorem validReport_unitsFit (p : Pos) (k : Keys) (s : State) (h : unitsFit s.script.units) :
    unitsFit (validReport p k s).script.units := by
  simp -implicitDefEqProofs [validReport, h]

@[simp] theorem validReport_pagesFit (p : Pos) (k : Keys) (s : State) (h : pagesFit s.log.pages) :
    pagesFit (validReport p k s).log.pages := by
  simp -implicitDefEqProofs [validReport, h]

@[simp] theorem completeReport_noticesFit (p : Pos) (b0 : Byte) (b1 : Byte) (b2 : Byte) (b3 : Byte) (s : State) (h : noticesFit s.host.notices) :
    noticesFit (completeReport p b0 b1 b2 b3 s).host.notices := by
  unfold completeReport; (repeat' split) <;> simp -implicitDefEqProofs [h]

@[simp] theorem completeReport_unitsFit (p : Pos) (b0 : Byte) (b1 : Byte) (b2 : Byte) (b3 : Byte) (s : State) (h : unitsFit s.script.units) :
    unitsFit (completeReport p b0 b1 b2 b3 s).script.units := by
  unfold completeReport; (repeat' split) <;> simp -implicitDefEqProofs [h]

@[simp] theorem completeReport_pagesFit (p : Pos) (b0 : Byte) (b1 : Byte) (b2 : Byte) (b3 : Byte) (s : State) (h : pagesFit s.log.pages) :
    pagesFit (completeReport p b0 b1 b2 b3 s).log.pages := by
  unfold completeReport; (repeat' split) <;> simp -implicitDefEqProofs [h]

@[simp] theorem keyChar_noticesFit (p : Pos) (c : Byte) (s : State) (h : noticesFit s.host.notices) :
    noticesFit (keyChar p c s).host.notices := by
  unfold keyChar; (repeat' split) <;> simp -implicitDefEqProofs [h]

@[simp] theorem keyChar_unitsFit (p : Pos) (c : Byte) (s : State) (h : unitsFit s.script.units) :
    unitsFit (keyChar p c s).script.units := by
  unfold keyChar; (repeat' split) <;> simp -implicitDefEqProofs [h]

@[simp] theorem keyChar_pagesFit (p : Pos) (c : Byte) (s : State) (h : pagesFit s.log.pages) :
    pagesFit (keyChar p c s).log.pages := by
  unfold keyChar; (repeat' split) <;> simp -implicitDefEqProofs [h]

@[simp] theorem keyChars_noticesFit (p : Pos) (cs : Bytes) (s : State) (h : noticesFit s.host.notices) :
    noticesFit (keyChars p cs s).host.notices := by
  unfold keyChars
  exact foldl_noticesFit _ _ _ (fun s a h => keyChar_noticesFit _ _ _ h) h

@[simp] theorem keyChars_unitsFit (p : Pos) (cs : Bytes) (s : State) (h : unitsFit s.script.units) :
    unitsFit (keyChars p cs s).script.units := by
  unfold keyChars; (repeat' split) <;> simp_all -implicitDefEqProofs

@[simp] theorem keyChars_pagesFit (p : Pos) (cs : Bytes) (s : State) (h : pagesFit s.log.pages) :
    pagesFit (keyChars p cs s).log.pages := by
  unfold keyChars; (repeat' split) <;> simp_all -implicitDefEqProofs

/-! ### Time -/

@[simp] theorem syncCauses_noticesFit (s : State) (h : noticesFit s.host.notices) :
    noticesFit (syncCauses s).host.notices := by
  simp -implicitDefEqProofs [syncCauses, h]

@[simp] theorem timeNotice_noticesFit (event : TimeEvent) (error : ℤ) (s : State) (h : noticesFit s.host.notices) :
    noticesFit (timeNotice event error s).host.notices := by
  simp -implicitDefEqProofs [timeNotice, h]

@[simp] theorem acceptSync_noticesFit (r : ℕ) (s : State) (h : noticesFit s.host.notices) :
    noticesFit (acceptSync r s).1.host.notices := by
  unfold acceptSync; dsimp only; (repeat' split) <;> simp -implicitDefEqProofs [h]

@[simp] theorem syncMarkRule_noticesFit (payload : Bytes) (s : State) (h : noticesFit s.host.notices) :
    noticesFit (syncMarkRule payload s).1.host.notices := by
  unfold syncMarkRule; dsimp only; (repeat' split) <;> simp -implicitDefEqProofs [h]

/-! ### Positions -/

@[simp] theorem disablePos_noticesFit (p : Pos) (s : State) (h : noticesFit s.host.notices) :
    noticesFit (disablePos p s).host.notices := by
  unfold disablePos; (repeat' split) <;> simp -implicitDefEqProofs [h]

@[simp] theorem disablePos_unitsFit (p : Pos) (s : State) (h : unitsFit s.script.units) :
    unitsFit (disablePos p s).script.units := by
  unfold disablePos; (repeat' split) <;> simp -implicitDefEqProofs [h]

@[simp] theorem disablePos_pagesFit (p : Pos) (s : State) (h : pagesFit s.log.pages) :
    pagesFit (disablePos p s).log.pages := by
  unfold disablePos; (repeat' split) <;> simp -implicitDefEqProofs [h]

@[simp] theorem writerEnableRule_noticesFit (payload : Bytes) (s : State) (h : noticesFit s.host.notices) :
    noticesFit (writerEnableRule payload s).1.host.notices := by
  unfold writerEnableRule; (repeat' split) <;> simp -implicitDefEqProofs [h]

@[simp] theorem writerEnableRule_unitsFit (payload : Bytes) (s : State) (h : unitsFit s.script.units) :
    unitsFit (writerEnableRule payload s).1.script.units := by
  unfold writerEnableRule; (repeat' split) <;> simp -implicitDefEqProofs [h]

@[simp] theorem writerEnableRule_pagesFit (payload : Bytes) (s : State) (h : pagesFit s.log.pages) :
    pagesFit (writerEnableRule payload s).1.log.pages := by
  unfold writerEnableRule; (repeat' split) <;> simp -implicitDefEqProofs [h]

@[simp] theorem handoverTo_noticesFit (p : Pos) (s : State) (h : noticesFit s.host.notices) :
    noticesFit (handoverTo p s).1.host.notices := by
  unfold handoverTo; (repeat' split) <;> simp -implicitDefEqProofs [h]

@[simp] theorem handoverTo_pagesFit (p : Pos) (s : State) (h : pagesFit s.log.pages) :
    pagesFit (handoverTo p s).1.log.pages := by
  unfold handoverTo; (repeat' split) <;> simp -implicitDefEqProofs [h]

@[simp] theorem handoverRule_noticesFit (payload : Bytes) (s : State) (h : noticesFit s.host.notices) :
    noticesFit (handoverRule payload s).1.host.notices := by
  unfold handoverRule; (repeat' split) <;> simp -implicitDefEqProofs [h]

@[simp] theorem handoverRule_pagesFit (payload : Bytes) (s : State) (h : pagesFit s.log.pages) :
    pagesFit (handoverRule payload s).1.log.pages := by
  unfold handoverRule; (repeat' split) <;> simp -implicitDefEqProofs [h]

/-! ### NoteStore -/

@[simp] theorem suspendTook_noticesFit (status : FlashStatus) (s : State) (h : noticesFit s.host.notices) :
    noticesFit (suspendTook status s).host.notices := by
  unfold suspendTook; dsimp only; (repeat' split) <;> simp -implicitDefEqProofs [h]

@[simp] theorem suspendTook_pagesFit (status : FlashStatus) (s : State) (h : pagesFit s.log.pages) :
    pagesFit (suspendTook status s).log.pages := by
  unfold suspendTook; dsimp only; (repeat' split) <;> simp -implicitDefEqProofs [h]

@[simp] theorem suspendTook_stagingFit (status : FlashStatus) (s : State) (h : stagingFit s.dict.staging) :
    stagingFit (suspendTook status s).dict.staging := by
  unfold suspendTook; dsimp only; (repeat' split) <;> simp -implicitDefEqProofs [h]

/-! ### Translation -/

@[simp] theorem beginRunLookups_stagingFit (work : List StrokeRec) (p : Pos) (s : State) (r : ℕ × ℕ) (h : stagingFit s.dict.staging) :
    stagingFit (beginRunLookups work p s r).dict.staging := by
  simp -implicitDefEqProofs [beginRunLookups, h]

@[simp] theorem beginLookups_stagingFit (work : List StrokeRec) (p : Pos) (s : State) (h : stagingFit s.dict.staging) :
    stagingFit (beginLookups work p s).dict.staging := by
  unfold beginLookups; (repeat' split) <;> simp_all -implicitDefEqProofs

@[simp] theorem takeStroke_noticesFit (x : StrokeRec) (s : State) (h : noticesFit s.host.notices) :
    noticesFit (takeStroke x s).host.notices := by
  unfold takeStroke; dsimp only; (repeat' split) <;> simp -implicitDefEqProofs [h]

@[simp] theorem takeStroke_unitsFit (x : StrokeRec) (s : State) (h : unitsFit s.script.units) :
    unitsFit (takeStroke x s).script.units := by
  unfold takeStroke; dsimp only; (repeat' split) <;> simp -implicitDefEqProofs [h]

@[simp] theorem takeStroke_pagesFit (x : StrokeRec) (s : State) (h : pagesFit s.log.pages) :
    pagesFit (takeStroke x s).log.pages := by
  unfold takeStroke; dsimp only; (repeat' split) <;> simp -implicitDefEqProofs [h]

@[simp] theorem takeStroke_stagingFit (x : StrokeRec) (s : State) (h : stagingFit s.dict.staging) :
    stagingFit (takeStroke x s).dict.staging := by
  unfold takeStroke; dsimp only; (repeat' split) <;> simp -implicitDefEqProofs [h]

/-! ### Sessions -/

@[simp] theorem openTranscript_noticesFit (p : Bytes) (s : State) (h : noticesFit s.host.notices) :
    noticesFit (openTranscript p s).host.notices := by
  simp -implicitDefEqProofs [openTranscript, h]

@[simp] theorem openTranscript_unitsFit (p : Bytes) (s : State) (h : unitsFit s.script.units) :
    unitsFit (openTranscript p s).script.units := by
  unfold openTranscript
  dsimp only
  apply completeSearch_unitsFit
  simp [Transcript.opened, Transcript.reset, unitsFit]

@[simp] theorem startFloor_noticesFit (s : State) (h : noticesFit s.host.notices) :
    noticesFit (startFloor s).host.notices := by
  unfold startFloor; (repeat' split) <;> simp -implicitDefEqProofs [h]

@[simp] theorem startFloor_pagesFit (s : State) (h : pagesFit s.log.pages) :
    pagesFit (startFloor s).log.pages := by
  unfold startFloor; (repeat' split) <;> simp -implicitDefEqProofs [h]

@[simp] theorem takeOpen_noticesFit (p : Bytes) (s : State) (h : noticesFit s.host.notices) :
    noticesFit (takeOpen p s).1.host.notices := by
  unfold takeOpen
  dsimp only
  apply floorVacantCause_noticesFit
  apply syncCauses_noticesFit
  apply startFloor_noticesFit
  simp only [onFloor_host]
  apply offerOther_noticesFit
  have h1 := openTranscript_noticesFit p s h
  simpa using h1

@[simp] theorem takeOpen_unitsFit (p : Bytes) (s : State) (h : unitsFit s.script.units) :
    unitsFit (takeOpen p s).1.script.units := by
  unfold takeOpen
  dsimp only
  simp -implicitDefEqProofs [h]

@[simp] theorem takeOpen_pagesFit (p : Bytes) (s : State) (h : pagesFit s.log.pages) :
    pagesFit (takeOpen p s).1.log.pages := by
  simp -implicitDefEqProofs [takeOpen, h]

@[simp] theorem openRule_noticesFit (p : Bytes) (s : State) (h : noticesFit s.host.notices) :
    noticesFit (openRule p s).1.host.notices := by
  unfold openRule; (repeat' split) <;> simp -implicitDefEqProofs [h]

@[simp] theorem openRule_unitsFit (p : Bytes) (s : State) (h : unitsFit s.script.units) :
    unitsFit (openRule p s).1.script.units := by
  unfold openRule; (repeat' split) <;> simp -implicitDefEqProofs [h]

@[simp] theorem openRule_pagesFit (p : Bytes) (s : State) (h : pagesFit s.log.pages) :
    pagesFit (openRule p s).1.log.pages := by
  unfold openRule; (repeat' split) <;> simp -implicitDefEqProofs [h]

@[simp] theorem beginClosing_noticesFit (tag : Option Byte) (s : State) (h : noticesFit s.host.notices) :
    noticesFit (beginClosing tag s).host.notices := by
  simp -implicitDefEqProofs [beginClosing, h]

@[simp] theorem beginClosing_unitsFit (tag : Option Byte) (s : State) (h : unitsFit s.script.units) :
    unitsFit (beginClosing tag s).script.units := by
  simp -implicitDefEqProofs [beginClosing, h]

@[simp] theorem closeRule_noticesFit (tag : Byte) (s : State) (h : noticesFit s.host.notices) :
    noticesFit (closeRule tag s).1.host.notices := by
  unfold closeRule
  split
  · exact h
  · exact h
  · apply afterRest_noticesFit
    apply resolveOrder_noticesFit
    simp -implicitDefEqProofs [h]

@[simp] theorem closeRule_unitsFit (tag : Byte) (s : State) (h : unitsFit s.script.units) :
    unitsFit (closeRule tag s).1.script.units := by
  unfold closeRule
  split
  · exact h
  · exact h
  · apply afterRest_unitsFit
    apply resolveOrder_unitsFit
    simp -implicitDefEqProofs [h]

@[simp] theorem closeRule_pagesFit (tag : Byte) (s : State) (h : pagesFit s.log.pages) :
    pagesFit (closeRule tag s).1.log.pages := by
  unfold closeRule; (repeat' split) <;> simp -implicitDefEqProofs [h]

@[simp] theorem lockRule_unitsFit (p : Bytes) (s : State) (h : unitsFit s.script.units) :
    unitsFit (lockRule p s).1.script.units := by
  unfold lockRule; dsimp only; (repeat' split) <;> simp -implicitDefEqProofs [h]

@[simp] theorem unlockRule_unitsFit (s : State) (h : unitsFit s.script.units) :
    unitsFit (unlockRule s).1.script.units := by
  unfold unlockRule; (repeat' split) <;> simp -implicitDefEqProofs [h]

@[simp] theorem timeoutLock_unitsFit (s : State) (h : unitsFit s.script.units) :
    unitsFit (timeoutLock s).script.units := by
  simp -implicitDefEqProofs [timeoutLock, h]

@[simp] theorem takeEdit_unitsFit (n : ℕ) (text : Bytes) (join : Bool) (s : State) (h : unitsFit s.script.units) :
    unitsFit (takeEdit n text join s).script.units := by
  simp -implicitDefEqProofs [takeEdit, h]

@[simp] theorem editRule_unitsFit (p : Bytes) (s : State) (h : unitsFit s.script.units) :
    unitsFit (editRule p s).1.script.units := by
  unfold editRule; dsimp only; (repeat' split) <;> simp -implicitDefEqProofs [h]

@[simp] theorem reclassUnit_unitsFit (c : Cls) (s : State) (u : TUnit) (h : unitsFit s.script.units) :
    unitsFit (reclassUnit c s u).script.units := by
  simp -implicitDefEqProofs [reclassUnit, h]

@[simp] theorem reclassifyRule_unitsFit (p : Bytes) (s : State) (h : unitsFit s.script.units) :
    unitsFit (reclassifyRule p s).1.script.units := by
  unfold reclassifyRule; dsimp only; (repeat' split) <;> simp_all -implicitDefEqProofs

@[simp] theorem readbackRule_unitsFit (tag : Byte) (p : Bytes) (s : State) (h : unitsFit s.script.units) :
    unitsFit (readbackRule tag p s).1.script.units := by
  unfold readbackRule; (repeat' split) <;> simp -implicitDefEqProofs [h]

@[simp] theorem searchOn_noticesFit (q : Search) (s : State) (h : noticesFit s.host.notices) :
    noticesFit (searchOn q s).host.notices := by
  unfold searchOn; (repeat' split) <;> simp -implicitDefEqProofs [h]

@[simp] theorem searchOn_unitsFit (q : Search) (s : State) (h : unitsFit s.script.units) :
    unitsFit (searchOn q s).script.units := by
  unfold searchOn; (repeat' split) <;> simp -implicitDefEqProofs [h]

@[simp] theorem visitBack_noticesFit (q : Search) (s : State) (h : noticesFit s.host.notices) :
    noticesFit (visitBack q s).host.notices := by
  unfold visitBack; (repeat' split) <;> simp -implicitDefEqProofs [h]

@[simp] theorem visitBack_unitsFit (q : Search) (s : State) (h : unitsFit s.script.units) :
    unitsFit (visitBack q s).script.units := by
  unfold visitBack; (repeat' split) <;> simp -implicitDefEqProofs [h]

@[simp] theorem visitForward_noticesFit (q : Search) (s : State) (h : noticesFit s.host.notices) :
    noticesFit (visitForward q s).host.notices := by
  unfold visitForward; (repeat' split) <;> simp -implicitDefEqProofs [h]

@[simp] theorem visitForward_unitsFit (q : Search) (s : State) (h : unitsFit s.script.units) :
    unitsFit (visitForward q s).script.units := by
  unfold visitForward; (repeat' split) <;> simp -implicitDefEqProofs [h]

/-! ### Ports -/

@[simp] theorem portStall_noticesFit (i : PortId) (s : State) (h : noticesFit s.host.notices) :
    noticesFit (portStall i s).host.notices := by
  simp -implicitDefEqProofs [portStall, h]

@[simp] theorem portRecover_noticesFit (i : PortId) (s : State) (h : noticesFit s.host.notices) :
    noticesFit (portRecover i s).host.notices := by
  simp -implicitDefEqProofs [portRecover, h]

@[simp] theorem takeAck_noticesFit (i : PortId) (q : Byte) (s : State) (h : noticesFit s.host.notices) :
    noticesFit (takeAck i q s).host.notices := by
  unfold takeAck; (repeat' split) <;> simp -implicitDefEqProofs [h]

@[simp] theorem takeResync_noticesFit (i : PortId) (s : State) (h : noticesFit s.host.notices) :
    noticesFit (takeResync i s).host.notices := by
  unfold takeResync; (repeat' split) <;> simp -implicitDefEqProofs [h]

@[simp] theorem handOn_noticesFit (i : FeedId) (f : Frame) (s : State) (h : noticesFit s.host.notices) :
    noticesFit (handOn i f s).host.notices := by
  unfold handOn; (repeat' split) <;> simp -implicitDefEqProofs [h]

@[simp] theorem grantTo_noticesFit (i : FeedId) (m : Member) (s : State) (h : noticesFit s.host.notices) :
    noticesFit (grantTo i m s).host.notices := by
  unfold grantTo; (repeat' split) <;> simp -implicitDefEqProofs [h]

/-! ### Link -/

@[simp] theorem restartRule_noticesFit (s : State) (h : noticesFit s.host.notices) :
    noticesFit (restartRule s).1.host.notices := by
  simp -implicitDefEqProofs [restartRule, h]

@[simp] theorem restartTranslator_unitsFit (s : State) (h : unitsFit s.script.units) :
    unitsFit (restartTranslator s).script.units := by
  simp -implicitDefEqProofs [restartTranslator, h]

@[simp] theorem restartStore_noticesFit (s : State) (h : noticesFit s.host.notices) :
    noticesFit (restartStore s).host.notices := by
  simp -implicitDefEqProofs [restartStore, h]

@[simp] theorem restartStore_unitsFit (s : State) (h : unitsFit s.script.units) :
    unitsFit (restartStore s).script.units := by
  simp -implicitDefEqProofs [restartStore, h]

@[simp] theorem restartStore_pagesFit (s : State) (h : pagesFit s.log.pages) :
    pagesFit (restartStore s).log.pages := by
  simp -implicitDefEqProofs [restartStore, h]

@[simp] theorem restartStore_stagingFit (s : State) (h : stagingFit s.dict.staging) :
    stagingFit (restartStore s).dict.staging := by
  simp -implicitDefEqProofs [restartStore, h]

@[simp] theorem restartScript_noticesFit (s : State) (h : noticesFit s.host.notices) :
    noticesFit (restartScript s).host.notices := by
  unfold restartScript; dsimp only; (repeat' split) <;> simp -implicitDefEqProofs [h]

@[simp] theorem restartScript_unitsFit (s : State) (h : unitsFit s.script.units) :
    unitsFit (restartScript s).script.units := by
  unfold restartScript
  dsimp only
  split
  · simp -implicitDefEqProofs [h]
  · apply reportResolved_unitsFit
    apply restartTranslator_unitsFit
    simp -implicitDefEqProofs [h]
  · split
    · simpa using h
    · apply reportResolved_unitsFit
      apply restartTranslator_unitsFit
      simpa using h

@[simp] theorem restartScript_pagesFit (s : State) (h : pagesFit s.log.pages) :
    pagesFit (restartScript s).log.pages := by
  unfold restartScript; dsimp only; (repeat' split) <;> simp -implicitDefEqProofs [h]

@[simp] theorem takeRestart_noticesFit (s : State) (h : noticesFit s.host.notices) :
    noticesFit (takeRestart s).host.notices := by
  simp -implicitDefEqProofs [takeRestart, h]

@[simp] theorem takeRestart_unitsFit (s : State) (h : unitsFit s.script.units) :
    unitsFit (takeRestart s).script.units := by
  simp -implicitDefEqProofs [takeRestart, h]

@[simp] theorem takeRestart_pagesFit (s : State) (h : pagesFit s.log.pages) :
    pagesFit (takeRestart s).log.pages := by
  simp -implicitDefEqProofs [takeRestart, h]

@[simp] theorem takeRestart_stagingFit (s : State) (h : stagingFit s.dict.staging) :
    stagingFit (takeRestart s).dict.staging := by
  simp -implicitDefEqProofs [takeRestart, h]

@[simp] theorem replySent_noticesFit (a : AfterSent) (s : State) (h : noticesFit s.host.notices) :
    noticesFit (replySent a s).host.notices := by
  unfold replySent; (repeat' split) <;> simp -implicitDefEqProofs [h]

@[simp] theorem replySent_unitsFit (a : AfterSent) (s : State) (h : unitsFit s.script.units) :
    unitsFit (replySent a s).script.units := by
  unfold replySent; (repeat' split) <;> simp -implicitDefEqProofs [h]

@[simp] theorem replySent_pagesFit (a : AfterSent) (s : State) (h : pagesFit s.log.pages) :
    pagesFit (replySent a s).log.pages := by
  unfold replySent; (repeat' split) <;> simp -implicitDefEqProofs [h]

@[simp] theorem replySent_stagingFit (a : AfterSent) (s : State) (h : stagingFit s.dict.staging) :
    stagingFit (replySent a s).dict.staging := by
  unfold replySent; (repeat' split) <;> simp -implicitDefEqProofs [h]

@[simp] theorem frameSentHost_noticesFit (f : TxFrame) (s : State) (h : noticesFit s.host.notices) :
    noticesFit (frameSentHost f s).host.notices := by
  unfold frameSentHost; (repeat' split) <;> simp -implicitDefEqProofs [h]

@[simp] theorem frameSentHost_unitsFit (f : TxFrame) (s : State) (h : unitsFit s.script.units) :
    unitsFit (frameSentHost f s).script.units := by
  unfold frameSentHost; (repeat' split) <;> simp -implicitDefEqProofs [h]

@[simp] theorem frameSentHost_pagesFit (f : TxFrame) (s : State) (h : pagesFit s.log.pages) :
    pagesFit (frameSentHost f s).log.pages := by
  unfold frameSentHost; (repeat' split) <;> simp -implicitDefEqProofs [h]

@[simp] theorem frameSentHost_stagingFit (f : TxFrame) (s : State) (h : stagingFit s.dict.staging) :
    stagingFit (frameSentHost f s).dict.staging := by
  unfold frameSentHost; (repeat' split) <;> simp -implicitDefEqProofs [h]

@[simp] theorem closeDue_noticesFit (p : Pos) (s : State) (h : noticesFit s.host.notices) :
    noticesFit (closeDue p s).host.notices := by
  unfold closeDue; (repeat' split) <;> simp -implicitDefEqProofs [h]

@[simp] theorem closeDue_unitsFit (p : Pos) (s : State) (h : unitsFit s.script.units) :
    unitsFit (closeDue p s).script.units := by
  unfold closeDue; (repeat' split) <;> simp -implicitDefEqProofs [h]

@[simp] theorem closeDue_pagesFit (p : Pos) (s : State) (h : pagesFit s.log.pages) :
    pagesFit (closeDue p s).log.pages := by
  unfold closeDue; (repeat' split) <;> simp -implicitDefEqProofs [h]

@[simp] theorem disableFeed_noticesFit (i : FeedId) (s : State) (h : noticesFit s.host.notices) :
    noticesFit (disableFeed i s).host.notices := by
  unfold disableFeed; (repeat' split) <;> simp -implicitDefEqProofs [h]

@[simp] theorem settingEffect_noticesFit (x : Setting) (s : State) (h : noticesFit s.host.notices) :
    noticesFit (settingEffect x s).host.notices := by
  unfold settingEffect; (repeat' split) <;> simp -implicitDefEqProofs [h]

@[simp] theorem settingEffect_unitsFit (x : Setting) (s : State) (h : unitsFit s.script.units) :
    unitsFit (settingEffect x s).script.units := by
  unfold settingEffect; (repeat' split) <;> simp -implicitDefEqProofs [h]

@[simp] theorem settingEffect_pagesFit (x : Setting) (s : State) (h : pagesFit s.log.pages) :
    pagesFit (settingEffect x s).log.pages := by
  unfold settingEffect; (repeat' split) <;> simp -implicitDefEqProofs [h]

@[simp] theorem takeSet_noticesFit (x : Setting) (v : ℕ) (s : State) (h : noticesFit s.host.notices) :
    noticesFit (takeSet x v s).host.notices := by
  unfold takeSet; dsimp only; (repeat' split) <;> simp -implicitDefEqProofs [h]

@[simp] theorem takeSet_unitsFit (x : Setting) (v : ℕ) (s : State) (h : unitsFit s.script.units) :
    unitsFit (takeSet x v s).script.units := by
  unfold takeSet; dsimp only; (repeat' split) <;> simp -implicitDefEqProofs [h]

@[simp] theorem takeSet_pagesFit (x : Setting) (v : ℕ) (s : State) (h : pagesFit s.log.pages) :
    pagesFit (takeSet x v s).log.pages := by
  unfold takeSet; dsimp only; (repeat' split) <;> simp -implicitDefEqProofs [h]

@[simp] theorem setRule_noticesFit (p : Bytes) (s : State) (h : noticesFit s.host.notices) :
    noticesFit (setRule p s).1.host.notices := by
  unfold setRule; (repeat' split) <;> simp -implicitDefEqProofs [h]

@[simp] theorem setRule_unitsFit (p : Bytes) (s : State) (h : unitsFit s.script.units) :
    unitsFit (setRule p s).1.script.units := by
  unfold setRule; (repeat' split) <;> simp -implicitDefEqProofs [h]

@[simp] theorem setRule_pagesFit (p : Bytes) (s : State) (h : pagesFit s.log.pages) :
    pagesFit (setRule p s).1.log.pages := by
  unfold setRule; (repeat' split) <;> simp -implicitDefEqProofs [h]

end Sys2Proof.Machine
end

