-- ==== Sys2Proof/Laws/Feeds.lean ====
section
/-! SUPPORT. The feed manager: what settling, the beginning of a repaint, a raised change note and the stop of a feed do to a
feed record, in terms of its fields, and that they keep the form of `Feed.truthful`. -/

namespace Sys2Proof.Machine

/-! ### Reading the operations of Section 8 -/

/-- The first held unit above a cursor. -/
theorem FeedView.find?_above (v : FeedView) (d : Nat) :
    v.units.find? (fun u => decide (d < u.number)) = (v.above d).head? := by
  unfold FeedView.above
  induction v.units with
  | nil => rfl
  | cons a l ih =>
    cases h : decide (d < a.number) <;> simp only [List.find?_cons, List.filter_cons, h, ih, List.head?_cons,
      if_true, if_false, Bool.false_eq_true]

theorem FeedView.showable_iff (v : FeedView) (u : TUnit) :
    v.showable u = true ↔ v.accepts u.cls = true ∧ u.text ≠ [] := by simp [FeedView.showable]

theorem Feed.beyondTail_iff (f : Feed) (u : TUnit) :
    f.beyondTail u = true ↔ f.state = .repaint ∧ ∃ n, f.repaintTail = some n ∧ n < u.number := by
  unfold Feed.beyondTail
  cases f.repaintTail <;> simp

theorem Feed.delivering_iff (f : Feed) : f.delivering = true ↔ f.state = .active ∨ f.state = .repaint := by
  simp [Feed.delivering]

theorem Feed.textEntry_iff (f : Feed) (n : Nat) :
    f.textEntry n = true ↔ ∃ e ∈ f.shown, e.number = n ∧ (e.kind = .provisional ∨ e.kind = .final) := by
  simp [Feed.textEntry]

theorem clsOf_eq_some {us : List TUnit} {n : Nat} {c : Cls} (h : clsOf us n = some c) :
    ∃ u ∈ us, us.find? (fun x => decide (x.number = n)) = some u ∧ u.number = n ∧ u.cls = c := by
  simp only [clsOf, Option.map_eq_some_iff] at h
  obtain ⟨u, hu, rfl⟩ := h
  exact ⟨u, List.mem_of_find?_eq_some hu, hu, by simpa using List.find?_some hu, rfl⟩

/-- A raised note that is not merged away is appended, or the feed overflows (R158, R159). -/
theorem raiseNote_eq (v : FeedView) (note : ChangeNote) (f : Feed) (h : (mergeNote note f.changes).2 = true) :
    raiseNote v note f =
      if (mergeNote note f.changes).1.length < Config.changesMax then
        { f with changes := (mergeNote note f.changes).1 ++ [note] }
      else beginRepaint v { f with overflows := f.overflows + 1 } := by
  unfold raiseNote
  simp only [h]
  by_cases hl : (mergeNote note f.changes).1.length < Config.changesMax
  · simp [hl, Nat.not_le.2 hl]
  · simp [hl, Nat.not_lt.1 hl]

/-! ### Settling changes the cursor and GAP-OWED alone (R155) -/

theorem settleAlong_eq (v : FeedView) (us : List TUnit) (f : Feed) :
    settleAlong v us f =
      { f with cursor := (settleAlong v us f).cursor, gapOwed := (settleAlong v us f).gapOwed } := by
  induction us generalizing f with
  | nil => rfl
  | cons u us ih =>
    unfold settleAlong
    repeat' split
    all_goals first | rfl | exact ih { f with cursor := u.number }

theorem settle_eq (v : FeedView) (f : Feed) :
    settle v f = { f with cursor := (settle v f).cursor, gapOwed := (settle v f).gapOwed } := by
  unfold settle
  split
  · exact settleAlong_eq v _ f
  · rfl

@[simp] theorem settle_state (v : FeedView) (f : Feed) : (settle v f).state = f.state := by rw [settle_eq]
@[simp] theorem settle_changes (v : FeedView) (f : Feed) : (settle v f).changes = f.changes := by rw [settle_eq]
@[simp] theorem settle_shown (v : FeedView) (f : Feed) : (settle v f).shown = f.shown := by rw [settle_eq]
@[simp] theorem settle_clearOwed (v : FeedView) (f : Feed) : (settle v f).clearOwed = f.clearOwed := by rw [settle_eq]
@[simp] theorem settle_beginOwed (v : FeedView) (f : Feed) : (settle v f).beginOwed = f.beginOwed := by rw [settle_eq]
@[simp] theorem settle_repaintTail (v : FeedView) (f : Feed) : (settle v f).repaintTail = f.repaintTail := by
  rw [settle_eq]

@[simp] theorem beginRepaint_state (v : FeedView) (f : Feed) : (beginRepaint v f).state = .repaint := by
  simp [beginRepaint]
@[simp] theorem beginRepaint_changes (v : FeedView) (f : Feed) : (beginRepaint v f).changes = [] := by
  simp [beginRepaint]
@[simp] theorem beginRepaint_shown (v : FeedView) (f : Feed) : (beginRepaint v f).shown = [] := by
  simp [beginRepaint]
@[simp] theorem beginRepaint_clearOwed (v : FeedView) (f : Feed) : (beginRepaint v f).clearOwed = f.clearOwed := by
  simp [beginRepaint]

/-! ### The form of a feed record -/

/-- A record with nothing queued and nothing shown is in form. -/
theorem truthful_of_empty {v : FeedView} {f : Feed} (h : f.changes = []) (k : f.shown = []) : f.truthful v := by
  simp [Feed.truthful, h, k]

theorem beginRepaint_truthful (v w : FeedView) (f : Feed) : (beginRepaint v f).truthful w :=
  truthful_of_empty (by simp) (by simp)

theorem settle_truthful {v w : FeedView} {f : Feed} (h : f.truthful w) : (settle v f).truthful w := by
  simpa [Feed.truthful, Feed.delivering, Feed.backed, Feed.textEntry] using h

theorem feedStall_truthful {v : FeedView} {f : Feed} (h : f.truthful v) : (feedStall f).truthful v := by
  unfold feedStall
  split
  · exact truthful_of_empty rfl rfl
  · exact h

theorem feedDisable_truthful (v : FeedView) (f : Feed) : (feedDisable f).truthful v := truthful_of_empty rfl rfl

/-- Appending a note that is backed, to notes that are, keeps the form of a delivering feed that is not DELAYED. -/
theorem raiseNote_truthful {v : FeedView} {note : ChangeNote} {f : Feed} (hd : f.delivering = true)
    (ht : v.cfg.tier ≠ .delayed) (hk : ∀ q ∈ (mergeNote note f.changes).1, f.backed q = true)
    (hn : f.backed note = true)
    (hs : ∀ e ∈ f.shown, e.kind = .provisional ∨ e.kind = .final → v.holdsAccepted e.number = true) :
    (raiseNote v note f).truthful v := by
  have back : ∀ qs : List ChangeNote, (∀ q ∈ qs, f.backed q = true) → ({ f with changes := qs } : Feed).truthful v := by
    intro qs hq
    refine ⟨fun h => ?_, fun h => absurd h ht, fun q hm => ?_, fun _ => hs⟩
    · simp [Feed.delivering] at hd h
      simp_all
    · have := hq q hm
      cases q with
      | replace n => simpa [Feed.backed, Feed.textEntry] using this
      | _ => rfl
  unfold raiseNote
  simp only
  split
  · exact back _ hk
  · split
    · exact beginRepaint_truthful v v _
    · refine back _ (fun q hm => ?_)
      rcases List.mem_append.1 hm with hm | hm
      · exact hk q hm
      · simp only [List.mem_singleton] at hm
        exact hm ▸ hn

end Sys2Proof.Machine
end

