-- ==== Sys2Proof/Laws/Fields.lean ====
section
/-! SUPPORT. Encoded fields read back (R196): a number written in `w` bytes and read from the same place. -/

namespace Sys2Proof.Machine

@[simp] theorem be_length (w n : Nat) : (be w n).length = w := by
  induction w with
  | zero => rfl
  | succ w ih => simp [be, ih]

theorem ofBe_append (a b : Bytes) (acc : Nat) : ofBe (a ++ b) acc = ofBe b (ofBe a acc) := by
  induction a generalizing acc with
  | nil => rfl
  | cons x xs ih => simp [ofBe, ih]

theorem ofBe_be (w n acc : Nat) : ofBe (be w n) acc = acc * 256 ^ w + n % 256 ^ w := by
  induction w generalizing acc with
  | zero => simp [be, ofBe, Nat.mod_one]
  | succ w ih =>
    simp only [be, ofBe, ih, BitVec.toNat_ofNat]
    have h : n % 256 ^ (w + 1) = n / 256 ^ w % 256 * 256 ^ w + n % 256 ^ w := by
      rw [Nat.pow_succ, Nat.mod_mul]; ring
    rw [h]; ring

theorem be4At_here (n : Nat) (l : Bytes) (h : n < 4294967296) : be4At (be 4 n ++ l) 0 = n := by
  have e : ((be 4 n ++ l).drop 0).take 4 = be 4 n := by simp
  rw [be4At, e, ofBe_be]; omega

theorem be2At_here (n : Nat) (l : Bytes) (h : n < 65536) : be2At (be 2 n ++ l) 0 = n := by
  have e : ((be 2 n ++ l).drop 0).take 2 = be 2 n := by simp
  rw [be2At, e, ofBe_be]; omega

theorem be4At_skip (a l : Bytes) (k : Nat) : be4At (a ++ l) (a.length + k) = be4At l k := by
  simp [be4At, ← List.drop_drop]

theorem be2At_skip (a l : Bytes) (k : Nat) : be2At (a ++ l) (a.length + k) = be2At l k := by
  simp [be2At, ← List.drop_drop]

theorem byteAt_skip (a l : Bytes) (k : Nat) : byteAt (a ++ l) (a.length + k) = byteAt l k := by
  simp [byteAt, List.getElem?_append_right]

@[simp] theorem byteAt_cons_zero (b : Byte) (l : Bytes) : byteAt (b :: l) 0 = b.toNat := rfl

@[simp] theorem byteAt_cons_succ (b : Byte) (l : Bytes) (k : Nat) : byteAt (b :: l) (k + 1) = byteAt l k := by
  simp [byteAt]

@[simp] theorem be4At_cons_succ (b : Byte) (l : Bytes) (k : Nat) : be4At (b :: l) (k + 1) = be4At l k := rfl

@[simp] theorem be2At_cons_succ (b : Byte) (l : Bytes) (k : Nat) : be2At (b :: l) (k + 1) = be2At l k := rfl

theorem byte_toNat (n : Nat) (h : n < 256) : (byte n).toNat = n := by
  simp [byte]; omega

/-- Strokes written three bytes each are read back (R196). -/
theorem ofStrokes_beStrokes (o : List Nat) (l : Bytes) (h : ∀ k ∈ o, k < 16777216) :
    ofStrokes o.length (beStrokes o ++ l) = o := by
  induction o with
  | nil => rfl
  | cons k ks ih =>
    have h1 : ((be 3 k ++ (beStrokes ks ++ l)).take 3) = be 3 k := by simp
    have h2 : ((be 3 k ++ (beStrokes ks ++ l)).drop 3) = beStrokes ks ++ l := by simp
    have h3 : ofBe (be 3 k) 0 = k := by
      rw [ofBe_be]; have := h k (by simp); omega
    simp only [List.length_cons, beStrokes, List.append_assoc, ofStrokes, h1, h2, h3]
    rw [ih (fun x hx => h x (by simp [hx]))]

@[simp] theorem beStrokes_length (o : List Nat) : (beStrokes o).length = 3 * o.length := by
  induction o with
  | nil => rfl
  | cons k ks ih => simp [beStrokes, ih]; omega

end Sys2Proof.Machine
end

