-- ==== Sys2Proof/Laws/Memory.lean ====
section
/-! SUPPORT. The note memory: every operation keeps its canonical form, and what a byte reads as after each. -/

namespace Sys2Proof.Machine

/-! ### The canonical form is kept -/

theorem cellsWf_mono (m : List Host.Cell) (lo lo' : Nat) (hl : lo' ≤ lo) (h : cellsWf lo m = true) :
    cellsWf lo' m = true := by
  cases m with
  | nil => rfl
  | cons c rest =>
    obtain ⟨k, v⟩ := c
    simp only [cellsWf, Bool.and_eq_true, decide_eq_true_eq] at h ⊢
    exact ⟨⟨Nat.le_trans hl h.1.1, h.1.2⟩, h.2⟩

theorem writeByte_wf_from (m : List Host.Cell) (lo a : Nat) (v : Byte) (hl : lo ≤ a) (h : cellsWf lo m = true) :
    cellsWf lo (writeByte m a v) = true := by
  induction m generalizing lo with
  | nil => simp only [writeByte]; split <;> simp_all [cellsWf]
  | cons c rest ih =>
    obtain ⟨k, w⟩ := c
    simp only [cellsWf, Bool.and_eq_true, decide_eq_true_eq] at h
    obtain ⟨⟨h1, h2⟩, h3⟩ := h
    simp only [writeByte]
    split
    · split
      · simp [cellsWf, *]
      · simp [cellsWf, *]
    · split
      · split
        · exact cellsWf_mono _ _ _ (by omega) h3
        · simp [cellsWf, *]
      · simp [cellsWf, *]; exact ih (k + 1) (by omega) h3

theorem writeByte_wf (m : List Host.Cell) (a : Nat) (v : Byte) (h : cellsWf 0 m = true) :
    cellsWf 0 (writeByte m a v) = true := writeByte_wf_from m 0 a v (Nat.zero_le a) h

theorem writeBytes_wf (bs : Bytes) (m : List Host.Cell) (a : Nat) (h : cellsWf 0 m = true) :
    cellsWf 0 (writeBytes m a bs) = true := by
  induction bs generalizing m a with
  | nil => exact h
  | cons b bs ih => exact ih _ _ (writeByte_wf m a b h)

theorem filter_wf (p : Host.Cell → Bool) (m : List Host.Cell) (lo : Nat) (h : cellsWf lo m = true) :
    cellsWf lo (m.filter p) = true := by
  induction m generalizing lo with
  | nil => rfl
  | cons c rest ih =>
    obtain ⟨k, v⟩ := c
    simp only [cellsWf, Bool.and_eq_true, decide_eq_true_eq] at h
    obtain ⟨⟨h1, h2⟩, h3⟩ := h
    simp only [List.filter_cons]
    split
    · simp [cellsWf, *]
    · exact cellsWf_mono _ _ _ (by omega) (ih (k + 1) h3)

theorem eraseBlock_wf (m : List Host.Cell) (b : Nat) (h : cellsWf 0 m = true) : cellsWf 0 (eraseBlock m b) = true :=
  filter_wf _ m 0 h

theorem apply_wf (op : FlashOp) (m : List Host.Cell) (h : cellsWf 0 m = true) : cellsWf 0 (op.apply m) = true := by
  cases op with
  | program a d => exact writeBytes_wf d m a h
  | erase b => exact eraseBlock_wf m b h

theorem leave_wf (op : FlashOp) (left m : List Host.Cell) (h : cellsWf 0 m = true) :
    cellsWf 0 (op.leave m left) = true := by
  induction left generalizing m with
  | nil => exact h
  | cons c rest ih =>
    obtain ⟨a, v⟩ := c
    simp only [FlashOp.leave]
    apply ih
    split
    · exact writeByte_wf m a v h
    · exact h

theorem settle_wf (op : FlashOp) (error : Bool) (left m : List Host.Cell) (h : cellsWf 0 m = true) :
    cellsWf 0 (op.settle error left m) = true := by
  unfold FlashOp.settle
  split
  · exact leave_wf op left m h
  · exact apply_wf op m h

theorem settleOrphans_wf (ops : List FlashOp) (left m : List Host.Cell) (h : cellsWf 0 m = true) :
    cellsWf 0 (settleOrphans ops left m) = true := by
  unfold settleOrphans
  induction ops generalizing m with
  | nil => exact h
  | cons op ops ih => exact ih _ (leave_wf op left m h)

theorem reset_flash_wf : State.reset.flash.wf = true := rfl

/-! ### Reading after writing -/

theorem readByte_below (m : List Host.Cell) (lo b : Nat) (hb : b < lo) (h : cellsWf lo m = true) :
    readByte m b = erasedByte := by
  cases m with
  | nil => rfl
  | cons c rest =>
    obtain ⟨k, v⟩ := c
    simp only [cellsWf, Bool.and_eq_true, decide_eq_true_eq] at h
    simp only [readByte]
    rw [if_neg (by omega), if_pos (by omega)]

theorem readByte_writeByte_from (m : List Host.Cell) (lo a b : Nat) (v : Byte) (h : cellsWf lo m = true) :
    readByte (writeByte m a v) b = if b = a then v else readByte m b := by
  induction m generalizing lo with
  | nil =>
    simp only [writeByte]
    split
    · subst v; simp [readByte]
    · simp only [readByte]
      by_cases hb : b = a
      · simp [hb]
      · simp [hb, Ne.symm hb]
  | cons c rest ih =>
    obtain ⟨k, w⟩ := c
    simp only [cellsWf, Bool.and_eq_true, decide_eq_true_eq] at h
    obtain ⟨⟨h1, h2⟩, h3⟩ := h
    have ih := ih (k + 1) h3
    simp only [writeByte]
    by_cases hb : b = a
    · subst hb
      split
      · split <;> (simp_all [readByte]; try omega)
      · split
        · split
          · rename_i hk _; subst hk
            rw [readByte_below rest (b + 1) b (by omega) h3]; simp_all
          · simp_all [readByte]
        · simp only [readByte, ih]
          rw [if_neg (by omega), if_neg (by omega)]; simp
    · simp only [hb, if_false] at ih ⊢
      split
      · split
        · rfl
        · simp only [readByte]
          (repeat' split) <;> first | rfl | omega
      · split
        · split
          · rename_i hk _; subst hk
            simp only [readByte]
            rw [if_neg (Ne.symm hb)]
            split
            · rw [readByte_below rest (a + 1) b (by omega) h3]
            · rfl
          · rename_i hk _; subst hk
            simp only [readByte]
            rw [if_neg (Ne.symm hb), if_neg (Ne.symm hb)]
        · simp only [readByte, ih]

/-- A byte reads what was last written to it, and every other byte as before. -/
theorem readByte_writeByte (m : List Host.Cell) (a b : Nat) (v : Byte) (h : cellsWf 0 m = true) :
    readByte (writeByte m a v) b = if b = a then v else readByte m b := readByte_writeByte_from m 0 a b v h

/-- Bytes outside a program are as before (R55). -/
theorem readByte_writeBytes_outside (bs : Bytes) (m : List Host.Cell) (a b : Nat) (h : cellsWf 0 m = true)
    (hb : b < a ∨ a + bs.length ≤ b) : readByte (writeBytes m a bs) b = readByte m b := by
  induction bs generalizing m a with
  | nil => rfl
  | cons x xs ih =>
    simp only [List.length_cons] at hb
    simp only [writeBytes]
    rw [ih _ _ (writeByte_wf m a x h) (by omega), readByte_writeByte m a b x h, if_neg (by omega)]

/-- A programmed byte reads as the data (R55). -/
theorem readByte_writeBytes_inside (bs : Bytes) (m : List Host.Cell) (a i : Nat) (h : cellsWf 0 m = true)
    (hi : i < bs.length) : readByte (writeBytes m a bs) (a + i) = bs[i] := by
  induction bs generalizing m a i with
  | nil => simp at hi
  | cons x xs ih =>
    simp only [writeBytes]
    cases i with
    | zero =>
      rw [readByte_writeBytes_outside _ _ _ _ (writeByte_wf m a x h) (by omega), readByte_writeByte m a _ x h]
      simp
    | succ i =>
      have := ih (writeByte m a x) (a + 1) i (writeByte_wf m a x h) (by simpa using hi)
      rw [show a + (i + 1) = a + 1 + i by omega, this]
      rfl

end Sys2Proof.Machine
end

