-- ==== Sys2Proof/Laws/Request.lean ====
section
/-! SUPPORT. What a request's way through the host link does once it can be taken, and what the end of a step does: the
lemmas that the statements about requests rest on. -/

namespace Sys2Proof.Machine

theorem transmit_eq (s : State) (h : s.host.phase ≠ .draining) : transmit s = chooseFrame s := by
  unfold transmit
  dsimp only
  rw [if_neg]
  simp [h]

theorem takeRequest_taken (tag : Byte) (always : Bool) (handler : State → State × Result) (after : Result → AfterSent)
    (s : State) (h : s.accepts) :
    takeRequest tag true always handler after s =
      addReply tag (handler s.counted).2 (after (handler s.counted).2) (handler s.counted).1 := by
  obtain ⟨hp, hr⟩ := h
  have h1 : ¬ Config.repliesMax ≤ s.host.replies.length := by
    simp only [Config.repliesMax]; omega
  simp [takeRequest, hp, HostLink.received, State.counted, State.onHost, Config.repliesMax, h1]

theorem chooseFrame_addReply (tag : Byte) (r : Result) (after : AfterSent) (s u : State) (hu : u.host = s.counted.host) :
    chooseFrame (addReply tag r after u) = { u with host := s.host.answer tag r after } := by
  unfold chooseFrame addReply HostLink.answer
  cases hs : s.host.sending with
  | some x => simp [State.onHost, hu, State.counted, hs]
  | none =>
    cases hr : s.host.replies with
    | nil => simp [State.onHost, hu, State.counted, hs, hr]
    | cons a l => simp [State.onHost, hu, State.counted, hs, hr]

/-- A request that ends with the choice of the transmitter, and whose rule leaves the host link alone. -/
theorem transmit_request (tag : Byte) (always : Bool) (handler : State → State × Result) (after : Result → AfterSent)
    (s u : State) (r : Result) (h : s.accepts) (hr : handler s.counted = (u, r)) (hu : u.host = s.counted.host) :
    transmit (takeRequest tag true always handler after s) = { u with host := s.host.answer tag r (after r) } := by
  rw [takeRequest_taken _ _ _ _ _ h, hr, transmit_eq, chooseFrame_addReply _ _ _ s _ hu]
  simp [addReply, State.onHost, hu, State.counted, h.1]

/-- The end of a step while no RESTART and no flush is under way. -/
theorem finishStep_calm (s : State) (h : s.calm) : finishStep s = s.settled := by
  obtain ⟨hp, hf⟩ := h
  have h1 : flushReport (storePump (drainBegin s)) = storePump (drainBegin s) := by
    unfold flushReport
    split
    · have : (storePump (drainBegin s)).log.flush = .none := by simpa using hf
      rw [this]
    · rfl
  unfold finishStep State.settled State.takeUp
  rw [h1, transmit_eq]
  simp [hp]
/-! ### What the store takes up does not depend on the host link, but for its phase -/

section

variable (g : HostLink → HostLink) (s : State)

theorem startRead_onHost : startRead (s.onHost g) = (startRead s).onHost g := by
  unfold startRead; simp only [onHost_store]; split <;> rfl

theorem startLog_onHost (p : BufPage) : startLog p (s.onHost g) = (startLog p s).onHost g := rfl

theorem startDict_onHost (p : DictProg) : startDict p (s.onHost g) = (startDict p s).onHost g := rfl

theorem startJob_onHost (j : Job) : startJob j (s.onHost g) = (startJob j s).onHost g := rfl

theorem pumpIdle_onHost : pumpIdle (s.onHost g) = (pumpIdle s).onHost g := by
  have e : logReady (s.onHost g) = logReady s := rfl
  unfold pumpIdle
  simp only [onHost_store, e, startRead_onHost, startLog_onHost, startDict_onHost, startJob_onHost]
  (repeat' split) <;> rfl

theorem pumpSuspended_onHost (r : Running) : pumpSuspended r (s.onHost g) = (pumpSuspended r s).onHost g := by
  have e : logReady (s.onHost g) = logReady s := rfl
  have e2 : dictOp (s.onHost g) = dictOp s := rfl
  unfold pumpSuspended
  simp only [onHost_store, e, e2, startRead_onHost, startLog_onHost, startDict_onHost]
  (repeat' split) <;> rfl

theorem pumpRunning_onHost (r : Running) : pumpRunning r (s.onHost g) = (pumpRunning r s).onHost g := by
  unfold pumpRunning
  by_cases h : (s.store.waiting.isEmpty || r.timedOut || s.store.suspendAt.isSome || resumeShort s.store) = true
  · rw [if_pos h]; exact if_pos h
  · rw [if_neg h]; exact if_neg h

theorem storePump_onHost : storePump (s.onHost g) = (storePump s).onHost g := by
  unfold storePump
  simp only [onHost_store, startRead_onHost, startJob_onHost, pumpIdle_onHost, pumpSuspended_onHost, pumpRunning_onHost]
  (repeat' split) <;> rfl

theorem handRecord_onHost (o : StagedOp) : handRecord o (s.onHost g) = (handRecord o s).onHost g := by
  unfold handRecord
  simp only [onHost_store, onHost_dict]
  have e : State.regionEnd (s.onHost g) = State.regionEnd s := rfl
  rw [e]
  split <;> rfl

theorem drainStep_onHost : drainStep (s.onHost g) = (drainStep s).onHost g := by
  unfold drainStep
  have e : ∀ o, handRecord o (countLookup (s.onHost g)) = (handRecord o (countLookup s)).onHost g := fun o => handRecord_onHost g (countLookup s) o
  simp only [onHost_dict, handRecord_onHost, e]
  (repeat' split) <;> rfl

theorem onDict_onHost (f : Dictionary → Dictionary) : (s.onDict f).onHost g = (s.onHost g).onDict f := rfl

theorem drainNext_onHost (hg : (g s.host).phase = s.host.phase) : drainNext (s.onHost g) = (drainNext s).onHost g := by
  have w : (s.onHost g).windingDown = s.windingDown := by
    unfold State.windingDown
    rw [decide_eq_decide, onHost_host, hg]
  have e : drainReady (s.onHost g) = drainReady s := by
    funext o
    unfold drainReady
    rw [w]
    rfl
  unfold drainNext
  simp only [onHost_dict, e]
  split
  · rfl
  · split
    · rw [← onDict_onHost]; exact drainStep_onHost g _
    · rfl

theorem drainBegin_onHost (hg : (g s.host).phase = s.host.phase) : drainBegin (s.onHost g) = (drainBegin s).onHost g := by
  have h1 : (g (drainNext s).host).phase = (drainNext s).host.phase := by simpa using hg
  have h2 : (g (drainNext (drainNext s)).host).phase = (drainNext (drainNext s)).host.phase := by simpa using hg
  unfold drainBegin
  rw [drainNext_onHost g s hg, drainNext_onHost g _ h1, drainNext_onHost g _ h2]

theorem takeUp_onHost (hg : (g s.host).phase = s.host.phase) : (s.onHost g).takeUp = s.takeUp.onHost g := by
  rw [State.takeUp, drainBegin_onHost _ _ hg, storePump_onHost]; rfl

end

/-- A request that ends the step in the store, and whose rule leaves the host link alone. -/

theorem finishStep_request (tag : Byte) (always : Bool) (handler : State → State × Result) (after : Result → AfterSent)
    (s u : State) (r : Result) (h : s.accepts) (hr : handler s.counted = (u, r)) (hu : u.host = s.counted.host)
    (hf : u.log.flush = .none) :
    finishStep (takeRequest tag true always handler after s) =
      { u.takeUp with host := s.host.answer tag r (after r) } := by
  rw [takeRequest_taken _ _ _ _ _ h, hr]
  have hc : (addReply tag r (after r) u).calm := by
    refine ⟨?_, ?_⟩
    · simp [addReply, State.onHost, hu, State.counted, h.1]
    · simpa [addReply] using hf
  rw [finishStep_calm _ hc]
  unfold State.settled addReply
  rw [takeUp_onHost _ _ rfl]
  exact chooseFrame_addReply tag r (after r) s u.takeUp (by simp [State.takeUp, hu])

/-- Every request is taken by the one operation, with its length test, its mark and its rule. -/
theorem request_form (kind : Nat) (tag : Byte) (payload : Bytes) (c : Instr) (h : requestOf kind tag payload = some c) :
    ∃ (handler : State → State × Result) (after : Result → AfterSent), ∀ s, exec c s = .next
      ((if movesStore kind then finishStep else transmit)
        (takeRequest tag (decide (payload.length = requestLength kind payload)) (alwaysAnswered kind) handler after s)) := by
  unfold requestOf at h
  split at h <;> cases h <;> exact ⟨_, _, fun s => rfl⟩

end Sys2Proof.Machine
end

