-- ==== Sys2Proof/WellFormed.lean ====
section
/-! DEFINITION. The commands that can reach the part: what a line can carry and what the note memory can report. A
meaning does not need its command to be well formed; it is what a sender may send. -/

namespace Sys2Proof

/-- A payload fits in a host frame (R184). -/
def payloadOk (payload : Bytes) : Bool := decide (payload.length ≤ Config.hostPayloadMax)

/-- A lead byte has its high bit set (R2). -/
def isLead (c : Byte) : Bool := c.msb

/-- The characters that complete a key report (R2, R3): a lead byte and three others, or the one to three others that
are missing. -/
def reportOk (chars : Bytes) : Bool :=
  match chars with
  | [b0, b1, b2, b3] => isLead b0 && !isLead b1 && !isLead b2 && !isLead b3
  | [] => false
  | cs => decide (cs.length ≤ 3) && cs.all (fun c => !isLead c)

/-- Addresses rise strictly and lie in the note memory: 4096 blocks of 65,536 bytes (R55, paragraph 0.7). -/
def cellsOk : Nat → List Host.Cell → Bool
  | _, [] => true
  | lo, (a, _) :: rest => decide (lo ≤ a ∧ a < 4096 * Config.blockBytes) && cellsOk (a + 1) rest

/-- Bytes are left open only by an operation that ended with an error (R55). -/
def endingOk (error : Bool) (left : List Host.Cell) : Bool := cellsOk 0 left && (error || left.isEmpty)

/-- What STATUS-READ can show (R55). -/
def statusOk : FlashStatus → Bool
  | .busy => true
  | .ended error left => endingOk error left

/-- The command can reach the part. -/
def wellFormed (i : Instr) : Bool :=
  match i with
  | .powerOn => true
  | .keyReport _ chars => reportOk chars
  | .erroredByte _ => true
  | .breakDetected _ => true
  | .silenceIntervalExpiry _ => true
  | .strokeLimitExpiry _ => true
  | .writerEnable _ payload => payloadOk payload
  | .handover _ payload => payloadOk payload
  | .floorWaitExpiry => true
  | .syncPulse => true
  | .captureExpiry => true
  | .syncMark _ payload => payloadOk payload
  | .rebase => true
  | .previousSyncExpiry => true
  | .holdoverExpiry => true
  | .memoryReady left => cellsOk 0 left
  | .readComplete => true
  | .suspendLatencyExpiry status => statusOk status
  | .resumeIntervalExpiry => true
  | .pageProgramEnd error left => endingOk error left
  | .blockEraseEnd error left => endingOk error left
  | .operationTimeout => true
  | .timeoutStillBusy => true
  | .storeRecover _ payload => payloadOk payload
  | .formatStore _ payload => payloadOk payload
  | .eraseRegion _ payload => payloadOk payload
  | .logAgeExpiry => true
  | .logRead _ payload => payloadOk payload
  | .logFlush _ payload => payloadOk payload
  | .entryLookup _ payload => payloadOk payload
  | .entryAdd _ payload => payloadOk payload
  | .entryDelete _ payload => payloadOk payload
  | .strokeTake => true
  | .holdTimerExpiry => true
  | .defineSpeaker _ payload => payloadOk payload
  | .insertNote _ payload => payloadOk payload
  | .firmTimeExpiry => true
  | .openSession _ payload => payloadOk payload
  | .closeSession _ payload => payloadOk payload
  | .lock _ payload => payloadOk payload
  | .unlock _ payload => payloadOk payload
  | .lockTimeout => true
  | .editUnit _ payload => payloadOk payload
  | .reclassify _ payload => payloadOk payload
  | .readback _ payload => payloadOk payload
  | .readbackVisit => true
  | .releaseTimerExpiry _ => true
  | .agedToExpiry => true
  | .feedRepaint _ payload => payloadOk payload
  | .grant => true
  | .frameSent _ => true
  | .ack _ _ => true
  | .resync _ _ => true
  | .malformedReply _ chars errored => decide (chars.length ≤ 3) && (errored || !chars.isEmpty)
  | .replyGapTimeout _ _ => true
  | .ackTimeout _ => true
  | .probeTimerExpiry _ => true
  | .hostFramingError _ => true
  | .hostGapTimeout _ => true
  | .frameDiscarded chars => !chars.isEmpty
  | .badKind _ kind payload => !isRequestKind kind && payloadOk payload
  | .hostFrameSent => true
  | .clearCondition _ payload => payloadOk payload
  | .setSetting _ payload => payloadOk payload
  | .getSetting _ payload => payloadOk payload
  | .identify _ payload => payloadOk payload
  | .status _ payload => payloadOk payload
  | .restart _ payload => payloadOk payload
  | .breakEnd _ => true
  | .leadByte _ char => isLead char

end Sys2Proof
end

