-- ==== Sys2Proof/Tests/Slice0.lean ====
section
/-! SUPPORT. Tests of the model: ill-formed commands, worked examples of the spec, and for every statement with hypotheses
states that meet them. -/

-- One test after the other: each waits for the kernel's check of the whole model, and waiting side by side costs memory.
set_option Elab.async false

namespace Sys2Proof.Tests

open Sys2Proof Sys2Proof.Machine

/-! ### Small states -/

/-- The next state of an outcome. -/
def nx (o : Host.Outcome State Fault Refusal) : State :=
  match o with
  | .next t => t
  | _ => State.reset

/-- The outcome is a next state. -/
def goesOn (o : Host.Outcome State Fault Refusal) : Bool :=
  match o with
  | .next _ => true
  | _ => false

theorem next_of_goesOn {o : Host.Outcome State Fault Refusal} (h : goesOn o = true) : ∃ t, o = .next t := by
  cases o with
  | next t => exact ⟨t, rfl⟩
  | _ => exact absurd h (by simp [goesOn])

/-- A note memory of 256 blocks: LOG 16 blocks, J, PA and PB 4 blocks each. -/
def header : Header := { capacity := 256, log := ⟨1, 16⟩, j := ⟨17, 4⟩, pa := ⟨21, 4⟩, pb := ⟨25, 4⟩ }

def timing : Timing := { programMax := 700, eraseMax := 400, suspendLatency := 20, resumeInterval := 100 }

def readyAt (a : Nat) : Region := { state := .ready, append := some a }

/-- The store READY over an erased memory. -/
def mounted : State := { State.reset with
  store := { Store.reset with
    state := .ready, header := some header, timing := some timing, log := readyAt 0, j := readyAt 16, pa := readyAt 16
    pb := readyAt 16 } }

/-- Both links UP with no key down, both positions SHADOW. -/
def linked : State := { mounted with
  links := ⟨{ KeyLink.reset with link := .up, lastReport := some 0, silenceFrom := some 0 },
    { KeyLink.reset with link := .up, lastReport := some 0, silenceFrom := some 0 }⟩
  floor := { Floor.reset with
    pos := ⟨{ PosRec.reset with state := .shadow }, { PosRec.reset with state := .shadow }⟩ } }

/-- A session OPEN with position A LIVE. -/
def inSession : State := { linked with
  script := { Transcript.reset with
    session := .opened, jobNumber := some 7, sessionNumber := some 1, epoch := some 0, startingPos := some .a }
  floor := { linked.floor with
    pos := ⟨{ PosRec.reset with state := .live }, { PosRec.reset with state := .shadow }⟩, state := .held } }

/-- A unit of the transcript. -/
def unit (n : Nat) (st : UnitState) : TUnit :=
  { number := n, kind := .word, state := st, pos := some .a, firstSeq := some 1, outline := [1], text := [0x61#8],
    join := false, paragraphStart := false, cls := .record, speaker := 0, timecode := 0, commitTime := some 0,
    snapshot := .reset, source := .j, suspect := false, unlogged := false, edited := false, globaled := false }

/-- Three COMMITTED units, with the lock on the first two. -/
def locked : State := { inSession with
  script := { inSession.script with
    units := [unit 1 .committed, unit 2 .committed, unit 3 .committed], nextNumber := 4
    lock := some { first := 1, last := 2, since := 0 } } }

def stroke (p : Pos) (k : Keys) : StrokeRec :=
  { pos := p, keys := k, openTime := 0, timecode := 0, seq := 1, damaged := false, held := false, unlogged := false }

def openStroke (k : Keys) (session : Bool) : OpenStroke :=
  { keys := k, openTime := 0, timecode := 0, damaged := false, held := false, inSession := session }

/-! ### Ill-formed commands (Syntax, WellFormed) -/

theorem test_payload_too_long : wellFormed (.setSetting 0 (List.replicate 1025 0)) = false := by decide +kernel
theorem test_payload_fits : wellFormed (.setSetting 0 (List.replicate 1024 0)) = true := by decide +kernel
theorem test_report_without_lead : wellFormed (.keyReport .a [0, 0, 0, 0]) = false := by decide +kernel
theorem test_report_with_lead_inside : wellFormed (.keyReport .a [0x80, 0x80, 0, 0]) = false := by decide +kernel
theorem test_report_empty : wellFormed (.keyReport .a []) = false := by decide +kernel
theorem test_lead_byte_is_a_lead : wellFormed (.leadByte .a 0x7F) = false := by decide +kernel
theorem test_memory_cells_rise : wellFormed (.memoryReady [(5, 1), (5, 2)]) = false := by decide +kernel
theorem test_memory_cells_in_memory : wellFormed (.memoryReady [(268435456, 1)]) = false := by decide +kernel
theorem test_good_program_leaves_nothing : wellFormed (.pageProgramEnd false [(5, 1)]) = false := by decide +kernel
theorem test_good_erase_leaves_nothing : wellFormed (.blockEraseEnd false [(5, 1)]) = false := by decide +kernel
theorem test_status_leaves_nothing : wellFormed (.suspendLatencyExpiry (.ended false [(5, 1)])) = false := by
  decide +kernel
theorem test_reply_too_long : wellFormed (.malformedReply .p1 [1, 2, 3, 4] false) = false := by decide +kernel
theorem test_reply_of_nothing : wellFormed (.malformedReply .p1 [] false) = false := by decide +kernel
theorem test_discard_of_nothing : wellFormed (.frameDiscarded []) = false := by decide +kernel
theorem test_known_kind_is_no_bad_kind : wellFormed (.badKind 0 0x01 []) = false := by decide +kernel
theorem test_bad_kind : wellFormed (.badKind 0 0x1C []) = true := by decide +kernel

/-! ### No row of the table gives bits (log entry 32) -/

theorem test_no_word_spells_a_command : decodeTableWord 8 0 = none := by decide +kernel
theorem test_no_word_changes_the_queue : (State.reset.withFetchWord 8 0).pending = [] := by decide +kernel

/-! ### More small states -/

def page (st : PageState) (n : Nat) : BufPage := { state := st, page := n, records := [List.replicate 16 7], since := 0 }

/-- A stroke of A is open and a key is latched; one log page is open. -/
def opened : State := { inSession with
  formers := ⟨{ Former.reset with openStroke := some (openStroke 4#23 true), latched := 8#23 }, Former.reset⟩
  log := { LogWriter.reset with pages := [page .opened 0] } }

/-- Three characters of a report of A have come. -/
def collecting : State := { opened with links := opened.links.upd .a (fun l => { l with rx := .collect [0x80, 0, 0] }) }

/-- A is OFF and B LIVE. -/
def offA : State := { opened with floor := { opened.floor with
  pos := ⟨{ PosRec.reset with state := .off }, { PosRec.reset with state := .live }⟩ } }

/-- A pass is under way with strokes queued. -/
def queued : State := { opened with floor := { opened.floor with
  pos := ⟨{ PosRec.reset with state := .live, queue := [stroke .a 4, stroke .a 5], pending := some (stroke .a 6) },
    { PosRec.reset with state := .requesting, queue := [stroke .b 4] }⟩
  state := .passing, waitFrom := some 0 } }

/-- The floor is VACANT. -/
def vacant : State := { opened with floor := { opened.floor with
  pos := ⟨{ PosRec.reset with state := .shadow }, { PosRec.reset with state := .down }⟩, state := .vacant } }

/-- A stroke is in flight. -/
def flying : State := { queued with trans := { queued.trans with
  inFlight := some { stroke := stroke .a 4, work := [stroke .a 4], results := [] }, hold := [stroke .a 3]
  timer := some 7 } }

/-- A LOCKED time base with a capture and a previous mark. -/
def timed : State := { inSession with time := { inSession.time with
  now := 1000000, anchorAt := 0, anchorCode := 100, captureAt := 900000, capture := .current, prevValid := true
  prevAt := 100000, prevCode := 205, sync := .locked, holdoverFrom := some 500000 } }

/-- The store in another state. -/
def withStore (x : StoreState) (s : State) : State := { s with store := { s.store with state := x } }

/-- A mount waits for a read. -/
def mounting (m : MountPhase) (cells : List Host.Cell) : State := { State.reset with
  flash := { cells := cells, orphans := [] }
  store := { Store.reset with
    state := .mounting, header := some header, timing := some timing, mount := m, reading := some .mount } }

/-- The bytes of a page as cells. -/
def cellsOf (a : Nat) (bs : Bytes) : List Host.Cell :=
  (bs.zipIdx.filter (fun x => decide (x.1 ≠ 0xFF#8))).map (fun x => (a + x.2, x.1))

def running (op : FlashOp) (w : Work) (out : Bool) : Running := { op := op, work := w, ran := 100, timedOut := out }

/-- A log page is being programmed, and two more are occupied. -/
def logging (out : Bool) : State := { inSession with
  log := { LogWriter.reset with pages := [page .programming 0, page .waiting 1, page .opened 2] }
  store := { inSession.store with
    inProgress := some (running (.program 65536 [1, 2, 3]) .logPage out), suspendAt := some 0, sinceResume := some 30 } }

/-- A block of the PA region is being erased. -/
def erasing : State := { linked with store := { linked.store with
  pa := { state := .erasing, append := none }, eraseTag := some 3, job := some { kind := .region .pa, step := .erase 21 }
  inProgress := some (running (.erase 21) .job false) } }

/-- A program of a log page has failed for good. -/
def faulted (f : FailedWork) : State := { inSession with
  log := { LogWriter.reset with pages := [page .waiting 0, page .waiting 1, page .opened 2] }
  conds := { inSession.conds with storeFault := .raisedOnce }
  store := { inSession.store with state := .fault, failed := some f } }

def dictProg : DictProg :=
  { dict := .pa, offset := 16, data := [1, 2, 3], bucket := 5, isPrefix := false, relocated := false,
    discarded := false }

/-- Staged operations, and one bucket of J with a record. -/
def staged : State := { linked with dict := { linked.dict with
  j := ⟨[⟨5, 16, 1⟩], false⟩
  staging := [{ dict := .pa, text := some [0x61], outline := [5], draining := false, next := .entry, reserves := [(5, 23)] }] } }

/-- The program of a record of PA has been started for the first staged operation, whose next step is `next`. -/
def recording (p : DictProg) (next : DrainNext) : State := { staged with
  dict := { staged.dict with staging :=
    [{ dict := .pa, text := some [0x61], outline := [5, 6], draining := true, next := next, reserves := [(5, 21), (7, 23)] }] }
  store := { staged.store with inProgress := some (running (.program (21 * 65536 + 16) [1, 2, 3]) (.dictRecord p) false) } }

/-- A step of a format is under way. -/
def formatting (op : FlashOp) (step : JobStep) : State := { linked with store := { linked.store with
  state := .formatting, formatTag := some 4, job := some { kind := .format header timing, step := step }
  inProgress := some (running op .job false) } }

/-- A note memory whose J region holds a ready mark and one record of the outline [5]. -/
def recordCells : List Host.Cell :=
  cellsOf (17 * 65536) (readyMark .j) ++ cellsOf (17 * 65536 + 256) (dictRecord 1 [5] [0x61] 4294967295)

/-- A lookup of the outline [5] in J, whose next record is at 256. -/
def lookup (c : Client) : Lookup :=
  { client := c, dict := .j, outline := [5], bucket := bucketOf [5], decided := none, byStaging := false, longer := false
    prefixMet := false, next := 256, reads := 0 }

/-- The record at 256 of J is being read for a lookup. -/
def walking (c : Client) (cells : List Host.Cell) (s : State) : State := { s with
  flash := { cells := cells, orphans := [] }
  dict := { s.dict with lookups := [lookup c], lookupTag := some 3 }
  store := { s.store with reading := some (.lookup c) } }

/-- The last lookup of a stroke in flight is being made, over one PROVISIONAL unit. -/
def finishing : State := walking (.run 0 0 .j) recordCells { inSession with
  trans := { inSession.trans with inFlight := some { stroke := stroke .a 5, work := [stroke .a 5], results := [] }, timer := some 7 }
  script := { inSession.script with units := [unit 1 .committed, unit 2 .provisional], nextNumber := 3 } }

/-- The reply to RESTART is being sent. -/
def restarting (s : State) : State :=
  { s with host := { s.host with phase := .restarting, sending := some (.reply { tag := 1, result := .done [], after := .restart }) } }

/-- The flush of RESTART waits for the one occupied page, whose program is in progress. -/
def flushing (x : Option Running) : State := { linked with
  host := { linked.host with phase := .windingDown }
  log := { LogWriter.reset with pages := [page .programming 0], flush := .restart }
  store := { linked.store with inProgress := some (running (.program 65536 [1, 2, 3]) .logPage false), suspended := x } }

/-- Strokes in the queue of A. -/
def queuedKeys (ks : List Keys) (s : State) : State := { s with floor := { s.floor with
  pos := s.floor.pos.upd .a (fun r => { r with queue := ks.map (stroke .a) }) } }

/-- No dictionary can be asked. -/
def deaf (s : State) : State := { s with store := { s.store with
  j := { state := .erasing, append := none }, pa := { state := .erasing, append := none } } }

/-- A hold list with PROVISIONAL units. -/
def holding : State := { inSession with
  trans := { inSession.trans with hold := [stroke .a 3], timer := some 7 }
  script := { inSession.script with
    units := [unit 1 .firm, unit 2 .committed, unit 3 .provisional, unit 4 .provisional], nextNumber := 5 } }

/-- Feeds 1 to 3 enabled, port 1 with a window, port 3 stalled. -/
def feeding : State := { inSession with
  time := { inSession.time with now := 9000000 }
  script := { inSession.script with units := [unit 1 .firm, unit 2 .committed, unit 3 .provisional], nextNumber := 4 }
  settings := { inSession.settings with feed := { inSession.settings.feed with
    f1 := { FeedSettings.default .delayed true with enable := true }
    f2 := { FeedSettings.default .settled false with enable := true }
    f3 := { FeedSettings.default .live false with enable := true } } }
  feeds := { feeds := ⟨.reset .active, .reset .active, .reset .active, .reset .stalled, .reset .off⟩, agedTo := 0 }
  ports :=
    ⟨{ Port.reset with
        state := .running
        window := [⟨3, .clear, some 10⟩, ⟨4, .clear, some 20⟩, ⟨5, .clear, none⟩]
        nextSeq := 6, sending := some ⟨5, .clear, true⟩, rx := .collect [0xA5] 3 },
      { Port.reset with state := .running },
      { Port.reset with state := .stalled, probeSeq := some 7, probeFrom := some 100 }, Port.reset⟩ }

/-- Feeds that have shown units 1 and 3; unit 2 has become SEALED, which their masks exclude. -/
def showing : State := { feeding with
  script := { feeding.script with
    units := [unit 1 .firm, { unit 2 .firm with cls := .sealed }, unit 3 .provisional]
    lock := some { first := 1, last := 1, since := 0 } }
  feeds := { agedTo := 2, feeds :=
    ⟨.reset .active,
      { Feed.reset .active with cursor := 1, shown := [{ number := 1, kind := .final, cls := .record }] },
      { Feed.reset .active with
        cursor := 1, shown := [{ number := 1, kind := .final, cls := .record }], changes := [.replace 1] },
      { Feed.reset .active with cursor := 3, shown :=
        [{ number := 1, kind := .final, cls := .record }, { number := 3, kind := .provisional, cls := .record }] },
      .reset .off⟩ } }

/-- A readback search for a word, and a state that makes it. -/
def search (w : Bytes) (cursor most : Nat) : Search :=
  { tag := 1, criterion := .word w, before := 0, most := most, collecting := false, cursor := cursor, start := none
    list := [] }

def searching (q : Search) : State := { locked with script := { locked.script with search := some q } }

/-- The stroke of a position is open. -/
def closing (p : Pos) (s : State) : State := { s with formers := s.formers.upd p (fun f =>
  { f with openStroke := some (openStroke 4 true) }) }

/-- The host link in the middle of a frame. -/
def receiving : State := { inSession with host := { inSession.host with rx := .frame [0xC3, 0, 2, 1, 1, 0x12] 7 } }

/-- The host link sending a frame. -/
def sendingFrame (x : Option TxFrame) : State := { inSession with host := { inSession.host with sending := x } }

def reply (a : AfterSent) : Reply := { tag := 1, result := .done [], after := a }

/-- The reply queue is full. -/
def fullQueue : State := { inSession with host := { inSession.host with replies := List.replicate 16 (reply .nothing) } }

/-! ### Worked examples of the spec, one step or one operation each -/

-- R197: the check values of the two CRCs.
theorem test_crc16 : crc16 [0x31, 0x32, 0x33, 0x34, 0x35, 0x36, 0x37, 0x38, 0x39] = 0x29B1 := by decide +kernel
theorem test_crc8 : crc8 [0x31, 0x32, 0x33, 0x34, 0x35, 0x36, 0x37, 0x38, 0x39] = 0xF4 := by decide +kernel

-- Paragraph 11.6: the STROKE record of KORT, with the check A0h.
theorem test_stroke_record :
    strokeRecord { inSession with script := { inSession.script with sessionNumber := some 3 } }
      { stroke .a 541192 with timecode := 51500, seq := 17 } =
    [0x08, 0x42, 0x08, 0x04, 0, 0, 0xC9, 0x2C, 0, 0, 0, 0x11, 0, 3, 1, 0xA0] := by decide +kernel

-- Paragraph 5.8.1: the four buckets.
theorem test_buckets :
    [bucketOf [524288], bucketOf [541192], bucketOf [164736], bucketOf [541192, 164736]] = [128, 652, 936, 592] := by
  decide +kernel

-- Paragraph 0.6.7 and Section 1.6: steno notation with and without the hyphen.
theorem test_notation : stenoText 541192 = [0x4B, 0x4F, 0x52, 0x54] ∧ stenoText 524290 = [0x53, 0x2D, 0x54] := by
  decide +kernel

-- Paragraph 3.8.2: the slew and its rate.
def beforeMark : State := { inSession with time := { inSession.time with
  now := 2000400, anchorAt := 1000000, anchorCode := 50000, prevAt := 1000000, prevCode := 50000, prevValid := true
  captureAt := 2000400, capture := .current, sync := .locked, holdoverFrom := some 1000000 } }

theorem test_sync_mark_slews :
    let t := (nx (exec (.syncMark 1 (be 4 51001)) beforeMark)).time
    t.rate = 16779731 ∧ t.anchorAt = 2000400 ∧ t.anchorCode = 51000 ∧ t.prevCode = 51001 ∧ t.capture = .none := by
  decide +kernel

-- Paragraph 3.8.4: the backward step.
theorem test_sync_mark_steps :
    let t := (nx (exec (.syncMark 1 (be 4 51700)) { beforeMark with time := { beforeMark.time with
      now := 3100400, rate := 16779731, anchorAt := 2000400, anchorCode := 51000, prevAt := 2000400, prevCode := 51001
      captureAt := 3000400, lastStamp := 52050 } })).time
    t.rate = 16779731 ∧ t.anchorCode = 51700 ∧ t.steps = 1 ∧ t.lastStamp = 52050 := by decide +kernel

-- Section 1.6 at 0 and at 40: K- and O open a stroke; the empty report closes KORT as stroke 17.
theorem test_report_opens :
    (nx (exec (.keyReport .a [0x88, 0x04, 0, 2]) inSession)).formers.a.openStroke.map OpenStroke.keys = some 520 := by
  decide +kernel

theorem test_report_closes :
    (nx (exec (.keyReport .a [0x80, 0, 0, 0]) { inSession with
      seqCounter := 17
      formers := ⟨{ Former.reset with openStroke := some (openStroke 541192 true) }, Former.reset⟩ })).floor.pos.a.queue.map
        (fun x => (x.keys, x.seq)) = [(541192, 17)] := by decide +kernel

-- Section 1.6 at 130: a count field that does not match damages the open stroke.
theorem test_damaged_report :
    (nx (exec (.keyReport .a [0x82, 0, 0, 9]) { inSession with
      formers := ⟨{ Former.reset with openStroke := some (openStroke 2 true) }, Former.reset⟩ })).formers.a.openStroke.map
        OpenStroke.damaged = some true := by decide +kernel

-- Section 1.6 at 2100: stroke-limit closes the stroke HELD and latches the keys still down.
theorem test_stroke_limit :
    let t := nx (exec (.strokeLimitExpiry .a) { inSession with
      links := inSession.links.upd .a (fun l => { l with lastReport := some 2 })
      formers := ⟨{ Former.reset with openStroke := some (openStroke 524290 true) }, Former.reset⟩ })
    t.formers.a.latched = 2 ∧ t.floor.pos.a.queue.map StrokeRec.held = [true] ∧ t.time.now = 2000000 := by decide +kernel

-- Section 2.7 at 100: the take stroke of B begins a pass and is not queued.
theorem test_take_stroke :
    let s := { inSession with
      settings := { inSession.settings with takeOutline := ⟨0, 4194305⟩ }
      trans := { inSession.trans with hold := [stroke .a 541192], timer := some 0 }
      formers := ⟨Former.reset, { Former.reset with openStroke := some (openStroke 4194305 true) }⟩ }
    let t := nx (exec (.keyReport .b [0x80, 0, 0, 0]) s)
    t.floor.state = .passing ∧ t.floor.pos.b.state = .requesting ∧ t.floor.pos.b.queue = [] := by decide +kernel

-- Section 2.7.1: the forced pass.
theorem test_floor_wait :
    let t := nx (exec .floorWaitExpiry { flying with floor := { flying.floor with
      pos := flying.floor.pos.upd .a (fun r => { r with pending := none }) } })
    t.floor.pos.a.relayDrops = 2 ∧ t.floor.pos.b.state = .live ∧ t.trans.resolvePending = true ∧ t.time.now = 3000000 := by
  decide +kernel

-- Section 2.8: the loss of the LIVE writer during a pass.
theorem test_break_of_the_live_link :
    let t := nx (exec (.breakDetected .a) queued)
    t.floor.pos.a.state = .down ∧ t.floor.pos.a.relayDrops = 4 ∧ t.floor.pos.b.state = .live ∧ t.floor.floorLosses = 1 := by
  decide +kernel

-- Section 4.9: a failed page program moves every later page one on.
theorem test_relocation :
    let t := nx (exec (.pageProgramEnd true []) (logging false))
    t.log.pages.map BufPage.page = [1, 2, 3] ∧ t.store.relocations = 1 ∧ t.store.state = .ready := by decide +kernel

-- Section 4.7 at 30: the erase is suspended and the read made.
theorem test_suspend :
    let t := nx (exec (.suspendLatencyExpiry .busy) { erasing with store := { erasing.store with
      suspendAt := some 0, waiting := [.lookup .request] } })
    t.store.suspends = 1 ∧ t.store.reading = some (.lookup .request) ∧ t.store.inProgress = none := by decide +kernel

-- Section 4.10: a new memory mounts UNFORMATTED.
theorem test_new_memory :
    (nx (exec .readComplete (mounting .header []))).store.state = .unformatted := by decide +kernel

-- Paragraph 5.8.2: KORT/RAOPL, "courtroom", reserves 21 and 45 bytes in the buckets 652 and 592.
theorem test_entry_add :
    (nx (exec (.entryAdd 1 ([2, 0, 2, 9] ++ beStrokes [541192, 164736] ++
      [0x63, 0x6F, 0x75, 0x72, 0x74, 0x72, 0x6F, 0x6F, 0x6D])) linked)).dict.staging.map StagedOp.reserves =
    [[(652, 21), (592, 45)]] := by decide +kernel

-- Paragraph 5.8.5: the deletion of RAOPL reserves 21 bytes in bucket 936.
theorem test_entry_delete :
    (nx (exec (.entryDelete 1 ([2, 1] ++ beStrokes [164736])) linked)).dict.staging.map StagedOp.reserves =
    [[(936, 21)]] := by decide +kernel

-- R108, R107: with no dictionary a stroke is an untranslate in notation; #SO is the number 10.
theorem test_untranslate :
    (nx (exec .strokeTake (deaf (queuedKeys [541192] inSession)))).script.units.map (fun u => (u.kind, u.text)) =
    [(.untranslate, [0x4B, 0x4F, 0x52, 0x54])] := by decide +kernel

theorem test_number :
    (nx (exec .strokeTake (deaf (queuedKeys [0x203] inSession)))).script.units.map (fun u => (u.kind, u.text)) =
    [(.number, [0x31, 0x30])] := by decide +kernel

-- Section 6.12 at 2700: the expiry commits the held unit at 1500 ms.
theorem test_hold_expiry :
    let t := nx (exec .holdTimerExpiry { holding with trans := { holding.trans with timer := some 0 } })
    t.script.units.map TUnit.state = [.firm, .committed, .committed, .committed] ∧ t.time.now = 1500000 := by
  decide +kernel

-- R142 (Section 7.10 at step 5 for the refusal): an edit outside the lock.
theorem test_edit_outside_the_lock :
    (nx (exec (.editUnit 6 (be 4 3 ++ [0, 1, 65])) locked)).host.replyLine =
    [{ tag := 6, result := .refused .notLocked, after := .nothing }] := by
  decide +kernel

-- R147 (Section 7.10 at step 4): the search completes when its list reaches MAX.
theorem test_readback_completes :
    let q : Search :=
      { tag := 5, criterion := .word [0x61], before := 0, most := 3, collecting := true, cursor := 2, start := some 1
        list := [1, 2] }
    (nx (exec .readbackVisit { locked with script := { locked.script with search := some q } })).script.search = none := by
  decide +kernel

-- Section 9.1.1 at grant 1: feed 0 is granted and goes to the end of the HIGH list.
theorem test_grant :
    (nx (exec .grant feeding)).fmt.high = [.feed .f1, .low, .feed .f0] := by decide +kernel

-- Section 9.6 at 270.8 and at 1,270.8: the stall and the probe.
theorem test_ack_timeout :
    let t := nx (exec (.ackTimeout .p1) feeding)
    t.ports.p1.state = .stalled ∧ t.ports.p1.window = [] ∧ t.ports.p1.framesLost = 3 := by decide +kernel

theorem test_probe :
    (nx (exec (.probeTimerExpiry .p3) feeding)).ports.p3.probeSeq = some 0 := by decide +kernel

-- R176: a reply of unknown kind and a reply in progress that a gap ends are both bad.
theorem test_two_bad_replies :
    (nx (exec (.replyGapTimeout .p2 [0xA5, 0x55, 0, 0xA5]) feeding)).ports.p2.badReplies = 2 ∧
    (nx (exec (.malformedReply .p2 [0x33, 0, 0xA5] false) { feeding with ports := feeding.ports.upd .p2 (fun q =>
      { q with rx := .collect [0xA5] 0 }) })).ports.p2.rx = .collect [0xA5] feeding.time.now := by decide +kernel

-- R191: hold-time is limited to 5000 ms; R185: a wrong length is refused.
theorem test_set_limits :
    (nx (exec (.setSetting 1 ([1, 0] ++ be 4 99999)) inSession)).settings.holdTime = 5000 := by decide +kernel

theorem test_wrong_length :
    (nx (exec (.unlock 1 [0]) locked)).host.replyLine = [{ tag := 1, result := .refused .badLength, after := .nothing }] := by
  decide +kernel

-- R184, R197: a good frame is a request's own command; a bad check discards it.
theorem test_bad_check : (nx (exec (.frameDiscarded [0x34]) receiving)).host.discards = 1 := by decide +kernel

/-! ### States that meet the hypotheses of the statements -/

theorem witness_StepRunsTheFrontCommand :
    ({ State.reset with pending := [.syncPulse, .grant] } : State).pending = .syncPulse :: [.grant] := by decide +kernel

theorem witness_IdleStepLetsAMicrosecondPass :
    State.reset.pending = [] := by decide +kernel

theorem witness_NoteMemoryKeepsItsForm :
    ((logging false).flash.wf = true) ∧ ∃ t, step { logging false with pending := [.pageProgramEnd false []] } = .next t := ⟨by decide +kernel, next_of_goesOn (by decide +kernel)⟩

theorem witness_RateStaysWithinLimits :
    ((logging false).time.inLimits) ∧ ∃ t, step { logging false with pending := [.pageProgramEnd false []] } = .next t := ⟨by decide +kernel, next_of_goesOn (by decide +kernel)⟩

theorem witness_QueuesAndBuffersStayWithinCapacity :
    ((logging false).host.fits ∧ (logging false).buffersFit ∧ (logging false).listsFit ∧ (logging false).dict.inOrder) ∧
      ∃ t, step { logging false with pending := [.pageProgramEnd false []] } = .next t :=
  ⟨by decide +kernel, next_of_goesOn (by decide +kernel)⟩

theorem witness_FeedsStayWithinTheirMask :
    showing.feedsTruthful ∧ ∃ t, step { showing with pending := [.reclassify 1 (be 4 1 ++ be 4 1 ++ [2])] } = .next t :=
  ⟨by decide +kernel, next_of_goesOn (by decide +kernel)⟩

theorem witness_NoteMemoryChangesOnlyWhenAnOperationEnds :
    endsOperation .syncPulse = false ∧ ∃ t, exec .syncPulse (logging false) = .next t := ⟨by decide +kernel, next_of_goesOn (by decide +kernel)⟩

theorem witness_CommandsChangeOnlyTheirBlocks :
    Block.links ∉ mayChange .grant ∧ ∃ t, exec .grant feeding = .next t := ⟨by decide +kernel, next_of_goesOn (by decide +kernel)⟩

theorem witness_RequestsAreTestedInOrder_full :
    requestOf 0x17 5 [] = some (.unlock 5 []) ∧ fullQueue.calm ∧ fullQueue.host.replies.length = 16 := by decide +kernel

theorem witness_RequestsAreTestedInOrder_kind :
    (0x1C#8).toNat = 28 ∧ inSession.calm ∧ inSession.host.replies.length < 16 ∧ fullQueue.calm ∧
    fullQueue.host.replies.length = 16 := by decide +kernel

theorem witness_RequestsAreTestedInOrder_length :
    requestOf 0x0A 5 [] = some (.handover 5 []) ∧ ([] : Bytes).length ≠ requestLength 0x0A [] ∧ inSession.accepts ∧
    inSession.calm := by decide +kernel

theorem witness_RequestsAreTestedInOrder_restarting :
    let s := { inSession with host := { inSession.host with phase := .restarting } }
    requestOf 0x0A 5 [0] = some (.handover 5 [0]) ∧ alwaysAnswered 0x0A = false ∧
      ([0] : Bytes).length = requestLength 0x0A [0] ∧ s.host.phase = .restarting ∧ s.log.flush = .none ∧
      s.host.replies.length < 16 ∧ (flushing none).host.phase = .windingDown ∧ (flushing none).log.pages ≠ [] ∧
      (flushing none).store.state ≠ .fault ∧ (flushing none).host.replies.length < 16 := by decide +kernel

theorem witness_RequestsAreTestedInOrder_draining :
    let s := { erasing with host := { fullQueue.host with phase := .draining, sending := some (.text .clear) } }
    requestOf 0x17 5 [] = some (.unlock 5 []) ∧ s.host.phase = .draining ∧ s.log.flush = .none ∧
      (chooseFrame s).host.replies ≠ [] := by decide +kernel

theorem witness_ReadRequestsAnswerAndChangeNothing :
    inSession.host.phase ≠ .draining ∧ inSession.host.replies.length < 16 := by decide +kernel

theorem witness_ClearConditionClearsTheFlags :
    (faulted .job).accepts := by decide +kernel

theorem witness_DefineSpeakerReplacesTheLabel :
    inSession.accepts ∧ ([0x51] : Bytes).length < 256 := by decide +kernel

theorem witness_LockIsTakenAndReleased :
    ({ locked with script := { locked.script with lock := none } } : State).accepts ∧ 1 < 4294967296 ∧ 3 < 4294967296 := by decide +kernel

theorem witness_LockIsTakenAndReleased_held :
    locked.accepts ∧ locked.script.lock = some { first := 1, last := 2, since := 0 } := by decide +kernel

theorem witness_EditUnitReplacesTheText :
    locked.accepts ∧ 2 < 4294967296 ∧ ([0x62] : Bytes).length < 256 := by decide +kernel

theorem witness_ReclassifyChangesTheClasses :
    locked.accepts ∧ clsOfCode (3#8).toNat = some .offRecord ∧ locked.script.holds 1 = true ∧ locked.script.holds 2 = true ∧
    locked.script.inLock 1 = true ∧ locked.script.inLock 2 = true ∧
    releaseFails locked .offRecord (locked.script.range 1 2) = false := by decide +kernel

theorem witness_ReclassifyChangesTheClasses_refused :
    locked.accepts ∧ clsOfCode (4#8).toNat = none ∧ clsOfCode (0#8).toNat = some .record ∧ (2 < 1 ∨ locked.script.holds 4 = false) ∧
    locked.script.holds 3 = true ∧ locked.script.inLock 3 = false := by decide +kernel

theorem witness_ReclassifyChangesTheClasses_released :
    let s := { feeding with
      feeds := { feeding.feeds with feeds := feeding.feeds.feeds.upd .f1 (fun f =>
        { f with cursor := 1, shown := [{ number := 1, kind := .final, cls := .record }] }) }
      script := { feeding.script with lock := some { first := 1, last := 1, since := 0 } } }
    s.accepts ∧ clsOfCode (2#8).toNat = some .sealed ∧ s.script.holds 1 = true ∧ s.script.inLock 1 = true ∧
      releaseFails s .sealed (s.script.range 1 1) = true := by decide +kernel

theorem witness_ReadbackSearchesTheTranscript :
    locked.accepts ∧ locked.script.search = none ∧ (1 ≤ (32#8).toNat ∧ (32#8).toNat ≤ 32) ∧
    (1 ≤ ([0x61] : Bytes).length ∧ ([0x61] : Bytes).length ≤ 48) := by decide +kernel

theorem witness_ReadbackSearchesTheTranscript_refused :
    let s := searching (search [0x61] 4 4)
    s.accepts ∧ s.script.search ≠ none ∧ (3#8).toNat ≠ 1 ∧ (3#8).toNat ≠ 2 ∧ (33#8).toNat = 33 ∧
      48 < (List.replicate 49 0x61#8).length ∧ (List.replicate 255 0x61#8).length ≤ 255 ∧
      1 ≤ (32#8).toNat ∧ (32#8).toNat ≤ 32 := by decide +kernel

theorem witness_ReadbackSearchesTheTranscript_found :
    let q := search [0x61] 4 2
    (searching q).host.phase = .normal ∧ (searching q).script.search = some q ∧
      (∀ u ∈ (searching q).script.units, u.text.length ≤ 48) ∧ q.collecting = false ∧
      ((searching q).script.units.filter (fun x => decide (x.number < q.cursor))).getLast? = some (unit 3 .committed) ∧
      q.criterion.passes (unit 3 .committed) = true ∧ 2 ≤ q.most ∧ (search [0x61] 4 1).most ≤ 1 := by decide +kernel

theorem witness_ReadbackSearchesTheTranscript_passed :
    let q := search [0x62] 4 2
    (searching q).script.search = some q ∧
      ((searching q).script.units.filter (fun x => decide (x.number < q.cursor))).getLast? = some (unit 3 .committed) ∧
      q.criterion.passes (unit 3 .committed) = false := by decide +kernel

theorem witness_ReadbackSearchesTheTranscript_collect :
    let q := { search [0x61] 2 3 with collecting := true, start := some 2, list := [2] }
    let last := { q with most := 2 }
    (searching q).script.search = some q ∧
      (searching q).script.units.find? (fun x => decide (q.cursor < x.number)) = some (unit 3 .committed) ∧
      q.before = 0 ∧ q.criterion = .word [0x61] ∧ q.list.length + 1 < q.most ∧ last.most ≤ last.list.length + 1 ∧
      (searching { q with cursor := 3 }).script.units.find? (fun x => decide (3 < x.number)) = none := by decide +kernel

theorem witness_ReadbackSearchesTheTranscript_stops :
    let q := { search [0x61] 2 3 with before := 3, collecting := true, start := some 2, list := [2] }
    let x := { q with before := 0, criterion := .speaker 1 }
    q.before ≠ 0 ∧ q.before ≤ (unit 3 .committed).number ∧ x.criterion = .speaker 1 ∧
      { unit 3 .committed with kind := .speakerLabel }.kind = .speakerLabel := by decide +kernel

theorem witness_ReadbackSearchesTheTranscript_none :
    let q := search [0x61] 1 2
    (searching q).script.search = some q ∧
      ((searching q).script.units.filter (fun x => decide (x.number < q.cursor))).getLast? = none ∧
      (searching q).host.notices.length + 1 ≤ 32 := by decide +kernel

theorem witness_KeyReportFormsAStroke_opens :
    inSession.completes .a [0x88, 0, 0, 1] 0x88 0 0 1 ∧ keyCount (keyField 0x88 0 0 1) = countField 1 ∧ inSession.calm ∧
    (inSession.links.get .a).link = .up ∧ (inSession.posRec .a).state ≠ .off ∧
    (inSession.formers.get .a).openStroke = none ∧ offA.completes .a [0x88, 0, 0, 1] 0x88 0 0 1 ∧ offA.calm ∧
    (offA.links.get .a).link = .up ∧ (offA.posRec .a).state = .off := by decide +kernel

theorem witness_KeyReportFormsAStroke_joins :
    let s := { opened with links := opened.links.upd .a (fun l => { l with rx := .collect [0x8A] }) }
    s.completes .a [0, 0, 2] 0x8A 0 0 2 ∧ keyCount (keyField 0x8A 0 0 2) = countField 2 ∧ s.calm ∧
      (s.links.get .a).link = .up ∧ (s.posRec .a).state ≠ .off ∧
      (s.formers.get .a).openStroke = some (openStroke 4#23 true) ∧
      keyField 0x8A 0 0 2 &&& ~~~((s.formers.get .a).latched &&& keyField 0x8A 0 0 2) ≠ 0 := by decide +kernel

theorem witness_KeyReportFormsAStroke_down :
    let off := { mounted with floor := { mounted.floor with
      pos := mounted.floor.pos.upd .a (fun r => { r with state := .off }) } }
    mounted.completes .a [0x88, 0, 0, 1] 0x88 0 0 1 ∧ keyCount (keyField 0x88 0 0 1) = countField 1 ∧ mounted.calm ∧
      (mounted.links.get .a).link = .down ∧ (mounted.formers.get .a).openStroke = none ∧
      (mounted.posRec .a).state = .down ∧
      keyField 0x88 0 0 1 &&& ~~~((mounted.formers.get .a).latched &&& keyField 0x88 0 0 1) ≠ 0 ∧
      off.completes .a [0x88, 0, 0, 1] 0x88 0 0 1 ∧ off.calm ∧ (off.posRec .a).state = .off := by decide +kernel

theorem witness_StrokesCloseAndAreDisposedOf_report :
    opened.completes .a [0x88, 0, 0, 1] 0x88 0 0 1 ∧ keyCount (keyField 0x88 0 0 1) = countField 1 ∧ opened.calm ∧
    (opened.formers.get .a).openStroke = some (openStroke 4#23 true) ∧ opened.settings.strokeEcho = false ∧
    (opened.links.get .a).link = .up ∧ (opened.posRec .a).state ≠ .off ∧
    8#23 = (opened.formers.get .a).latched &&& keyField 0x88 0 0 1 ∧ keyField 0x88 0 0 1 &&& ~~~8#23 = 0 ∧
    collecting.completes .a [0] 0x80 0 0 0 ∧ keyCount (keyField 0x80 0 0 0) = countField 0 ∧ collecting.calm ∧
    (collecting.links.get .a).link = .up := by decide +kernel

theorem witness_StrokesCloseAndAreDisposedOf_limit :
    opened.calm ∧ (opened.formers.get .a).openStroke = some (openStroke 4#23 true) ∧
    0#23 = (opened.links.get .a).lastReport.getD 0 ∧ opened.script.session = .opened ∧
    (opened.posRec .a).state = .live ∧ opened.store.state = .ready ∧ opened.log.openPage = some (page .opened 0) := by decide +kernel

theorem witness_StrokesCloseAndAreDisposedOf_outside :
    let s := closing .a { opened with settings := { opened.settings with strokeEcho := true } }
    let outside := { s with formers := s.formers.upd .a (fun f => { f with openStroke := some (openStroke 4 false) }) }
    outside.calm ∧ (outside.formers.get .a).openStroke = some (openStroke 4 false) ∧
      (openStroke 4 false).inSession = false ∧ s.settings.strokeEcho = true ∧ s.host.notices.length < 32 := by
  decide +kernel

-- R25, R27, R28, R30, R32: a stroke of each row of the table, and the first stroke at a VACANT floor.
theorem witness_StrokesCloseAndAreDisposedOf_positions :
    let first := closing .a vacant
    let shadow := closing .b inSession
    let take := { shadow with settings := { shadow.settings with takeOutline := ⟨0, 4⟩ } }
    let busy := { take with trans := { take.trans with hold := [stroke .a 3], timer := some 7 } }
    let requesting := closing .b queued
    let full := { requesting with floor := { requesting.floor with
      pos := requesting.floor.pos.upd .b (fun r => { r with queue := List.replicate 64 (stroke .b 4) }) } }
    let inFlight := { full with trans := flying.trans }
    (∀ s ∈ [shadow, take, busy, requesting, full, inFlight],
      s.calm ∧ (s.formers.get .b).openStroke = some (openStroke 4 true) ∧ s.script.session = .opened ∧
        s.store.header = some header ∧ s.store.state = .ready ∧ (s.posRec .a).state = .live) ∧
      (first.calm ∧ (first.posRec .a).state = .shadow ∧ first.floor.state = .vacant) ∧
      (shadow.posRec .b).state = .shadow ∧ shadow.floor.state = .held ∧ shadow.settings.takeOutline.get .b = 0 ∧
      (openStroke 4 true).keys.toNat = take.settings.takeOutline.get .b ∧ take.trans.hold = [] ∧
      (take.posRec (otherPos .b)).queue = [] ∧ busy.trans.hold ≠ [] ∧
      (requesting.posRec .b).state = .requesting ∧ (requesting.posRec .b).queue.length < 64 ∧
      64 ≤ (full.posRec .b).queue.length ∧ full.floor.state = .passing ∧ full.trans.inFlight = none ∧
      inFlight.trans.inFlight ≠ none := by decide +kernel

-- R25, R74: the LIVE queue full, no open page and none to open, and the echo.
theorem witness_StrokesCloseAndAreDisposedOf_refused :
    let s := closing .a { inSession with
      store := { inSession.store with log := readyAt 4096 }
      settings := { inSession.settings with strokeEcho := true } }
    s.calm ∧ s.store.header = some header ∧ s.store.state = .ready ∧ s.log.openPage = none ∧
      (∀ a, s.store.log.append = some a → ¬ a < header.log.len * 256) ∧ s.settings.strokeEcho = true ∧
      s.host.notices.length < 24 ∧ (withStore .formatting s).store.state ≠ .ready ∧
      (withStore .formatting s).store.state ≠ .fault := by decide +kernel

theorem witness_DamagedReportsAreCounted_hunt :
    opened.calm ∧ (opened.links.get .a).inBreak = false ∧ (opened.links.get .a).rx = .hunt ∧ (0x80#8).msb = true := by decide +kernel

theorem witness_DamagedReportsAreCounted_collect :
    collecting.calm ∧ (collecting.links.get .a).inBreak = false ∧
    (collecting.links.get .a).rx = .collect [0x80, 0, 0] ∧ (0x80#8).msb = true := by decide +kernel

theorem witness_DamagedReportsAreCounted_check :
    collecting.calm ∧ (collecting.links.get .a).rx = .collect [0x80, 0, 0] ∧ (3#8).msb = false ∧
    keyCount (keyField 0x80 0 0 3) ≠ countField 3 := by decide +kernel

theorem witness_LinkLossTakesThePositionDown :
    collecting.calm ∧ (collecting.links.get .a).inBreak = false ∧ (collecting.links.get .a).link = .up ∧
    (collecting.links.get .a).silenceFrom = some 0 := by decide +kernel

-- R16, R19, R25, R74: the open stroke of a lost link, numbered into the OPEN page or a new one, refused, and not numbered.
theorem witness_LinkLossTakesThePositionDown_stroke :
    let echo := fun s : State => { s with settings := { s.settings with strokeEcho := true } }
    let fresh := closing .a inSession
    let refused := { echo fresh with store := { fresh.store with log := readyAt 4096 } }
    let outside := { echo opened with
      formers := opened.formers.upd .a (fun f => { f with openStroke := some (openStroke 4 false) }) }
    (∀ s ∈ [opened, fresh, refused, outside],
      s.calm ∧ (s.links.get .a).inBreak = false ∧ (s.links.get .a).link = .up ∧ s.store.header = some header ∧
        s.store.state = .ready ∧ s.script.session = .opened ∧ s.host.notices.length < 24) ∧
      (opened.formers.get .a).openStroke = some (openStroke 4 true) ∧ (openStroke 4 true).inSession = true ∧
      (openStroke 4 false).inSession = false ∧ outside.settings.strokeEcho = true ∧
      opened.log.openPage = some (page .opened 0) ∧ fresh.log.openPage = none ∧ fresh.store.log.append = some 0 ∧
      fresh.log.pages.length < 8 ∧ 0 < header.log.len * 256 ∧ refused.log.openPage = none ∧
      (∀ a, refused.store.log.append = some a → ¬ a < header.log.len * 256) := by decide +kernel

-- R22, R33, R34: the position of a lost link in each state.
theorem witness_LinkLossTakesThePositionDown_positions :
    (∀ s ∈ [queued, offA, vacant, inSession, flying],
      s.calm ∧ ∀ p ∈ [Pos.a, .b], (s.links.get p).inBreak = false ∧ (s.links.get p).link = .up) ∧
      (queued.posRec .a).state = .live ∧ (queued.posRec .b).state = .requesting ∧ queued.trans.inFlight = none ∧
      (inSession.posRec .a).state = .live ∧ (inSession.posRec .b).state = .shadow ∧ inSession.script.session = .opened ∧
      (offA.posRec .a).state = .off ∧ (vacant.posRec .b).state = .down ∧ flying.trans.inFlight ≠ none ∧
      (flying.posRec .a).state = .live := by decide +kernel

theorem witness_LinkLossTakesThePositionDown_again :
    mounted.calm ∧ (mounted.links.get .a).inBreak = false ∧ (mounted.links.get .a).link = .down ∧
    (mounted.links.get .a).rx = .hunt := by decide +kernel

theorem witness_WriterEnableSwitchesThePosition :
    opened.accepts ∧ opened.calm ∧ 1 < (2#8).toNat ∧ posOfCode (0#8).toNat = some .a ∧ posOfCode (1#8).toNat = some .b ∧
    (opened.posRec .a).state = .live ∧ (opened.posRec .b).state = .shadow := by decide +kernel

theorem witness_WriterEnableSwitchesThePosition_off :
    offA.accepts ∧ offA.calm ∧ posOfCode (0#8).toNat = some .a ∧ (offA.posRec .a).state = .off := by decide +kernel

theorem witness_WriterEnableSwitchesThePosition_requesting :
    queued.accepts ∧ queued.calm ∧ posOfCode (1#8).toNat = some .b ∧ (queued.posRec .b).state = .requesting := by decide +kernel

theorem witness_HandoverMovesTheFloor_closed :
    linked.accepts ∧ linked.calm ∧ linked.script.session ≠ .opened := by decide +kernel

theorem witness_HandoverMovesTheFloor_refused :
    offA.accepts ∧ offA.calm ∧ offA.script.session = .opened ∧ 1 < (2#8).toNat ∧ posOfCode (0#8).toNat = some .a ∧
    (offA.posRec .a).state = .off := by decide +kernel

theorem witness_HandoverMovesTheFloor_pass :
    opened.accepts ∧ opened.calm ∧ opened.script.session = .opened ∧ posOfCode (1#8).toNat = some .b ∧
    (opened.posRec .b).state = .shadow ∧ opened.floor.state = .held ∧ (opened.posRec (otherPos .b)).state = .live := by decide +kernel

theorem witness_HandoverMovesTheFloor_vacant :
    vacant.accepts ∧ vacant.calm ∧ posOfCode (0#8).toNat = some .a ∧ (vacant.posRec .a).state = .shadow ∧
    vacant.floor.state = .vacant := by decide +kernel

theorem witness_HandoverMovesTheFloor_cancel :
    queued.accepts ∧ queued.calm ∧ posOfCode (0#8).toNat = some .a ∧ (queued.posRec .a).state = .live ∧
    queued.floor.state = .passing ∧ (queued.posRec .b).state = .requesting := by decide +kernel

theorem witness_HandoverMovesTheFloor_forced :
    queued.calm ∧ queued.floor.waitFrom = some 0 ∧ queued.floor.state = .passing ∧ (queued.posRec .a).state = .live ∧
    (queued.posRec .b).state = .requesting ∧ queued.trans.inFlight = none := by decide +kernel

theorem witness_HandoverMovesTheFloor_forcedInFlight :
    flying.calm ∧ flying.floor.waitFrom = some 0 ∧ flying.floor.state = .passing ∧ (flying.posRec .a).state = .live ∧
    (flying.posRec .b).state = .requesting ∧ flying.trans.inFlight ≠ none := by decide +kernel

theorem witness_TimeBaseEventsMoveTheMapping :
    (timed.time.capture = .current ∧ (timed.time.now - timed.time.captureAt).toNat ≤ 500000) ∧
    timed.time.prevValid = true := by decide +kernel

theorem witness_SyncMarkDisciplinesTheTimeBase :
    timed.accepts ∧ 4294967295 < 4294967296 ∧ timed.time.capture = .current ∧
    ¬ 500000 < (timed.time.now - timed.time.captureAt).toNat := by decide +kernel

theorem witness_SyncMarkDisciplinesTheTimeBase_none :
    inSession.accepts ∧ inSession.time.capture = .none := by decide +kernel

theorem witness_SyncMarkDisciplinesTheTimeBase_late :
    let s := { timed with time := { timed.time with captureAt := 499999 } }
    s.accepts ∧ s.time.capture = .current ∧ 500000 < (s.time.now - s.time.captureAt).toNat ∧
      ¬ 2147483648 ≤ (s.time.now - s.time.anchorAt).toNat := by decide +kernel

theorem witness_TimeBaseEventsMoveTheMapping_holdover :
    timed.host.phase = .normal ∧ timed.time.holdoverFrom = some 500000 ∧ timed.host.notices.length < 32 := by decide +kernel

theorem witness_MountReadsTheMemory_unmounted :
    State.reset.calm ∧ State.reset.store.state = .unmounted ∧ mounted.store.state ≠ .unmounted := by decide +kernel

theorem witness_MountReadsTheMemory_blank :
    let s := mounting .header []
    s.calm ∧ s.store.reading = some .mount ∧ s.store.mount = .header ∧ s.store.formatTag = none ∧
      parseHeader (readBytes s.flash.cells 0 37) = none := by decide +kernel

theorem witness_MountReadsTheMemory_header :
    let s := mounting .header (cellsOf 0 (headerBytes header timing))
    s.calm ∧ s.store.reading = some .mount ∧ s.store.mount = .header ∧
      parseHeader (readBytes s.flash.cells 0 37) = some (header, timing) := by decide +kernel

theorem witness_MountReadsTheMemory_format :
    let s := { mounting .header [] with store := { (mounting .header []).store with formatTag := some 4 } }
    let u := { mounting .log [] with store := { (mounting .log []).store with formatTag := some 4 } }
    s.calm ∧ s.store.reading = some .mount ∧ s.store.mount = .header ∧
      parseHeader (readBytes s.flash.cells 0 37) = none ∧ s.store.formatTag = some 4 ∧ s.host.notices.length < 28 ∧
      u.calm ∧ u.store.reading = some .mount ∧ u.store.mount = .log ∧ u.store.header = some header ∧
      u.store.formatTag = some 4 := by decide +kernel

-- R56: a region that ends at the end of the memory, and one block later; a region of too few blocks; two that share a
-- block; a timing value at and below its limit; another version; a wrong check.
theorem witness_MountReadsTheMemory_valid :
    let valid := fun (h : Header) (z : Timing) => decide (parseHeader (headerBytes h z) = some (h, z))
    (headerBytes header timing).length = 37 ∧ valid header timing = true ∧
      valid { header with pb := ⟨25, 231⟩ } timing = true ∧ valid { header with pb := ⟨25, 232⟩ } timing = false ∧
      valid { header with j := ⟨17, 3⟩ } timing = false ∧ valid { header with j := ⟨16, 4⟩ } timing = false ∧
      valid header { timing with programMax := 100 } = true ∧ valid header { timing with programMax := 99 } = false ∧
      parseHeader ((headerBytes header timing).set 8 2) = none ∧
      parseHeader ((headerBytes header timing).set 36 0) = none := by decide +kernel

theorem witness_MountReadsTheMemory_log :
    let s := mounting .log (cellsOf 66048 [1])
    s.calm ∧ s.store.reading = some .mount ∧ s.store.mount = .log ∧ s.store.header = some header := by decide +kernel

theorem witness_MountReadsTheMemory_dict :
    let s := mounting (.dict .j) recordCells
    s.calm ∧ s.store.reading = some .mount ∧ s.store.mount = .dict .j ∧ s.store.header = some header ∧
      readBytes s.flash.cells (header.j.start * 65536) (readyMark .j).length = readyMark .j ∧
      readBytes [] (header.j.start * 65536) (readyMark .j).length ≠ readyMark .j := by decide +kernel

-- R60: the record at 256 is whole, the byte after it is FFh with an erased page after it; in the middle of the record at 257
-- lies no whole record, and an erased byte before a page in use is a gap.
theorem witness_MountReadsTheMemory_scan :
    let m := recordCells
    let base := 17 * 65536
    (readByte m (base + 256)).toNat = 1 ∧ (readByte m (base + 257)).toNat = 1 ∧ (readByte m (base + 258)).toNat = 1 ∧
      sum8 (readBytes m (base + 256) 12) = 0 ∧ 256 + 12 ≤ 512 ∧ sum8 (readBytes m (base + 257) 12) ≠ 0 ∧
      (readByte m (base + 268)).toNat = 255 ∧ readByte m (base + 512) = 0xFF ∧
      (readByte m (base + 200)).toNat = 255 ∧ 200 % 256 ≠ 0 ∧ readByte m (base + 256) ≠ 0xFF := by decide +kernel

theorem witness_MountReadsTheMemory_enter : ((State.reset.dict).get .j).inOrder := by decide +kernel

theorem witness_EndedOperationsChangeTheirSpan_program :
    (logging false).calm ∧ (logging false).flash.wf = true ∧ (logging false).store.inProgress =
    some { op := .program 65536 [1, 2, 3], work := .logPage, ran := 100, timedOut := false } := by decide +kernel

theorem witness_EndedOperationsChangeTheirSpan_erase :
    erasing.calm ∧ erasing.flash.wf = true ∧ erasing.store.inProgress =
    some { op := .erase 21, work := .job, ran := 100, timedOut := false } := by decide +kernel

theorem witness_EndedWorkIsCarriedOn_logPage :
    let room := logging false
    let full := { logging false with log := { LogWriter.reset with pages := [page .programming 4095], flushTag := some (5, 1) } }
    (room.calm ∧ room.store.header = some header ∧ room.store.logRelocated = false ∧
      room.log.pages.getLast? = some (page .opened 2) ∧ 2 + 1 < header.log.len * 256) ∧
    (full.calm ∧ full.log.pages.getLast? = some (page .programming 4095) ∧ header.log.len * 256 ≤ 4095 + 1 ∧
      full.log.flushTag = some (5, 1) ∧ full.host.notices.length < 28) := by decide +kernel

theorem witness_EndedWorkIsCarriedOn_record :
    let s := recording dictProg (.pfx 1)
    (s.calm ∧ s.store.header = some header ∧ s.store.inProgress =
      some { op := .program (21 * 65536 + 16) [1, 2, 3], work := .dictRecord dictProg, ran := 100, timedOut := false }) ∧
    ((dictProg.offset / 256 + 1) * 256 + dictProg.data.length ≤ (header.span .pa).len * 65536 ∧
      ¬ ((262000 / 256 + 1) * 256 + 3 ≤ (header.span .pa).len * 65536)) ∧
    (s.dict.staging = [] ++ s.dict.staging ∧ (s.dict.get .pa).stalled = false ∧ (s.dict.get .pa).inOrder ∧
      s.store.recovering = none) ∧
    ({ dictProg with discarded := true } : DictProg).discarded = true := by decide +kernel

theorem witness_EndedWorkIsCarriedOn_job :
    let s := formatting (.erase 255) (.erase 255)
    (s.calm ∧ s.store.header = some header ∧ s.store.state = .formatting ∧ s.store.reading = none ∧
      s.store.suspended = none ∧ s.store.recovering = none ∧ header.capacity ≤ 255 + 1 ∧ 254 + 1 < header.capacity ∧
      s.store.job = some { kind := .format header timing, step := .erase 255 } ∧ s.store.formatTag = some 4 ∧
      s.host.notices.length < 28) ∧
    (erasing.calm ∧ erasing.store.job = some { kind := .region .pa, step := .erase 21 } ∧
      erasing.store.eraseTag = some 3 ∧ erasing.store.recovering = none) := by decide +kernel

theorem witness_OperationsSuspendAndTimeOut :
    let s := logging false
    s.calm ∧ s.store.suspendAt = some 0 ∧ s.store.timing = some timing ∧ s.store.sinceResume = some 30 ∧
      s.store.inProgress = some { op := .program 65536 [1, 2, 3], work := .logPage, ran := 100, timedOut := false } := by decide +kernel

theorem witness_OperationsSuspendAndTimeOut_again :
    let s := logging true
    s.calm ∧ s.store.timing = some timing ∧ Work.logPage ≠ .abandoned ∧
      s.store.inProgress = some { op := .program 65536 [1, 2, 3], work := .logPage, ran := 100, timedOut := true } := by decide +kernel

theorem witness_LogPagesCloseByAgeAndFlush :
    (logging false).calm ∧ (logging false).accepts ∧ (logging false).log.openPage = some (page .opened 2) := by decide +kernel

theorem witness_LogReadAnswersItsSlots :
    opened.accepts ∧ opened.calm ∧ opened.store.header = some header ∧ opened.store.state = .ready ∧
    opened.store.logRead = none ∧ opened.store.log.state = .ready ∧ 65535 < header.log.len * 4096 ∧
    opened.log.pages.find? (fun x => decide (x.page = 65535 / 16)) = none ∧
    opened.log.pages.find? (fun x => decide (x.page = 14 / 16)) = some (page .opened 0) ∧
    14 % 16 + (2#8).toNat ≤ 16 ∧ opened.host.notices.length < 32 := by decide +kernel

-- R77: slots 15 and 16 lie in two buffered pages; slot 32 lies in the first page that is not buffered.
theorem witness_LogReadAnswersItsSlots_pages :
    let s := { opened with log := { opened.log with pages := [page .waiting 0, page .opened 1] } }
    s.accepts ∧ s.calm ∧ s.store.header = some header ∧ s.store.state = .ready ∧ s.store.logRead = none ∧
      s.store.log.state = .ready ∧ s.host.notices.length < 32 ∧
      (∀ i ∈ List.range 2, ∃ q ∈ s.log.pages, q.page = (15 + i) / 16) ∧ min (2#8).toNat (header.log.len * 4096 - 15) = 2 ∧
      (∀ i ∈ List.range 17, ∃ q ∈ s.log.pages, q.page = (15 + i) / 16) ∧ (15 + 17) % 16 = 0 ∧
      ¬ (∃ q ∈ s.log.pages, q.page = (15 + 17) / 16) ∧ 17 < min (60#8).toNat (header.log.len * 4096 - 15) := by
  decide +kernel

-- R77: the read of page 2 ends; page 3 is buffered, page 4 is not; and a read that is the last.
theorem witness_LogReadAnswersItsSlots_read :
    let q := fun n : Nat =>
      ({ tag := 1, index := 31, count := n, slots := [List.replicate 16 7] } : LogReading)
    let s := fun n : Nat => { opened with
      log := { opened.log with pages := [page .opened 3] }
      store := { opened.store with reading := some .logRead, logRead := some (q n) } }
    (∀ n ∈ [5, 33, 40], (s n).calm ∧ (s n).store.reading = some .logRead ∧ (s n).store.logRead = some (q n) ∧
      (s n).store.header = some header ∧ (q n).slots.length < (q n).count) ∧
      1 + min (5 - 1) (16 - 32 % 16) = 5 ∧ 1 + min (33 - 1) (16 - 32 % 16) = 17 ∧
      (∀ i ∈ List.range 16, ∃ x ∈ (s 33).log.pages, x.page = (31 + (17 + i)) / 16) ∧ (31 + 33) % 16 = 0 ∧
      ¬ (∃ x ∈ (s 40).log.pages, x.page = (31 + 33) / 16) := by decide +kernel

theorem witness_LogReadAnswersItsSlots_refused :
    (withStore .formatting opened).accepts ∧ (withStore .formatting opened).calm ∧
    (withStore .formatting opened).store.header = some header ∧ 60 < (61#8).toNat ∧ (0#8).toNat < 1 ∧
    header.log.len * 4096 ≤ 65536 ∧ (withStore .formatting opened).store.state = .formatting := by decide +kernel

theorem witness_LogReadAnswersItsSlots_noHeader :
    State.reset.accepts ∧ State.reset.calm ∧ State.reset.store.header = none ∧ 1 ≤ (60#8).toNat ∧ (60#8).toNat ≤ 60 ∧
    State.reset.store.state = .unmounted := by decide +kernel

theorem witness_StoreRecoverRetriesTheFailedWork :
    (faulted (.logPage false)).accepts ∧ (faulted (.logPage false)).calm ∧ (faulted (.logPage false)).store.state = .fault ∧
    (faulted (.logPage false)).store.failed = some (.logPage false) ∧ canShift (faulted (.logPage false)) = true := by decide +kernel

theorem witness_StoreRecoverRetriesTheFailedWork_record :
    let s := faulted (.dictRecord dictProg)
    s.accepts ∧ s.calm ∧ s.store.state = .fault ∧ s.store.failed = some (.dictRecord dictProg) ∧
      canMove s dictProg = true := by decide +kernel

-- R68: the last page of the log region, and a record in the last page of its region.
theorem witness_StoreRecoverRetriesTheFailedWork_noPage :
    let s := { faulted (.logPage false) with log := { LogWriter.reset with pages := [page .waiting 4095] } }
    let p := { dictProg with offset := 4 * 65536 - 256 }
    let u := faulted (.dictRecord p)
    (∀ x ∈ [s, u], x.accepts ∧ x.calm ∧ x.store.state = .fault ∧ x.host.notices.length < 28) ∧
      s.store.failed = some (.logPage false) ∧ canShift s = false ∧ u.store.failed = some (.dictRecord p) ∧
      canMove u p = false := by decide +kernel

theorem witness_StoreRecoverRetriesTheFailedWork_end :
    let p := { dictProg with relocated := true }
    let retry := fun (op : FlashOp) (w : Work) (f : FailedWork) (step : JobStep) => { logging false with
      store := { (logging false).store with
        inProgress := some (running op w false), recovering := some f, recoverTag := some 5, logRelocated := true
        suspendAt := none, job := some { kind := .region .pa, step := step } } }
    let log := retry (.program 65536 [1, 2, 3]) .logPage (.logPage false) (.erase 21)
    let record := retry (.program (21 * 65536 + 16) [1, 2, 3]) (.dictRecord p) (.dictRecord p) (.erase 21)
    let job := retry (.erase 21) .job .job (.erase 21)
    let again := retry (.erase 21) .job .job (.againReady .pa)
    (∀ s ∈ [log, record, job, again], s.calm ∧ s.store.recoverTag = some 5 ∧ s.host.notices.length < 24) ∧
      log.store.inProgress = some { op := .program 65536 [1, 2, 3], work := .logPage, ran := 100, timedOut := false } ∧
      log.store.recovering = some (.logPage false) ∧ log.store.logRelocated = true ∧
      record.store.recovering = some (.dictRecord p) ∧ p.relocated = true ∧ job.store.recovering = some .job ∧
      job.store.job.map Job.step = some (.erase 21) ∧ again.store.job.map Job.step = some (.againReady .pa) := by
  decide +kernel

theorem witness_StoreRecoverRetriesTheFailedWork_idle :
    linked.accepts ∧ linked.calm ∧ linked.store.state ≠ .fault := by decide +kernel

theorem witness_FormatStoreTakesTheMemory :
    linked.accepts ∧ linked.calm ∧ linked.script.session = .closed ∧ linked.store.state = .ready ∧
    (256 ≤ 256 ∧ 16 ≤ 16 ∧ 1 + 16 + 4 + 4 + 231 ≤ 256) := by decide +kernel

theorem witness_FormatStoreTakesTheMemory_refused :
    inSession.accepts ∧ inSession.calm ∧ inSession.script.session ≠ .closed ∧
    (withStore .formatting linked).script.session = .closed ∧ ¬ 1 + 16 + 4 + 4 + 232 ≤ 256 := by decide +kernel

theorem witness_EraseRegionClearsTheDictionary :
    linked.accepts ∧ linked.calm ∧ dictOfCode (2#8).toNat = some .pa ∧ linked.store.header = some header ∧
    linked.store.state = .ready ∧ linked.store.job = none ∧ linked.script.session = .closed := by decide +kernel

theorem witness_EraseRegionClearsTheDictionary_refused :
    inSession.accepts ∧ inSession.calm ∧ dictOfCode (1#8).toNat = some .j ∧ dictOfCode (2#8).toNat = some (personal .a) ∧
    inSession.store.header = some header ∧ inSession.store.job = none ∧ inSession.script.session ≠ .closed ∧
    (inSession.posRec .a).state ≠ .off ∧ erasing.store.job ≠ none := by decide +kernel

theorem witness_EraseRegionClearsTheDictionary_noHeader :
    let s := withStore .unformatted State.reset
    State.reset.accepts ∧ State.reset.calm ∧ State.reset.store.header = none ∧ State.reset.store.state = .unmounted ∧
      s.accepts ∧ s.calm ∧ s.store.header = none ∧ s.store.state = .unformatted := by decide +kernel

theorem witness_EntryLookupScansThenWalks :
    staged.accepts ∧ staged.calm ∧ dictOfCode (1#8).toNat = some .j ∧ (∀ k ∈ [5], 1 ≤ k ∧ k ≤ 8388607) ∧
    staged.dict.lookupTag = none ∧ (staged.store.region .j).state = .ready ∧
    (staged.dict.get .j).headOf (bucketOf [5]) = some 16 ∧ (staged.dict.get .pa).headOf (bucketOf [5]) = none ∧
    staged.host.notices.length < 32 := by decide +kernel

theorem witness_EntryLookupScansThenWalks_refused :
    staged.accepts ∧ staged.calm ∧ (∀ k ∈ [8388608], k < 16777216) ∧ 8388607 < 8388608 ∧
    8 < (List.replicate 9 8388607).length ∧ (deaf staged).store.state = .ready ∧
    ((deaf staged).store.region .j).state ≠ .ready := by decide +kernel

theorem witness_EntryLookupScansThenWalks_walk :
    let s := walking .request recordCells linked
    let at_ := 17 * 65536 + 256
    s.calm ∧ s.store.reading = some (.lookup .request) ∧
      s.dict.lookups.find? (fun x => decide (x.client = .request)) = some (lookup .request) ∧
      s.store.header = some header ∧ (readByte s.flash.cells at_).toNat = 1 ∧ (readByte s.flash.cells (at_ + 1)).toNat = 1 ∧
      sum8 (readBytes s.flash.cells at_ 12) = 0 ∧ be4At (readBytes s.flash.cells at_ 12) 4 = 4294967295 ∧
      sum8 (readBytes s.flash.cells (at_ + 1) 12) ≠ 0 ∧ s.host.notices.length < 32 := by decide +kernel

-- A record whose LINK is 256, walked from an offset above it, and one whose LINK lies before the second page.
theorem witness_EntryLookupScansThenWalks_link :
    let cells := fun link => cellsOf (17 * 65536 + 512) (dictRecord 3 [5] [] link)
    (∀ link ∈ [256, 255, 512], sum8 (readBytes (cells link) (17 * 65536 + 512) 11) = 0 ∧
      be4At (readBytes (cells link) (17 * 65536 + 512) 11) 4 = link) ∧
    256 < 512 ∧ 512 ≤ 512 ∧ 255 < 256 := by decide +kernel

theorem witness_EntryAddAndDeleteAreStaged :
    linked.accepts ∧ linked.calm ∧ dictOfCode (2#8).toNat = some .pa ∧ linked.store.state = .ready ∧
    linked.store.region .pa = { state := .ready, append := some 16 } ∧ (linked.dict.get .pa).stalled = false ∧
    linked.dict.staging.length < 32 ∧ (linked.dict.get .pa).countOf (bucketOf [5]) = 0 ∧
    linked.dict.reservedBytes .pa + (2 * (8 + 3 + 1) - 1) ≤ linked.regionEnd .pa - 16 := by decide +kernel

theorem witness_EntryAddAndDeleteAreStaged_refused :
    linked.accepts ∧ linked.calm ∧ dictOfCode (2#8).toNat = some .pa ∧ (1#8).getLsbD 0 = true ∧
    8 < (List.replicate 9 8388607).length ∧ (∀ k ∈ List.replicate 9 8388607, 1 ≤ k ∧ k ≤ 8388607) ∧
    (∀ k ∈ [8388608], k < 16777216) ∧ 48 < (List.replicate 49 0x61#8).length ∧ (deaf linked).store.state = .ready ∧
    ((deaf linked).store.region .pa).state ≠ .ready ∧ State.reset.store.state = .unmounted := by decide +kernel

theorem witness_EntryAddAndDeleteAreStaged_global :
    let s := { linked with trans := { linked.trans with untranslates := [(1, 5), (2, 5), (3, 6)] }, script := { linked.script with
      lock := some { first := 2, last := 2, since := 0 }, units := [unit 1 .firm, unit 2 .firm, unit 3 .firm] } }
    s.accepts ∧ s.calm ∧ dictOfCode (1#8).toNat = some .j ∧ (1#8).getLsbD 0 = true ∧
      (s.trans.untranslates.map Prod.fst).Nodup ∧ s.script.inLock 2 = true ∧ s.script.inLock 1 = false ∧
      s.store.region .j = { state := .ready, append := some 16 } ∧ s.dict.staging.length < 32 := by decide +kernel

theorem witness_StrokeTakeTakesTheFrontStroke_inFlight :
    let s := { queuedKeys [8, 4] inSession with dict :=
      { inSession.dict with j := ⟨[⟨bucketOf [8], 16, 1⟩], false⟩ } }
    s.calm ∧ s.script.session = .opened ∧ s.trans.inFlight = none ∧ s.floor.live = some (stroke .a 8).pos ∧
      (s.posRec .a).queue = stroke .a 8 :: [stroke .a 4] ∧ (stroke .a 8).keys ≠ undoValue ∧
      (s.store.region .j).state = .ready ∧ s.dict.j.headOf (bucketOf [(stroke .a 8).keys.toNat]) ≠ none := by decide +kernel

theorem witness_StrokeTakeTakesTheFrontStroke_atOnce :
    let s := deaf (queuedKeys [0x203] inSession)
    s.calm ∧ s.script.session = .opened ∧ s.trans.inFlight = none ∧ s.floor.live = some .a ∧
      (s.posRec .a).queue = stroke .a 0x203 :: [] ∧ (stroke .a 0x203).keys ≠ undoValue ∧ s.trans.hold = [] ∧
      s.trans.notes = [] ∧ (s.store.region .j).state ≠ .ready ∧ (s.store.region (personal .a)).state ≠ .ready ∧
      (∀ u ∈ s.script.units, u.state ≠ .provisional) ∧ (∀ l ∈ s.dict.lookups, l.isRun = false) := by decide +kernel

theorem witness_StrokeTakeTakesTheFrontStroke_undo :
    let s := { queuedKeys [undoValue] inSession with script := { inSession.script with
      units := [unit 1 .firm, unit 2 .committed], nextNumber := 3 } }
    s.calm ∧ s.floor.live = some .a ∧ (s.posRec .a).queue = stroke .a undoValue :: [] ∧ s.trans.hold = [] ∧
      s.trans.notes = [] ∧ s.script.units.getLast? = some (unit 2 .committed) ∧ (unit 2 .committed).pos = some .a ∧
      s.script.inLock 2 = false := by decide +kernel

theorem witness_StrokeTakeTakesTheFrontStroke_blocked :
    let s := queuedKeys [undoValue] inSession
    s.calm ∧ (s.posRec .a).queue = stroke .a undoValue :: [] ∧ s.trans.hold = [] ∧ s.script.units = [] ∧
      s.host.notices.length < 32 := by decide +kernel

-- R120: the newest unit FIRM, of the other position, without one, and in the lock.
theorem witness_StrokeTakeTakesTheFrontStroke_reasons :
    let above := fun (u : TUnit) (l : Option EditLock) => { queuedKeys [undoValue] inSession with
      script := { inSession.script with units := [u], nextNumber := 2, lock := l } }
    let firm := above (unit 1 .firm) none
    let other := above { unit 1 .committed with pos := some .b } none
    let note := above { unit 1 .committed with pos := none } none
    let held := above (unit 1 .committed) (some { first := 1, last := 1, since := 0 })
    (∀ s ∈ [firm, other, note, held],
      s.calm ∧ s.script.session = .opened ∧ s.trans.inFlight = none ∧ s.floor.live = some .a ∧
        (s.posRec .a).queue = stroke .a undoValue :: [] ∧ s.trans.hold = [] ∧ s.trans.notes = [] ∧
        s.host.notices.length < 32) ∧
      firm.script.units.getLast? = some (unit 1 .firm) ∧ (unit 1 .committed).pos = some .a ∧
      held.script.units.getLast? = some (unit 1 .committed) ∧ held.script.inLock 1 = true := by decide +kernel

-- R119: with two strokes held, the first of which has a record in J, and with one.
theorem witness_StrokeTakeTakesTheFrontStroke_held :
    let s := fun hold : List StrokeRec => { queuedKeys [undoValue] holding with
      trans := { holding.trans with hold := hold }
      dict := { holding.dict with j := ⟨[⟨bucketOf [3], 16, 1⟩], false⟩ } }
    (∀ hold ∈ [[stroke .a 3, stroke .a 4], [stroke .a 3]],
      (s hold).calm ∧ (s hold).script.session = .opened ∧ (s hold).trans.inFlight = none ∧
        (s hold).floor.live = some .a ∧ ((s hold).posRec .a).queue = stroke .a undoValue :: [] ∧
        (s hold).trans.hold = hold ∧ hold ≠ [] ∧ ((s hold).store.region .j).state = .ready ∧
        (s hold).trans.notes = [] ∧ (∀ l ∈ (s hold).dict.lookups, l.isRun = false)) ∧
      [stroke .a 3, stroke .a 4].dropLast = [stroke .a 3] ∧
      (s []).dict.j.headOf (bucketOf [(stroke .a 3).keys.toNat]) ≠ none ∧
      holding.script.units = [unit 1 .firm, unit 2 .committed] ++ [unit 3 .provisional, unit 4 .provisional] ∧
      holding.script.units.Pairwise (fun a b => a.number < b.number) := by decide +kernel

theorem witness_FinishedStrokesBecomeUnits :
    let s := finishing
    let at_ := 17 * 65536 + 256
    (s.calm ∧ s.script.session = .opened ∧ s.store.reading = some (.lookup (.run 0 0 .j)) ∧
      s.dict.lookups = [lookup (.run 0 0 .j)] ∧ s.store.header = some header ∧ s.trans.inFlight.isSome = true ∧
      s.trans.expiryPending = false ∧ s.trans.resolvePending = false ∧ s.trans.notes = [] ∧ s.floor.state ≠ .passing) ∧
    (s.script.units = [unit 1 .committed] ++ [unit 2 .provisional] ∧ (unit 2 .provisional).state = .provisional ∧
      s.script.units.Pairwise (fun x y => x.number < y.number) ∧
      (∀ u ∈ s.script.units, u.number < s.script.nextNumber)) ∧
    ((readByte s.flash.cells at_).toNat = 1 ∧ (readByte s.flash.cells (at_ + 1)).toNat = 1 ∧
      (readByte s.flash.cells (at_ + 2)).toNat = 1 ∧ 256 + 12 ≤ header.j.len * 65536 ∧
      sum8 (readBytes s.flash.cells at_ 12) = 0 ∧ be4At (readBytes s.flash.cells at_ 12) 4 = 4294967295) := by decide +kernel

theorem witness_FinishedStrokesBecomeUnits_run :
    let rs : List RunResult := [{ first := 0, last := 0, dict := .j, text := none, longer := true },
      { first := 0, last := 1, dict := .pa, text := some [0x61], longer := false }]
    longestRun rs .a 0 8 = some (2, [0x61], .pa) ∧ longestRun rs .a 1 8 = none ∧ 0x1B#8 ∉ [0x61#8] := by decide +kernel

-- R111 to R113: an escape at the end, an unknown code, a SPEAKER without and with a wrong argument, a CLASS outside 0 to 3;
-- a text unit between a leading and a trailing command; a speaker label without a label.
theorem witness_FinishedStrokesBecomeUnits_commands :
    pieces [0x1B, 0x00, 0x61, 0x1B, 0x53, 0, 0x1B, 0x53, 33, 0x1B, 0x4B, 4, 0x1B, 0x4B, 3, 0x1B] =
      [.bad, .lit 0x61, .bad, .bad, .bad, .cmd (.cls .offRecord), .bad] ∧
    pieces [0x1B, 0x53] = [.bad] ∧ pieces [0x1B, 0x43, 0x61, 0x1B, 0x3E] = [.cmd .capNext, .lit 0x61, .cmd .attachRight] ∧
    formUnit true [] .reset { start := 0, strokes := [stroke .a 4], entry := .word [0x1B, 0x43, 0x61, 0x1B, 0x3E] .j } =
      { kind := .word, text := [0x41], join := false, paragraphStart := false, cls := .record, speaker := 0
        source := .j, after := { Fmt.reset with attachNext := true } } ∧
    (formUnit true [] .reset { start := 0, strokes := [stroke .a 4], entry := .word [0x1B, 0x53, 12, 0x61] .j }).text =
      [0x28, 0x53, 0x70, 0x65, 0x61, 0x6B, 0x65, 0x72, 0x20, 0x31, 0x32, 0x29] ∧
    (formUnit true [] .reset { start := 0, strokes := [stroke .a 4], entry := .word [0x1B, 0x50] .pa }).kind = .command := by
  decide +kernel

theorem witness_HoldExpiryCommitsTheHoldList :
    holding.calm ∧ holding.trans.timer = some 7 ∧ holding.settings.holdTime ≠ 0 ∧ holding.trans.inFlight = none ∧
    holding.trans.hold ≠ [] ∧ holding.script.units.Pairwise (fun x y => x.number < y.number) ∧
    holding.script.units.length + holding.trans.notes.length ≤ 2048 ∧ holding.trans.notes = [] ∧
    holding.script.session = .opened ∧ holding.floor.state ≠ .passing := by decide +kernel

-- R117: no timer, a hold-time of 0, nothing held; R28: a pass whose LIVE position has a stroke queued, and none.
theorem witness_HoldExpiryCommitsTheHoldList_others :
    let still := { holding with settings := { holding.settings with holdTime := 0 } }
    let empty := { inSession with trans := { inSession.trans with timer := some 7 } }
    let more := { queued with trans := holding.trans, script := holding.script }
    let last := queuedKeys [] more
    (∀ s ∈ [inSession, still, empty, more, last], s.calm) ∧ inSession.trans.timer = none ∧ still.settings.holdTime = 0 ∧
      empty.trans.hold = [] ∧ empty.trans.inFlight = none ∧ empty.settings.holdTime ≠ 0 ∧
      (∀ s ∈ [more, last], s.trans.timer = some 7 ∧ s.trans.hold ≠ [] ∧ s.trans.inFlight = none ∧
        s.script.session = .opened ∧ s.floor.state = .passing ∧ (s.posRec .a).state = .live ∧
        (s.posRec (otherPos .a)).state = .requesting) ∧
      (more.posRec .a).queue ≠ [] ∧ (last.posRec .a).queue = [] := by decide +kernel

theorem witness_HoldExpiryCommitsTheHoldList_inFlight :
    flying.calm ∧ flying.trans.timer = some 7 ∧ flying.settings.holdTime ≠ 0 ∧ flying.trans.inFlight ≠ none := by decide +kernel

theorem witness_InsertNoteMakesANote :
    inSession.accepts ∧ inSession.calm ∧ clsOfCode (3#8).toNat = some .offRecord ∧ (List.replicate 48 0x61#8).length ≤ 48 ∧
    inSession.script.session = .opened ∧ inSession.trans.inFlight = none ∧ inSession.trans.hold = [] ∧
    inSession.trans.notes = [] := by decide +kernel

theorem witness_InsertNoteMakesANote_queued :
    holding.accepts ∧ holding.calm ∧ holding.script.session = .opened ∧ holding.trans.notes.length < 4 ∧
    holding.trans.hold ≠ [] ∧ 3 < (4#8).toNat ∧ 48 < (List.replicate 49 0x61#8).length ∧
    linked.script.session ≠ .opened := by decide +kernel

theorem witness_InsertNoteMakesANote_logged :
    opened.log.openPage = some (page .opened 0) ∧ opened.store.state = .ready ∧ inSession.log.openPage = none ∧
    inSession.store.log.append = some 0 ∧ inSession.log.pages.length < 8 ∧ 4095 < header.log.len * 256 ∧
    header.log.len * 256 ≤ 4096 ∧ (withStore .formatting opened).store.state ≠ .ready ∧
    (withStore .formatting opened).store.state ≠ .fault := by decide +kernel

theorem witness_FirmTimeMakesUnitsFirm :
    let c := { unit 2 .committed with commitTime := some 1000 }
    let s := { holding with script := { holding.script with units := [unit 1 .firm, c, unit 3 .provisional] } }
    let u := s.runTo 1000 (s.settings.firmTime * 1000000)
    let due := fun x : TUnit => decide (x.state = .committed) && (match x.commitTime with
      | none => false
      | some z => decide (s.settings.firmTime * 1000000 ≤ (u.time.now - z).toNat))
    s.script.units.find? (fun x => decide (x.state = .committed)) = some c ∧ c.commitTime = some 1000 ∧
      List.Pairwise (fun x y : TUnit => x.number < y.number) s.script.units ∧
      List.Pairwise (fun x y : TUnit => x.state = .committed → due y = true → due x = true) s.script.units := by decide +kernel

theorem witness_OpenSessionStartsAfresh :
    linked.accepts ∧ linked.calm ∧ 65535 < 65536 ∧ posOfCode (1#8).toNat = some .b ∧ linked.script.session = .closed ∧
    linked.store.state = .ready := by decide +kernel

theorem witness_OpenSessionStartsAfresh_refused :
    inSession.accepts ∧ inSession.calm ∧ 1 < (2#8).toNat ∧ inSession.script.session ≠ .closed ∧
    (withStore .fault linked).script.session = .closed ∧ (withStore .fault linked).store.state = .fault := by decide +kernel

theorem witness_CloseSessionResolvesAndFlushes :
    holding.accepts ∧ holding.calm ∧ holding.script.session = .opened ∧ holding.trans.inFlight = none ∧
    holding.script.units.Pairwise (fun x y => x.number < y.number) ∧
    holding.script.units.length + holding.trans.notes.length ≤ 2048 ∧ holding.trans.hold ≠ [] ∧ holding.trans.notes = [] ∧
    locked.trans.hold = [] ∧ (∀ x ∈ locked.script.units, x.state ≠ .provisional) := by decide +kernel

-- R74, R75: a page with room for both records, for one, a page to open, and none; and a session that is CLOSED at once.
theorem witness_CloseSessionResolvesAndFlushes_records :
    let full := { inSession with log := { opened.log with pages :=
      [{ page .opened 0 with records := List.replicate 15 (List.replicate 16 7) }] } }
    let ended := { full with store := { full.store with log := readyAt 4096 } }
    let none_ := { inSession with store := ended.store }
    (∀ s ∈ [opened, full, ended, inSession, none_],
      s.accepts ∧ s.calm ∧ s.script.session = .opened ∧ s.trans.inFlight = none ∧ s.trans.notes = [] ∧
        s.store.header = some header ∧ s.store.state = .ready ∧ s.log.pages.length < 8 ∧ s.host.notices.length < 12) ∧
      opened.log.openPage = some (page .opened 0) ∧ (page .opened 0).records.length ≤ 14 ∧
      (∀ s ∈ [full, ended], s.log.openPage.map (fun q => q.records.length) = some 15) ∧
      full.store.log.append = some 0 ∧ 0 < header.log.len * 256 ∧ inSession.log.openPage = none ∧
      inSession.store.log.append = some 0 ∧ none_.log.openPage = none ∧
      (∀ a, none_.store.log.append = some a → ¬ a < header.log.len * 256) ∧
      (nx (exec (.closeSession 1 []) none_)).script.session = .closed ∧
      (withStore .formatting opened).store.state ≠ .ready ∧ (withStore .formatting opened).store.state ≠ .fault := by
  decide +kernel

-- R70, R137: the end of the program of the last page of a close, and of one of two; a failure with a page left to move to,
-- and one with none.
theorem witness_CloseSessionResolvesAndFlushes_flush :
    let one := { flushing none with
      host := linked.host
      script := { inSession.script with session := .closing, closeTag := some 7 }
      log := { LogWriter.reset with pages := [page .programming 0], flush := .close } }
    let two := { one with log := { one.log with pages := [page .programming 0, page .waiting 1] } }
    let again := { one with store := { one.store with logRelocated := true } }
    (∀ s ∈ [one, two, again],
      s.host.phase = .normal ∧ s.script.session = .closing ∧ s.log.flush = .close ∧ s.script.closeTag = some 7 ∧
        s.store.state = .ready ∧ s.store.header = some header ∧ s.log.pages = page .programming 0 :: s.log.pages.tail ∧
        s.store.inProgress = some { op := .program 65536 [1, 2, 3], work := .logPage, ran := 100, timedOut := false } ∧
        s.host.notices.length < 24) ∧
      one.log.pages.tail = [] ∧ two.log.pages.tail ≠ [] ∧ one.store.logRelocated = false ∧
      (page .programming 0).page + 1 < header.log.len * 256 ∧ again.store.logRelocated ≠ false := by decide +kernel

theorem witness_CloseSessionResolvesAndFlushes_inFlight :
    flying.accepts ∧ flying.calm ∧ flying.script.session = .opened ∧ flying.trans.inFlight ≠ none := by decide +kernel

theorem witness_CloseSessionResolvesAndFlushes_refused :
    linked.accepts ∧ linked.calm ∧ linked.script.session = .closed ∧
    ({ linked.script with session := .closing } : Transcript).session = .closing := by decide +kernel

theorem witness_SettlingMovesTheCursor :
    let v := showing.view .f1
    let f := showing.feeds.feeds.get .f1
    v.units.Pairwise (fun x y => x.number < y.number) ∧ f.shown.Pairwise (fun x y => x.number < y.number) ∧
      f.state = .active ∧ f.gapOwed = none ∧ f.shown = [{ number := 1, kind := .final, cls := .record }] ∧
      v.accepts .record = true ∧ v.accepts .sealed = false ∧ v.eligible (unit 2 .firm) = true ∧
      (settle v f).gapOwed = some (.sealed, 2) ∧ (settle v { f with shown := [] }).cursor = 2 ∧
      (feeding.feeds.feeds.get .f4).state = .off := by decide +kernel

theorem witness_FeedsOweFramesInOrder :
    let v := showing.view .f2
    let f := showing.feeds.feeds.get .f2
    f.truthful v ∧ f.state = .active ∧ f.clearOwed = false ∧ f.beginOwed = false ∧ f.changes = [.replace 1] ∧
      v.units.find? (fun x => decide (x.number = 1)) = some (unit 1 .firm) ∧ f.gapOwed = none ∧
      v.units.find? (fun u => decide (f.cursor < u.number)) = some { unit 2 .firm with cls := .sealed } ∧
      v.cfg.tier = .settled ∧ (showing.view .f1).cfg.tier = .delayed ∧ (showing.feeds.feeds.get .f1).truthful (showing.view .f1) ∧
      (feeding.feeds.feeds.get .f3).state = .stalled := by decide +kernel

theorem witness_FeedsOweFramesInOrder_repaint :
    let f := { showing.feeds.feeds.get .f2 with state := .repaint, repaintTail := some 3, beginOwed := true }
    f.clearOwed = false ∧ f.repaintTail = some 3 ∧
      ({ f with cursor := 3 } : Feed).state = .repaint ∧
      (showing.view .f2).units.find? (fun u => decide (3 < u.number)) = none := by decide +kernel

theorem witness_ReportsReachTheFeeds :
    let v := showing.view .f3
    let f := showing.feeds.feeds.get .f3
    v.cfg.tier = .live ∧ f.state = .active ∧ f.cursor = 3 ∧ (showing.feeds.feeds.get .f4).state = .off ∧
      (feeding.feeds.feeds.get .f3).state = .stalled ∧
      f.shown = [{ number := 1, kind := .final, cls := .record }, { number := 3, kind := .provisional, cls := .record }] ∧
      (∃ e ∈ f.shown, e.number ≤ 3 ∧ e.kind = .provisional) ∧ (∃ e ∈ f.shown, 2 ≤ e.number) ∧
      ¬ (∃ e ∈ f.shown, 4 ≤ e.number) ∧ (∃ e ∈ f.shown, e.number = 1 ∧ e.kind = .final) ∧ .replace 1 ∉ f.changes ∧
      .replace 1 ∈ (showing.feeds.feeds.get .f2).changes ∧ v.units.find? (fun x => decide (x.number = 1)) = some (unit 1 .firm) ∧
      v.accepts (unit 1 .firm).cls = true ∧ v.accepts .sealed = false ∧ ¬ f.cursor < 2 ∧ f.cursor < 4 := by decide +kernel

theorem witness_TimedReleasesSettleTheFeeds :
    releaseUnit (feeding.view .f1) (feeding.feeds.feeds.get .f1) = some (unit 1 .firm) ∧ (unit 1 .firm).commitTime = some 0 ∧
    (feeding.settings.feed.get .f1).delay ≤ 120 ∧ feeding.feeds.agedTo < (unit 1 .firm).number ∧
    releaseUnit (showing.view .f1) { showing.feeds.feeds.get .f1 with cursor := 0 } = none := by decide +kernel

theorem witness_TimedReleasesSettleTheFeeds_aged :
    (feeding.script.units.filter (fun u : TUnit => decide (feeding.feeds.agedTo < u.number))).findSome?
    TUnit.commitTime = some 0 := by decide +kernel

theorem witness_FeedRepaintBeginsARepaint :
    feeding.accepts ∧ 4 < (5#8).toNat ∧ feedOfNum (4#8).toNat = some .f4 ∧ (feeding.feeds.feeds.get .f4).state = .off ∧
    (feeding.feeds.feeds.get .f3).state = .stalled ∧ (feeding.feeds.feeds.get .f0).state = .active := by decide +kernel

theorem witness_FeedRepaintBeginsARepaint_depth :
    let shows := fun (v : FeedView) (u : TUnit) => v.eligible u && v.showable u
    let v := { feeding.view .f3 with cfg := { (feeding.view .f3).cfg with depth := 2 } }
    let hidden := { v with cfg := { v.cfg with mask := 0 } }
    let waiting := { feeding.view .f2 with units := [unit 3 .provisional] }
    v.units.Pairwise (fun x y => x.number < y.number) ∧ 1 ≤ v.cfg.depth ∧
      (unit 2 .committed ∈ v.units ∧ shows v (unit 2 .committed) = true ∧
        v.units.countP (fun x => shows v x && decide (2 ≤ x.number)) = v.cfg.depth) ∧
      hidden.units.countP (shows hidden) < hidden.cfg.depth ∧
      (unit 3 .provisional ∈ v.units ∧ v.eligible (unit 3 .provisional) = true ∧
        ∀ x ∈ v.units, ¬ 3 < x.number) ∧
      (∀ u ∈ waiting.units, waiting.eligible u = false) := by decide +kernel

theorem witness_GrantsHandOnOwedFrames :
    feeding.host.phase = .normal ∧ feeding.fmt.high = [] ++ .feed .f0 :: [.feed .f1, .low] ∧
    nextGrant feeding = some (.f0, .feed .f0) ∧
    (owedFrame (feeding.view .f0) (feeding.feeds.feeds.get .f0)).isSome = true ∧ requests feeding .f0 = true ∧
    nextGrant linked = none ∧ (feeding.ports.get .p1).sending = some ⟨5, .clear, true⟩ := by decide +kernel

-- R173: the LOW member is the first of the HIGH list that requests; and no member requests.
theorem witness_GrantsHandOnOwedFrames_low :
    let s := { feeding with fmt := { feeding.fmt with high := [.low, .feed .f0, .feed .f1], low := [.f4, .f2, .f3] } }
    s.fmt.high = [] ++ .low :: [.feed .f0, .feed .f1] ∧ s.fmt.low = [.f4] ++ .f2 :: [.f3] ∧
      requests s .f4 = false ∧ requests s .f2 = true ∧ .feed .f0 ∈ linked.fmt.high ∧ .low ∈ linked.fmt.high ∧
      (∀ i ∈ [FeedId.f0, .f1, .f2, .f3, .f4], requests linked i = false) := by decide +kernel

-- R172: a full WINDOW, a STALLED port, and a TEXT place in use keep a feed that owes a frame from requesting.
theorem witness_GrantsHandOnOwedFrames_requests :
    let owes := fun (s : State) (i : FeedId) => (owedFrame (s.view i) (s.feeds.feeds.get i)).isSome
    let full := { feeding with
      ports := { feeding.ports with p2 := { Port.reset with
        state := .running, window := List.replicate 4 ⟨3, .clear, none⟩ } }
      host := { feeding.host with textPlace := some .clear } }
    feeding.host.phase = .normal ∧ owes feeding .f2 = true ∧ requests feeding .f2 = true ∧
      memberRequests feeding .low = true ∧ owes full .f2 = true ∧ requests full .f2 = false ∧ owes full .f0 = true ∧
      requests full .f0 = false ∧ requests { full with host := feeding.host } .f0 = true := by decide +kernel

theorem witness_RepliesMoveThePort :
    feeding.host.phase = .normal ∧ (feeding.ports.get .p4).state = .off ∧ (feeding.ports.get .p1).state = .running ∧
    (feeding.ports.get .p1).window = [⟨3, .clear, some 10⟩] ++ ⟨4, .clear, some 20⟩ :: [⟨5, .clear, none⟩] ∧
    (∀ y ∈ ([⟨3, .clear, some 10⟩] : List WinFrame), y.seq ≠ 4) ∧
    (∀ y ∈ (feeding.ports.get .p1).window, y.seq = 5 → y.sentAt = none) := by decide +kernel

theorem witness_RepliesMoveThePort_stalled :
    feeding.host.phase = .normal ∧ (feeding.ports.get .p3).state = .stalled ∧ (feeding.ports.get .p3).probeSeq = some 7 ∧
    (feeding.ports.get .p3).probeSeq ≠ some 8 := by decide +kernel

theorem witness_RepliesMoveThePort_malformed :
    (feeding.ports.get .p4).state = .off ∧ (feeding.ports.get .p2).rx = .hunt ∧ (feeding.ports.get .p2).state ≠ .off ∧
    (feeding.ports.get .p1).state ≠ .off ∧ (feeding.ports.get .p1).rx = .collect [0xA5] 3 ∧ (3#8).toNat ≠ 1 ∧
    (3#8).toNat ≠ 2 := by decide +kernel

theorem witness_OverdueFramesStallThePort :
    feeding.host.phase = .normal ∧ (feeding.ports.get .p1).state = .running ∧
    (feeding.ports.get .p1).window = ⟨3, .clear, some 10⟩ :: [⟨4, .clear, some 20⟩, ⟨5, .clear, none⟩] ∧
    (feeding.ports.get .p3).probeFrom = some 100 := by decide +kernel

theorem witness_BadHostFramesAreDiscarded :
    inSession.host.rx = .hunt ∧ (0#8).toNat * 256 + (1#8).toNat < 2 ∧ 1026 < (4#8).toNat * 256 + (3#8).toNat ∧
    receiving.host.rx = .frame [0xC3, 0, 2, 1, 1, 0x12] 7 ∧ frameLength [0xC3, 0, 2, 1, 1, 0x12, 0x34] = 2 ∧
    framePasses [0xC3, 0, 2, 1, 1, 0x12, 0x34] = false := by decide +kernel

theorem witness_SentHostFramesAreCounted :
    (sendingFrame none).calm ∧ (sendingFrame none).host.sending = none ∧
    (sendingFrame (some (.reply (reply (.rate 9600))))).calm ∧ (reply (.rate 9600)).after ≠ .restart ∧
    (sendingFrame (some (.text .clear))).calm ∧
    inSession.host.sending = some (.notice (.condition (.keyLinkDown .a) true true true 0)) := by decide +kernel

theorem witness_SetPutsTheValueInForce :
    inSession.accepts ∧ inSession.calm ∧ settingOf (200#8).toNat (0#8).toNat = none ∧
    settingOf (13#8).toNat (0#8).toNat = none ∧ settingOf (12#8).toNat (5#8).toNat = none ∧
    Setting.hostRate.accept 1 = none ∧ Setting.holdTime.value inSession.settings = 1500 := by decide +kernel

-- R191: the values of each setting at and beyond the limits of its range, and the allowed and refused ones of each list.
theorem witness_SetPutsTheValueInForce_limits :
    (∀ x ∈ [(2, 0, 1, 16), (3, 0, 2, 60), (4, 0, 500, 4000), (5, 0, 500, 10000), (7, 0, 5, 300), (8, 0, 500, 10000),
        (15, 1, 1, 120), (16, 4, 8, 256), (17, 1, 50, 2000), (1, 0, 300, 5000)],
      [x.2.2.1 - 1, x.2.2.1, x.2.2.2, x.2.2.2 + 1].map (fun v => (settingOf x.1 x.2.1).bind (fun y => y.accept v)) =
        [some (if x.2.2.1 = 1 then 1 else x.2.2.1), some x.2.2.1, some x.2.2.2, some x.2.2.2]) ∧
    (∀ x ∈ [(6, 1, 8388607, 8388608), (9, 0, 1, 2), (10, 0, 1, 2), (11, 0, 921600, 921601), (12, 4, 1, 2), (13, 4, 2, 3),
        (14, 1, 15, 16), (18, 1, 9600, 9601), (19, 0, 1, 2)],
      (settingOf x.1 x.2.1).bind (fun y => y.accept x.2.2.1) = some x.2.2.1 ∧
      (settingOf x.1 x.2.1).map (fun y => y.accept x.2.2.2) = some none) ∧
    Setting.holdTime.accept 0 = some 0 := by decide +kernel

theorem witness_SetPutsTheValueInForce_feeds :
    feeding.accepts ∧ feeding.calm ∧ feedOfNum (4#8).toNat = some .f4 ∧ (feeding.settings.feed.get .f4).enable = false ∧
    (feeding.settings.feed.get .f1).enable = true ∧ portOfNum (1#8).toNat = some .p1 ∧
    (feeding.settings.feed.get .f1).tier = .delayed ∧ (feeding.settings.feed.get .f1).mask ≠ 15 ∧
    (feeding.settings.feed.get .f2).high = false ∧ (feeding.settings.feed.get .f1).high = true := by decide +kernel

-- R191, last paragraph: what is running has reached the new value, and has not.
theorem witness_SetPutsTheValueInForce_running :
    let later := fun s : State => { s with time := { s.time with now := 9000000 } }
    let s := later { holding with
      trans := { holding.trans with timer := some 900000 }
      formers := ⟨{ Former.reset with openStroke := some (openStroke 4 true) }, Former.reset⟩
      floor := { holding.floor with waitFrom := some 1000 }
      settings := { holding.settings with strokeEcho := true } }
    let both := closing .b s
    let limits := fun z : LocalTime => (s.time.now - z).toNat
    (∀ u ∈ [s, both, later locked, opened, feeding], u.accepts ∧ u.calm) ∧
      (Setting.holdTime.accept 800 = some 800 ∧ s.trans.timer = some 900000 ∧ 800 * 1000 ≤ 900000 ∧
        900000 < 901 * 1000) ∧
      (s.script.units.Pairwise (fun y z : TUnit => y.number < z.number) ∧
        s.script.units.Pairwise (fun y z : TUnit => y.state = .committed → z.state ≠ .committed)) ∧
      (Setting.strokeLimit.accept 4000 = some 4000 ∧ 4000 * 1000 ≤ limits (openStroke 4 true).openTime ∧
        (s.formers.get (otherPos .a)).openStroke = none ∧ (both.formers.get .b).openStroke = some (openStroke 4 true) ∧
        both.host.notices.length < 12 ∧ (opened.time.now - (openStroke 4 true).openTime).toNat < 4000 * 1000) ∧
      (Setting.floorWait.accept 8000 = some 8000 ∧ 8000 * 1000 ≤ limits 1000 ∧ limits 1000 < 9000 * 1000) := by
  decide +kernel

theorem witness_SetPutsTheValueInForce_ports :
    (Setting.ackTimeout .p1).accept 60 = some 60 ∧ (feeding.ports.get .p1).timed = some 10 ∧
    60 * 1000 ≤ (feeding.time.now - 10).toNat ∧ (feeding.ports.get .p2).timed = none ∧
    (Setting.rate .p4).accept 19200 = some 19200 ∧ (feeding.ports.get .p4).state = .off ∧
    (feeding.ports.get .p1).state ≠ .off ∧ (Setting.delay .p1).accept 2 = some 2 ∧ (Setting.depth .p1).accept 9 = some 9 ∧
    Setting.lockTimeout.accept 5 = some 5 ∧ locked.script.lock.isSome = true ∧ inSession.script.lock = none ∧
    Setting.logAge.accept 500 = some 500 ∧ opened.log.openPage.isSome = true := by decide +kernel

theorem witness_RestartEndsInPowerOn :
    let s := restarting linked
    inSession.accepts ∧ inSession.calm ∧ s.host.phase = .restarting ∧ s.log.flush = .none ∧
      s.host.sending = some (.reply { tag := 1, result := .done [], after := .restart }) ∧
      s.script.session = .closed ∧ s.log.pages = [] ∧ s.dict.lookups = [] ∧ s.host.replies = [] ∧
      s.store.inProgress = none ∧ s.store.suspended = none := by decide +kernel

theorem witness_RestartEndsInPowerOn_session :
    let s := restarting opened
    s.host.phase = .restarting ∧ s.log.flush = .none ∧ s.script.session = .opened ∧ s.store.state = .ready ∧
      s.log.openPage = some (page .opened 0) ∧ (page .opened 0).records.length ≤ 14 := by decide +kernel

theorem witness_RestartEndsInPowerOn_flush :
    let s := flushing (some (running (.erase 21) .job false))
    let u := { erasing with
      host := { linked.host with phase := .draining }, store := { erasing.store with job := none } }
    (s.host.replies = [] ∧ s.store.waiting = [] ∧ s.store.dictWork = [] ∧ s.store.job = none ∧ s.store.recovering = none ∧
      s.host.phase = .windingDown ∧ s.log.flush = .restart ∧ s.log.pages = [page .programming 0] ∧
      s.store.reading = none ∧ (flushing none).store.suspended = none) ∧
    (u.host.replies = [] ∧ u.store.inProgress = some { op := .erase 21, work := .job, ran := 100, timedOut := false } ∧
      u.store.waiting = [] ∧ u.store.dictWork = [] ∧ u.store.job = none ∧ u.store.recovering = none ∧
      u.host.phase = .draining ∧ u.log.flush = .none ∧ u.log.pages = [] ∧ u.store.suspended = none) := by decide +kernel

end Sys2Proof.Tests
end

section
/-! The number of an outline and its bucket (R82). -/

namespace Sys2Proof.Machine

@[simp] theorem outlineHash_nil : outlineHash [] = 0 := rfl

@[simp] theorem outlineHash_append_singleton (o : List Nat) (k : Nat) :
    outlineHash (o ++ [k]) = (outlineHash o * 31 + k) % 4294967296 := by
  simp only [outlineHash, List.foldl_append, List.foldl_cons, List.foldl_nil]

theorem bucketOf_lt (o : List Nat) : bucketOf o < 4096 := Nat.mod_lt _ (by decide)

/-- The remainder by 4096 = 2 ^ 12 keeps the low twelve bits. -/
theorem testBit_bucketOf (o : List Nat) (i : Nat) :
    (bucketOf o).testBit i =
      (decide (i < 12) && ((outlineHash o).testBit i ^^ (outlineHash o / 4096).testBit i)) := by
  have low_bits := Nat.testBit_mod_two_pow (outlineHash o ^^^ outlineHash o / 4096) 12 i
  rwa [Nat.testBit_xor] at low_bits

/-- Outlines of different lengths may share a bucket: 32 = 1 * 31 + 1. -/
theorem bucketOf_shared : bucketOf [32] = bucketOf [1, 1] := by decide

theorem bucketOf_ne_of_prefix : bucketOf [1, 1] ≠ bucketOf [1] := by decide

/-- Settles O37: the number's recursion along the outline, then the bucket's bits and range, then R82's two remarks on
concrete outlines. -/
theorem bucketFollowsTheOutline : Obligations.BucketFollowsTheOutline :=
  ⟨outlineHash_nil, outlineHash_append_singleton, testBit_bucketOf, fun o => Nat.le_of_lt_succ (bucketOf_lt o),
    bucketOf_shared, bucketOf_ne_of_prefix⟩

end Sys2Proof.Machine
end

section
/-! Number strokes and the text of a NUMBER unit (R107). -/

namespace Sys2Proof.Machine

/-! ### The keys of a number stroke -/

theorem keys_and_eq_zero_iff (k m : Keys) :
    k &&& m = 0#23 ↔ ∀ i, k.getLsbD i = true → m.getLsbD i = false := by
  simp only [BitVec.zero_iff_eq_false, BitVec.getLsbD_and, Bool.and_eq_false_imp]

theorem keys_and_not_eq_zero_iff (k m : Keys) :
    k &&& ~~~m = 0#23 ↔ ∀ i, k.getLsbD i = true → m.getLsbD i = true := by
  rw [keys_and_eq_zero_iff]
  refine forall_congr' fun i => imp_congr_right fun down => ?_
  have in_range : i < 23 := BitVec.lt_of_getLsbD down
  simp [in_range]

/-- A mask's keys are a list's when they agree below 23, the number of keys. -/
theorem getLsbD_iff_mem_of_forall_lt {m : Keys} {l : List Nat} (listed_lt : ∀ i ∈ l, i < 23)
    (agree : ∀ i < 23, (m.getLsbD i = true ↔ i ∈ l)) (i : Nat) : m.getLsbD i = true ↔ i ∈ l :=
  ⟨fun down => (agree i (BitVec.lt_of_getLsbD down)).mp down, fun mem => (agree i (listed_lt i mem)).mpr mem⟩

theorem digitSet_getLsbD_iff (i : Nat) : digitSet.getLsbD i = true ↔ i ∈ digitKeys.map Prod.fst :=
  getLsbD_iff_mem_of_forall_lt (by decide) (by decide) i

/-- The keys of a number stroke: #, E and U, at 0, 11 and 12, and the digit keys. -/
theorem numberKeys_getLsbD_iff (i : Nat) :
    numberKeys.getLsbD i = true ↔ i ∈ [0, 11, 12] ∨ i ∈ digitKeys.map Prod.fst := by
  rw [← List.mem_append]
  exact getLsbD_iff_mem_of_forall_lt (by decide) (by decide) i

/-- The two masks of the model say R107's definition key by key. -/
theorem isNumberStroke_iff (k : Keys) :
    isNumberStroke k = true ↔
      k.getLsbD 0 = true ∧ (∃ i ∈ digitKeys.map Prod.fst, k.getLsbD i = true) ∧
        ∀ i, k.getLsbD i = true → i ∈ [0, 11, 12] ∨ i ∈ digitKeys.map Prod.fst := by
  have holds_digit : k &&& digitSet ≠ 0#23 ↔ ∃ i ∈ digitKeys.map Prod.fst, k.getLsbD i = true := by
    simp only [ne_eq, keys_and_eq_zero_iff, not_forall, Bool.not_eq_false, digitSet_getLsbD_iff, exists_prop, and_comm]
  simp only [isNumberStroke, Bool.and_eq_true, decide_eq_true_eq, and_assoc, holds_digit, keys_and_not_eq_zero_iff,
    numberKeys_getLsbD_iff]

/-! ### The digits of a stroke -/

/-- The digit keys as R107 lists them: each index with its digit's value. -/
def digitValues : List (Nat × Nat) :=
  [(1, 1), (2, 2), (4, 3), (6, 4), (8, 5), (9, 0), (13, 6), (15, 7), (17, 8), (19, 9)]

theorem digitKeys_eq_map_digitValues : digitKeys = digitValues.map fun d => (d.1, byte (0x30 + d.2)) := by decide

theorem strokeDigits_eq_filterMap (k : Keys) :
    strokeDigits k = digitValues.filterMap fun d => if k.getLsbD d.1 then some (byte (0x30 + d.2)) else none := by
  calc strokeDigits k
      = (digitKeys.filter fun d => k.getLsbD d.1).filterMap (some ∘ Prod.snd) := by
        rw [List.filterMap_eq_map, strokeDigits]
    _ = digitKeys.filterMap fun d => if k.getLsbD d.1 then some d.2 else none := List.filterMap_filter
    _ = _ := by rw [digitKeys_eq_map_digitValues, List.filterMap_map]; rfl

theorem strokeDigits_length_le (k : Keys) : (strokeDigits k).length ≤ 10 := by
  rw [strokeDigits, List.length_map]
  exact List.length_filter_le _ digitKeys

theorem strokeDigits_length_pos {k : Keys} (number : isNumberStroke k = true) : 1 ≤ (strokeDigits k).length := by
  obtain ⟨-, ⟨i, listed, down⟩, -⟩ := (isNumberStroke_iff k).mp number
  obtain ⟨d, d_mem, rfl⟩ := List.mem_map.mp listed
  rw [strokeDigits, List.length_map]
  exact List.length_filter_pos_iff.mpr ⟨d, d_mem, down⟩

theorem numberText_eq (k : Keys) :
    numberText k =
      if k.getLsbD 11 = true ∨ k.getLsbD 12 = true then (strokeDigits k).reverse else strokeDigits k := by
  simp only [numberText, Bool.or_eq_true]

/-- #, S (1) and O (0): 10. -/
theorem numberText_one_zero : isNumberStroke 0x203#23 = true ∧ numberText 0x203#23 = [0x31#8, 0x30#8] := by decide

/-- The same keys with E: the digits in reverse. -/
theorem numberText_one_zero_reversed :
    isNumberStroke 0xA03#23 = true ∧ numberText 0xA03#23 = [0x30#8, 0x31#8] := by decide

/-! ### The NUMBER unit and its count -/

theorem formUnit_number {u : ParseUnit} {x : StrokeRec} (capPara : Bool) (labels : List Bytes) (w : Fmt)
    (entry : u.entry = .number) (strokes : u.strokes = [x]) :
    formUnit capPara labels w u = formText capPara .number .number false (numberText x.keys) [] [] w := by
  simp only [formUnit, entry, strokes, List.head?_cons, Option.map_some, Option.getD_some]

@[simp] theorem Translator.joinUntranslate_numbers (n k : Nat) (t : Translator) :
    (t.joinUntranslate n k).numbers = t.numbers := by
  unfold Translator.joinUntranslate
  split <;> rfl

theorem Translator.committed_numbers (n : Nat) (kind : UnitKind) (o : List Nat) (t : Translator) :
    (Translator.committed n kind o t).numbers = if kind = .number then t.numbers + 1 else t.numbers := by
  cases kind with
  | untranslate => exact Translator.joinUntranslate_numbers n (o.headD 0) _
  | _ => rfl

/-- Settles O40: R107's definition, its text and the text's length, the two worked strokes, the formed unit, and the
count at the commit. -/
theorem numberStrokesGiveTheirDigits : Obligations.NumberStrokesGiveTheirDigits := by
  refine ⟨isNumberStroke_iff, ?text, numberText_one_zero, numberText_one_zero_reversed, ?unit,
    Translator.committed_numbers⟩
  case text =>
    intro k digits digits_eq
    obtain rfl : digits = strokeDigits k := digits_eq.trans (strokeDigits_eq_filterMap k).symm
    exact ⟨numberText_eq k, fun number => ⟨strokeDigits_length_pos number, strokeDigits_length_le k⟩⟩
  case unit =>
    intro capPara labels w u x entry strokes
    rw [formUnit_number capPara labels w entry strokes]
    exact ⟨rfl, rfl, rfl⟩

end Sys2Proof.Machine
end

section
/-! EDIT-UNIT, with the text and the join it gives a unit in the lock (R142). -/

namespace Sys2Proof.Machine

/-! ### Requests whose rule does not see the host link -/

/-- A rule that neither reads nor moves the host link acts on the state as it was before the request was counted. -/
theorem transmit_request_of_onHost (tag : Byte) (rule : State → State × Result) (s : State) (taken : s.accepts)
    (blind : ∀ g, rule (s.onHost g) = ((rule s).1.onHost g, (rule s).2)) :
    transmit (takeRequest tag true false rule noAfter s) = (rule s).1.reply tag (rule s).2 := by
  have host_kept : (rule s).1.host = s.host := congrArg (fun x => x.1.host) (blind fun _ => s.host)
  exact transmit_request tag false rule noAfter s _ _ taken (blind _) (by rw [onHost_host, host_kept]; rfl) |>.trans
    (by rw [State.reply, host_kept]; rfl)

/-! ### The payload of EDIT-UNIT (R196) -/

/-- The unit's number, the join, the text's length and the text. -/
def editPayload (n : Nat) (join : Byte) (text : Bytes) : Bytes := be 4 n ++ join :: byte text.length :: text

theorem be4At_editPayload (n : Nat) (join : Byte) (text : Bytes) (n_lt : n < 4294967296) :
    be4At (editPayload n join text) 0 = n := be4At_here n _ n_lt

theorem byteAt_four_editPayload (n : Nat) (join : Byte) (text : Bytes) :
    byteAt (editPayload n join text) 4 = join.toNat :=
  byteAt_skip (be 4 n) (join :: byte text.length :: text) 0

theorem byteAt_five_editPayload (n : Nat) (join : Byte) (text : Bytes) (text_lt : text.length < 256) :
    byteAt (editPayload n join text) 5 = text.length :=
  (byteAt_skip (be 4 n) (join :: byte text.length :: text) 1).trans (byte_toNat _ text_lt)

theorem drop_editPayload (n : Nat) (join : Byte) (text : Bytes) : (editPayload n join text).drop 6 = text := rfl

theorem lenEdit_editPayload (n : Nat) (join : Byte) (text : Bytes) (text_lt : text.length < 256) :
    lenEdit (editPayload n join text) = true := by
  have payload_length : (editPayload n join text).length = 6 + text.length := by
    simp only [editPayload, List.length_append, List.length_cons, be_length]; omega
  rw [lenEdit, lenIs, byteAt_five_editPayload n join text text_lt, payload_length, decide_eq_true rfl]

/-! ### The owning rule -/

theorem takeEdit_onHost (n : Nat) (text : Bytes) (join : Bool) (s : State) (g : HostLink → HostLink) :
    takeEdit n text join (s.onHost g) = (takeEdit n text join s).onHost g := rfl

theorem editRule_onHost (p : Bytes) (s : State) (g : HostLink → HostLink) :
    editRule p (s.onHost g) = ((editRule p s).1.onHost g, (editRule p s).2) := by
  unfold editRule
  dsimp only
  rw [onHost_script]
  split_ifs <;> rfl

theorem exec_editUnit (tag : Byte) (p : Bytes) (s : State) (taken : s.accepts) (length_ok : lenEdit p = true) :
    exec (.editUnit tag p) s = .next ((editRule p s).1.reply tag (editRule p s).2) :=
  congrArg Host.Outcome.next <| by
    rw [length_ok, transmit_request_of_onHost tag (editRule p) s taken (editRule_onHost p s)]

theorem editRule_editPayload (n : Nat) (join : Byte) (text : Bytes) (s : State) (n_lt : n < 4294967296) :
    editRule (editPayload n join text) s =
      if 1 < join.toNat then (s, .refused .badValue)
      else if 48 < text.length then (s, .refused .tooLong)
      else if s.script.holds n = false ∨ s.script.inLock n = false then (s, .refused .notLocked)
      else (takeEdit n text (decide (join.toNat = 1)) s, .done []) := by
  simp only [editRule, be4At_editPayload n join text n_lt, byteAt_four_editPayload, drop_editPayload,
    Bool.or_eq_true, Bool.not_eq_true']

/-- Settles O17: the payload's fields are read back, and the rule's branches are those of R142; an edit's own effect is
`takeEdit` written out. -/
theorem editUnitReplacesTheText : Obligations.EditUnitReplacesTheText := by
  intro tag join n text s taken n_lt text_lt
  refine (exec_editUnit tag (editPayload n join text) s taken (lenEdit_editPayload n join text text_lt)).trans ?_
  rw [editRule_editPayload n join text s n_lt]
  split_ifs <;> rfl

end Sys2Proof.Machine
end

section
/-! FEED-REPAINT, with the cursor and the tail a repaint begins with (R161, R164). -/

namespace Sys2Proof.Machine

/-! ### Units in the order of their numbers -/

/-- In ascending order the units from a unit on are those numbered no lower. -/
theorem countP_number_le_append_cons {older newer : List TUnit} {u : TUnit}
    (ascending : (older ++ u :: newer).Pairwise fun x y => x.number < y.number) :
    (older ++ u :: newer).countP (fun x => decide (u.number ≤ x.number)) = newer.length + 1 := by
  obtain ⟨-, from_u, older_lt⟩ := List.pairwise_append.mp ascending
  have none_older : older.countP (fun x => decide (u.number ≤ x.number)) = 0 :=
    List.countP_eq_zero.mpr fun x mem => by simpa using older_lt x mem u List.mem_cons_self
  have all_newer : newer.countP (fun x => decide (u.number ≤ x.number)) = newer.length :=
    List.countP_eq_length.mpr fun x mem => by simpa using (List.rel_of_pairwise_cons from_u mem).le
  rw [List.countP_append, none_older, List.countP_cons_of_pos (by simp), all_newer, Nat.zero_add]

/-- A unit's place from the newest end is the count of the units numbered no lower. -/
theorem reverse_getElem?_countP_number_le {units : List TUnit} {u : TUnit}
    (ascending : units.Pairwise fun x y => x.number < y.number) (held : u ∈ units) :
    units.reverse[units.countP (fun x => decide (u.number ≤ x.number)) - 1]? = some u := by
  obtain ⟨older, newer, rfl⟩ := List.append_of_mem held
  rw [countP_number_le_append_cons ascending, List.reverse_append, List.reverse_cons]
  simp

theorem getLast?_of_forall_not_number_lt {units : List TUnit} {u : TUnit}
    (ascending : units.Pairwise fun x y => x.number < y.number) (held : u ∈ units)
    (newest : ∀ x ∈ units, ¬ u.number < x.number) : units.getLast? = some u := by
  obtain ⟨older, newer, rfl⟩ := List.append_of_mem held
  obtain ⟨-, from_u, -⟩ := List.pairwise_append.mp ascending
  have none_newer : newer = [] := List.eq_nil_iff_forall_not_mem.mpr fun x mem =>
    newest x (by simp [mem]) (List.rel_of_pairwise_cons from_u mem)
  rw [none_newer, List.getLast?_concat]

/-! ### The cursor and the tail of a repaint (R161 steps 2 and 3) -/

theorem repaintCursor_of_countP_eq_depth {v : FeedView} {u : TUnit}
    (ascending : v.units.Pairwise fun x y => x.number < y.number) (held : u ∈ v.units)
    (shows : (v.eligible u && v.showable u) = true)
    (count : v.units.countP (fun x => (v.eligible x && v.showable x) && decide (u.number ≤ x.number)) = v.cfg.depth) :
    repaintCursor v = u.number - 1 := by
  have at_depth := reverse_getElem?_countP_number_le (ascending.filter fun x => v.eligible x && v.showable x)
    (List.mem_filter.mpr ⟨held, shows⟩)
  rw [List.countP_filter] at at_depth
  simp only [Bool.and_comm (decide _), count] at at_depth
  simp only [repaintCursor, at_depth]

theorem repaintCursor_of_countP_lt_depth {v : FeedView}
    (few : v.units.countP (fun u => v.eligible u && v.showable u) < v.cfg.depth) :
    repaintCursor v = match v.units with
      | u :: _ => u.number - 1
      | [] => v.nextNumber - 1 := by
  have beyond : (v.units.filter fun u => v.eligible u && v.showable u).reverse[v.cfg.depth - 1]? = none := by
    rw [List.getElem?_eq_none_iff, List.length_reverse, ← List.countP_eq_length_filter]
    omega
  cases held : v.units <;> rw [held] at beyond <;> simp only [repaintCursor, held, beyond]

theorem repaintEndsAt_of_newest {v : FeedView} {u : TUnit}
    (ascending : v.units.Pairwise fun x y => x.number < y.number) (held : u ∈ v.units)
    (eligible : v.eligible u = true) (newest : ∀ x ∈ v.units, u.number < x.number → v.eligible x = false) :
    repaintEndsAt v = u.number := by
  have last : (v.units.filter v.eligible).getLast? = some u :=
    getLast?_of_forall_not_number_lt (ascending.filter v.eligible) (List.mem_filter.mpr ⟨held, eligible⟩)
      fun x mem newer => by
        obtain ⟨x_held, x_eligible⟩ := List.mem_filter.mp mem
        exact Bool.eq_false_iff.mp (newest x x_held newer) x_eligible
  simp only [repaintEndsAt, last]

theorem repaintEndsAt_of_none_eligible {v : FeedView} (none_eligible : ∀ u ∈ v.units, v.eligible u = false) :
    repaintEndsAt v = repaintCursor v := by
  have empty : v.units.filter v.eligible = [] :=
    List.filter_eq_nil_iff.mpr fun u held => Bool.eq_false_iff.mp (none_eligible u held)
  simp only [repaintEndsAt, empty, List.getLast?_nil]

/-! ### The owning rule (R164) -/

theorem feedOfNum_eq_none_of_lt {n : Nat} (no_feed : 4 < n) : feedOfNum n = none := by
  unfold feedOfNum
  split
  case h_6 => rfl
  all_goals omega

theorem feedRepaintRule_of_none {p : Bytes} {s : State} (no_feed : feedOfNum (byteAt p 0) = none) :
    feedRepaintRule p s = (s, .refused .badValue) := by
  simp only [feedRepaintRule, no_feed]

theorem feedRepaintRule_of_some {p : Bytes} {s : State} {i : FeedId} (feed : feedOfNum (byteAt p 0) = some i) :
    feedRepaintRule p s =
      if (s.feeds.feeds.get i).state = .off then (s, .refused .regionState)
      else if (s.feeds.feeds.get i).state = .stalled then (s, .refused .busy)
      else (repaintFeed i s, .done []) := by
  simp only [feedRepaintRule, feed]
  cases (s.feeds.feeds.get i).state <;> rfl

theorem feedRepaintRule_onHost (p : Bytes) (s : State) (g : HostLink → HostLink) :
    feedRepaintRule p (s.onHost g) = ((feedRepaintRule p s).1.onHost g, (feedRepaintRule p s).2) := by
  cases feed : feedOfNum (byteAt p 0) with
  | none => simp only [feedRepaintRule_of_none feed]
  | some i =>
    rw [feedRepaintRule_of_some feed, feedRepaintRule_of_some feed, onHost_feeds]
    split_ifs <;> rfl

theorem exec_feedRepaint (tag n : Byte) (s : State) (taken : s.accepts) :
    exec (.feedRepaint tag [n]) s =
      .next ((feedRepaintRule [n] s).1.reply tag (feedRepaintRule [n] s).2) :=
  congrArg Host.Outcome.next (transmit_request_of_onHost tag _ s taken (feedRepaintRule_onHost [n] s))

/-- Settles O52: where a repaint's cursor and tail lie among the ascending units, then the rule's branches; the
repaint's own effect is `repaintFeed` written out. -/
theorem feedRepaintBeginsARepaint : Obligations.FeedRepaintBeginsARepaint := by
  refine ⟨rfl, ?bounds, fun _ _ => rfl, ?request⟩
  case bounds =>
    intro v ascending _
    exact ⟨fun _ => repaintCursor_of_countP_eq_depth ascending,
      repaintCursor_of_countP_lt_depth, fun _ => repaintEndsAt_of_newest ascending, repaintEndsAt_of_none_eligible⟩
  case request =>
    intro tag n s taken
    rw [exec_feedRepaint tag n s taken]
    refine ⟨fun no_feed => ?none, fun i feed => ?some⟩
    case none => rw [feedRepaintRule_of_none (p := [n]) (feedOfNum_eq_none_of_lt no_feed)]
    case some =>
      rw [feedRepaintRule_of_some (p := [n]) feed]
      refine ⟨fun off => ?off, fun stalled => ?stalled, fun delivering => ?delivering⟩
      case off => rw [if_pos off]
      case stalled => rw [if_neg (by simp [stalled]), if_pos stalled]
      case delivering =>
        have not_off : (s.feeds.feeds.get i).state ≠ .off := by rcases delivering with h | h <;> simp [h]
        have not_stalled : (s.feeds.feeds.get i).state ≠ .stalled := by rcases delivering with h | h <;> simp [h]
        rw [if_neg not_off, if_neg not_stalled]
        rfl

end Sys2Proof.Machine
end

section
/-! The step, the idle microsecond and power-on. -/

namespace Sys2Proof.Machine

/-- Settles O1. -/
theorem stepRunsTheFrontCommand : Obligations.StepRunsTheFrontCommand := by
  intro s c cs waiting
  simp only [step, waiting]

/-- Settles O2: the passing of one microsecond, block by block. -/
theorem idleStepLetsAMicrosecondPass : Obligations.IdleStepLetsAMicrosecondPass := by
  intro s idle
  refine ⟨s.advance 1, ?_, rfl, rfl, rfl, rfl⟩
  simp only [step, idle]

/-- Settles O4. -/
theorem powerOnResetsEveryBlock : Obligations.PowerOnResetsEveryBlock := fun _ => rfl

/-- Settles O9: the reset state is closed, so each invariant is computed. -/
theorem powerOnMeetsTheInvariants : Obligations.PowerOnMeetsTheInvariants := by
  unfold Obligations.PowerOnMeetsTheInvariants
  decide

end Sys2Proof.Machine
end

section
/-! What a command can do, said once: it changes nothing, or it acts and its step ends in one of three ways. -/

namespace Sys2Proof.Machine

/-! ### A command acts, then its step ends -/

/-- The act of a command, before the end of its step. -/
def act (c : Instr) (s : State) : State :=
  match c with
  | .powerOn => s.powerOn
  | .keyReport link chars => keyChars link chars s
  | .leadByte link char => keyChar link char s
  | .erroredByte link => damageProgress link (s.onLink link (fun l => { l with framingErrors := l.framingErrors + 1 }))
  | .breakDetected link =>
    let s := damageProgress link (s.onLink link (fun l => { l with inBreak := true }))
    if (s.links.get link).link = .up then linkDown link s else s
  | .breakEnd link => s.onLink link (fun l => { l with inBreak := false })
  | .silenceIntervalExpiry link =>
    linkDown link (damageProgress link (s.runTo ((s.links.get link).silenceFrom.getD 0) Config.silenceLimit))
  | .strokeLimitExpiry pos =>
    closeHeld pos (s.runTo (((s.formers.get pos).openStroke.map OpenStroke.openTime).getD 0)
      (s.settings.strokeLimit * 1000))
  | .writerEnable tag p => takeRequest tag (lenIs 2 p) false (writerEnableRule p) noAfter s
  | .handover tag p => takeRequest tag (lenIs 1 p) false (handoverRule p) noAfter s
  | .floorWaitExpiry => forceByWait (s.runTo (s.floor.waitFrom.getD 0) (s.settings.floorWait * 1000))
  | .syncPulse => s.onTime (fun t => t.settleCapture.pulse)
  | .captureExpiry => (s.runTo s.time.captureAt (Config.captureLimit + 1)).onTime TimeBase.expire
  | .syncMark tag p => takeRequest tag (lenIs 4 p) false (syncMarkRule p) noAfter s
  | .rebase => (s.runTo s.time.anchorAt Config.rebaseLimit).onTime TimeBase.rebaseIfDue
  | .previousSyncExpiry =>
    (s.runTo s.time.prevAt (Config.previousSyncLimit + 1)).onTime (fun t => { t with prevValid := false })
  | .holdoverExpiry =>
    syncCauses (timeNotice .holdover 0 ((s.runTo (s.time.holdoverFrom.getD 0) Config.holdoverLimit).onTime
      (fun t => { t with sync := .holdover, holdoverFrom := none })))
  | .memoryReady left =>
    beginMount (s.onFlash (fun f => { f with cells := settleOrphans f.orphans left f.cells, orphans := [] }))
  | .readComplete => readEnded (s.store.reading.getD .dropped) s
  | .suspendLatencyExpiry status =>
    suspendTook status (s.runTo (s.store.suspendAt.getD 0) ((s.store.timing.map Timing.suspendLatency).getD 0))
  | .resumeIntervalExpiry =>
    s.advance ((s.store.timing.map Timing.resumeInterval).getD 0 - s.store.sinceResume.getD 0)
  | .pageProgramEnd error left | .blockEraseEnd error left =>
    match s.store.inProgress with
    | none => s
    | some r => opEnded r error left s
  | .operationTimeout =>
    match s.store.inProgress with
    | none => s
    | some r => (runOpTo (runLimit s r.op + 1) r.ran s).onStore (timeoutOp r.op)
  | .timeoutStillBusy =>
    match s.store.inProgress with
    | none => s
    | some r => stillBusy r (runOpTo (runLimit s r.op) r.ran s)
  | .storeRecover tag p => takeRequest tag (lenIs 0 p) false (storeRecoverRule tag) noAfter s
  | .formatStore tag p => takeRequest tag (lenIs 18 p) false (formatRule tag p) noAfter s
  | .eraseRegion tag p => takeRequest tag (lenIs 1 p) false (eraseRule tag p) noAfter s
  | .logAgeExpiry =>
    (s.runTo ((s.log.openPage.map BufPage.since).getD 0) (s.settings.logAge * 1000)).onLog LogWriter.closePage
  | .logRead tag p => takeRequest tag (lenIs 5 p) false (logReadRule tag p) noAfter s
  | .logFlush tag p => takeRequest tag (lenIs 0 p) false (logFlushRule tag) noAfter s
  | .entryLookup tag p => takeRequest tag (lenOutline p) false (entryLookupRule tag p) noAfter s
  | .entryAdd tag p => takeRequest tag (lenEntryAdd p) false (entryAddRule p) noAfter s
  | .entryDelete tag p => takeRequest tag (lenOutline p) false (entryDeleteRule p) noAfter s
  | .strokeTake =>
    match nextStroke s with
    | none => s
    | some x => takeStroke x ((insertNotes s).onPos x.pos PosRec.takeFront)
  | .holdTimerExpiry =>
    holdExpire (if s.trans.timer.getD 0 < s.settings.holdTime * 1000 then
      s.advance (s.settings.holdTime * 1000 - s.trans.timer.getD 0) else s)
  | .defineSpeaker tag p => takeRequest tag (lenText1 p) false (defineSpeakerRule p) noAfter s
  | .insertNote tag p => takeRequest tag (lenText1 p) false (insertNoteRule tag p) noAfter s
  | .firmTimeExpiry =>
    firmByTime (s.runTo ((s.script.oldestCommitted.bind TUnit.commitTime).getD 0) (s.settings.firmTime * 1000000))
  | .openSession tag p => takeRequest tag (lenIs 11 p) false (openRule p) noAfter s
  | .closeSession tag p => takeRequest tag (lenIs 0 p) false (closeRule tag) noAfter s
  | .lock tag p => takeRequest tag (lenIs 8 p) false (lockRule p) noAfter s
  | .unlock tag p => takeRequest tag (lenIs 0 p) false unlockRule noAfter s
  | .lockTimeout => timeoutLock (s.runTo ((s.script.lock.map EditLock.since).getD 0) (s.settings.lockTimeout * 1000000))
  | .editUnit tag p => takeRequest tag (lenEdit p) false (editRule p) noAfter s
  | .reclassify tag p => takeRequest tag (lenIs 9 p) false (reclassifyRule p) noAfter s
  | .readback tag p => takeRequest tag (lenReadback p) false (readbackRule tag p) noAfter s
  | .readbackVisit =>
    match s.script.search with
    | none => s
    | some q => if q.collecting then visitForward q s else visitBack q s
  | .releaseTimerExpiry feed =>
    settleFeed feed (s.runTo (((releaseUnit (s.view feed) (s.feeds.feeds.get feed)).bind TUnit.commitTime).getD 0)
      ((s.settings.feed.get feed).delay * 1000000))
  | .agedToExpiry =>
    let s := s.runTo ((agingUnit s).getD 0) Config.agedLimit
    settleAll (s.onFeeds (fun m => { m with agedTo := agedHighest s }))
  | .feedRepaint tag p => takeRequest tag (decide (p.length = 1)) false (feedRepaintRule p) noAfter s
  | .grant =>
    match nextGrant s with
    | none => s
    | some (i, m) => grantTo i m s
  | .frameSent port => portKick port (s.onPort port (Port.sent s.time.now))
  | .ack port seq => takeAck port seq (s.onPort port (fun p => { p with rx := .hunt }))
  | .resync port _ => takeResync port (s.onPort port (fun p => { p with rx := .hunt }))
  | .malformedReply port chars errored => s.onPort port (Port.badReply s.time.now chars errored)
  | .replyGapTimeout port chars =>
    let s := s.onPort port (Port.badReply s.time.now chars false)
    match (s.ports.get port).rx with
    | .hunt => s
    | .collect _ t => (s.runTo t (Config.replyGap + 1)).onPort port Port.malformed
  | .ackTimeout port => portStall port (s.runTo ((s.ports.get port).timed.getD 0) (ackLimit s port))
  | .probeTimerExpiry port =>
    let t := (s.ports.get port).probeFrom.getD 0
    portKick port ((s.runTo t Config.probeInterval).onPort port
      (Port.probe (t + BitVec.ofNat 32 Config.probeInterval)))
  | .hostFramingError chars =>
    match hostChars s.time.now chars s.host.rx 0 with
    | none => s
    | some r => s.onHost (fun h => { (h.heard r).discard with framingErrors := h.framingErrors + 1 })
  | .hostGapTimeout chars =>
    match hostChars s.time.now chars s.host.rx 0 with
    | none => s
    | some r =>
      match r.1 with
      | .hunt => s.onHost (HostLink.heard r)
      | .frame _ t => ((s.onHost (HostLink.heard r)).runTo t (Config.hostGap + 1)).onHost HostLink.discard
  | .frameDiscarded chars =>
    match hostChars s.time.now chars s.host.rx 0 with
    | none => s
    | some r => s.onHost (HostLink.heard r)
  | .badKind tag _ _ => takeRequest tag true true (fun s => (s, .refused .badKind)) noAfter s
  | .hostFrameSent =>
    match s.host.sending with
    | none => s
    | some f => frameSentHost f s
  | .clearCondition tag p => takeRequest tag (lenIs 1 p) false (clearRule p) noAfter s
  | .setSetting tag p => takeRequest tag (lenIs 6 p) false (setRule p) (afterSet p) s
  | .getSetting tag p => takeRequest tag (lenIs 2 p) true (getRule p) noAfter s
  | .identify tag p => takeRequest tag (lenIs 0 p) true (fun s => (s, .done identity)) noAfter s
  | .status tag p => takeRequest tag (lenIs 1 p) true (statusRule p) noAfter s
  | .restart tag p => takeRequest tag (lenIs 0 p) false restartRule afterRestart s

/-- The outcomes a command may have: nothing changes, or the command acts and its step ends at once, with the choice of the
host transmitter, or with what the store takes up. -/
def Outcomes (c : Instr) (s : State) (o : Host.Outcome State Fault Refusal) : Prop :=
  o = .next s ∨ o = .next (act c s) ∨ o = .next (transmit (act c s)) ∨ o = .next (finishStep (act c s))

theorem Outcomes.same {c : Instr} {s : State} : Outcomes c s (.next s) := .inl rfl

theorem Outcomes.atOnce {c : Instr} {s t : State} (acts : t = act c s) : Outcomes c s (.next t) :=
  .inr (.inl (by rw [acts]))

theorem Outcomes.transmits {c : Instr} {s t : State} (acts : t = act c s) : Outcomes c s (.next (transmit t)) :=
  .inr (.inr (.inl (by rw [acts])))

theorem Outcomes.finishes {c : Instr} {s t : State} (acts : t = act c s) : Outcomes c s (.next (finishStep t)) :=
  .inr (.inr (.inr (by rw [acts])))

theorem exec_outcomes (c : Instr) (s : State) : Outcomes c s (exec c s) := by
  cases c
  case writerEnable | handover | storeRecover | formatStore | eraseRegion | logRead | logFlush | entryLookup | entryAdd |
      entryDelete | insertNote | openSession | closeSession | setSetting | restart | keyReport | leadByte =>
    exact .finishes rfl
  case syncMark | defineSpeaker | lock | unlock | editUnit | reclassify | readback | feedRepaint | clearCondition |
      getSetting | identify | status | ack | resync =>
    exact .transmits rfl
  case powerOn | syncPulse | rebase | frameSent | malformedReply | breakEnd => exact .atOnce rfl
  case badKind tag kind payload =>
    show Outcomes _ s (execBadKind tag kind payload s)
    unfold execBadKind
    split
    · exact .same
    · exact .transmits rfl
  case erroredByte link =>
    show Outcomes _ s (execErroredByte link s)
    unfold execErroredByte
    split
    · exact .same
    · exact .atOnce rfl
  case breakDetected link =>
    show Outcomes _ s (execBreak link s)
    unfold execBreak
    split
    · exact .same
    · exact .finishes rfl
  case captureExpiry =>
    show Outcomes _ s (execCaptureExpiry s)
    unfold execCaptureExpiry
    split
    · exact .atOnce rfl
    · exact .same
  case previousSyncExpiry =>
    show Outcomes _ s (execPreviousSyncExpiry s)
    unfold execPreviousSyncExpiry
    split
    · exact .atOnce rfl
    · exact .same
  case memoryReady left =>
    show Outcomes _ s (execMemoryReady left s)
    unfold execMemoryReady
    split
    · exact .finishes rfl
    · exact .same
  case silenceIntervalExpiry link =>
    show Outcomes _ s (execSilenceIntervalExpiry link s)
    unfold execSilenceIntervalExpiry
    split
    · exact .same
    · next running => exact .finishes (by simp only [act, running, Option.getD_some])
  case strokeLimitExpiry pos =>
    show Outcomes _ s (execStrokeLimitExpiry pos s)
    unfold execStrokeLimitExpiry
    split
    · exact .same
    · next running => exact .finishes (by simp only [act, running, Option.getD_some, Option.map_some])
  case floorWaitExpiry =>
    show Outcomes _ s (execFloorWaitExpiry s)
    unfold execFloorWaitExpiry
    split
    · exact .same
    · next running => exact .finishes (by simp only [act, running, Option.getD_some])
  case holdoverExpiry =>
    show Outcomes _ s (execHoldoverExpiry s)
    unfold execHoldoverExpiry
    split
    · exact .same
    · next running => exact .transmits (by simp only [act, running, Option.getD_some])
  case readComplete =>
    show Outcomes _ s (execReadComplete s)
    unfold execReadComplete
    split
    · exact .same
    · next running => exact .finishes (by simp only [act, running, Option.getD_some])
  case suspendLatencyExpiry status =>
    show Outcomes _ s (execSuspendLatencyExpiry status s)
    unfold execSuspendLatencyExpiry
    split
    · exact .same
    · next running => exact .finishes (by simp only [act, running, Option.getD_some])
  case resumeIntervalExpiry =>
    show Outcomes _ s (execResumeIntervalExpiry s)
    unfold execResumeIntervalExpiry
    split
    · exact .same
    · next running => exact .finishes (by simp only [act, running, Option.getD_some])
  case logAgeExpiry =>
    show Outcomes _ s (execLogAgeExpiry s)
    unfold execLogAgeExpiry
    split
    · exact .same
    · next running => exact .finishes (by simp only [act, running, Option.getD_some, Option.map_some])
  case strokeTake =>
    show Outcomes _ s (execStrokeTake s)
    unfold execStrokeTake
    split
    · exact .same
    · next running => exact .finishes (by simp only [act, running])
  case firmTimeExpiry =>
    show Outcomes _ s (execFirmTimeExpiry s)
    unfold execFirmTimeExpiry
    split
    · exact .same
    · next running => exact .atOnce (by simp only [act, running, Option.getD_some])
  case lockTimeout =>
    show Outcomes _ s (execLockTimeout s)
    unfold execLockTimeout
    split
    · exact .same
    · next running => exact .atOnce (by simp only [act, running, Option.getD_some, Option.map_some])
  case readbackVisit =>
    show Outcomes _ s (execReadbackVisit s)
    unfold execReadbackVisit
    split
    · exact .same
    · next running => exact .transmits (by simp only [act, running])
  case releaseTimerExpiry feed =>
    show Outcomes _ s (execReleaseTimerExpiry feed s)
    unfold execReleaseTimerExpiry
    split
    · exact .same
    · next running => exact .atOnce (by simp only [act, running, Option.getD_some])
  case agedToExpiry =>
    show Outcomes _ s (execAgedToExpiry s)
    unfold execAgedToExpiry
    split
    · exact .same
    · next running => exact .atOnce (by simp only [act, running, Option.getD_some])
  case grant =>
    show Outcomes _ s (execGrant s)
    unfold execGrant
    split
    · exact .same
    · next running => exact .transmits (by simp only [act, running])
  case ackTimeout port =>
    show Outcomes _ s (execAckTimeout port s)
    unfold execAckTimeout
    split
    · exact .same
    · next running => exact .transmits (by simp only [act, running, Option.getD_some])
  case probeTimerExpiry port =>
    show Outcomes _ s (execProbeTimerExpiry port s)
    unfold execProbeTimerExpiry
    split
    · exact .same
    · next running => exact .atOnce (by simp only [act, running, Option.getD_some])
  case hostFramingError chars =>
    show Outcomes _ s (execHostFramingError chars s)
    unfold execHostFramingError
    split
    · exact .same
    · next running => exact .atOnce (by simp only [act, running])
  case frameDiscarded chars =>
    show Outcomes _ s (execFrameDiscarded chars s)
    unfold execFrameDiscarded
    split
    · exact .same
    · next running => exact .atOnce (by simp only [act, running])
  case hostFrameSent =>
    show Outcomes _ s (execHostFrameSent s)
    unfold execHostFrameSent
    split
    · exact .same
    · next running => exact .finishes (by simp only [act, running])
  case pageProgramEnd error left =>
    show Outcomes _ s (execPageProgramEnd error left s)
    unfold execPageProgramEnd
    split
    · next running => exact .finishes (by simp only [act, running])
    · exact .same
  case blockEraseEnd error left =>
    show Outcomes _ s (execBlockEraseEnd error left s)
    unfold execBlockEraseEnd
    split
    · next running => exact .finishes (by simp only [act, running])
    · exact .same
  case operationTimeout =>
    show Outcomes _ s (execOperationTimeout s)
    unfold execOperationTimeout
    split
    · next running => exact .finishes (by simp only [act, running])
    · exact .same
  case timeoutStillBusy =>
    show Outcomes _ s (execTimeoutStillBusy s)
    unfold execTimeoutStillBusy
    split
    · next running => exact .finishes (by simp only [act, running])
    · exact .same
  case holdTimerExpiry =>
    show Outcomes _ s (execHoldTimerExpiry s)
    unfold execHoldTimerExpiry
    split
    · exact .same
    · next running =>
      split
      · exact .same
      · exact .finishes (by simp only [act, running, Option.getD_some])
  case replyGapTimeout port chars =>
    show Outcomes _ s (execReplyGapTimeout port chars s)
    simp only [execReplyGapTimeout]
    split
    · next hunting => exact .atOnce (by simp only [act, hunting])
    · next collecting => exact .atOnce (by simp only [act, collecting])
  case hostGapTimeout chars =>
    show Outcomes _ s (execHostGapTimeout chars s)
    simp only [execHostGapTimeout]
    split
    · exact .same
    · next heard =>
      split
      · next hunting => exact .atOnce (by simp only [act, heard, hunting])
      · next framing => exact .atOnce (by simp only [act, heard, framing])

end Sys2Proof.Machine
end

section
/-! What every step keeps: an invariant follows from the acts of the commands and from the four operations that end a step. -/

namespace Sys2Proof.Machine

/-! ### The end of a step -/

theorem transmit_cases (s : State) : transmit s = chooseFrame s ∨ transmit s = (chooseFrame s).powerOn := by
  unfold transmit
  dsimp only
  split_ifs
  · exact .inr rfl
  · exact .inl rfl

/-- What the act of a command and every end of a step keep, the command keeps. -/
theorem exec_keeps {P : State → Prop} {c : Instr} {s t : State} (acts : P s → P (act c s))
    (chooses : ∀ u, P u → P (chooseFrame u)) (resets : ∀ u, P u → P u.powerOn) (takesUp : ∀ u, P u → P u.takeUp)
    (reports : ∀ u, P u → P (flushReport u)) (held : P s) (runs : exec c s = .next t) : P t := by
  have transmits : ∀ s, P s → P (transmit s) := fun s held => by
    rcases transmit_cases s with h | h <;> rw [h]
    · exact chooses s held
    · exact resets _ (chooses s held)
  rcases exec_outcomes c s with h | h | h | h <;> obtain rfl := Host.Outcome.next.inj (runs.symm.trans h)
  · exact held
  · exact acts held
  · exact transmits _ (acts held)
  · exact transmits _ (reports _ (takesUp _ (acts held)))

/-- An invariant that does not see the queue: what every command and the passing of a microsecond keep, every step keeps. -/
theorem step_keeps {P : State → Prop} (idles : ∀ s, P s → P (s.advance 1))
    (queue : ∀ s q, P s → P { s with pending := q }) (execs : ∀ {c s t}, P s → exec c s = .next t → P t)
    (s t : State) (held : P s) (steps : step s = .next t) : P t := by
  unfold step at steps
  split at steps
  · exact Host.Outcome.next.inj steps ▸ idles s held
  · exact execs (queue s _ held) steps

/-! ### A request's own rule is all that a request does beside the host link -/

theorem takeRequest_cases (tag : Byte) (lenOk always : Bool) (rule : State → State × Result)
    (after : Result → AfterSent) (s : State) :
    (∃ g : HostLink → HostLink, takeRequest tag lenOk always rule after s = s.onHost g) ∨
      ∃ g : HostLink → HostLink, takeRequest tag lenOk always rule after s = (rule s.counted).1.onHost g := by
  unfold takeRequest
  dsimp only
  split_ifs
  iterate 4 exact .inl ⟨fun _ => _, rfl⟩
  exact .inr ⟨_, rfl⟩

/-- What a rule keeps, its request keeps, when the host link does not matter. -/
theorem takeRequest_keeps {P : State → Prop} (host : ∀ s (g : HostLink → HostLink), P s → P (s.onHost g))
    {rule : State → State × Result} (rules : ∀ s, P s → P (rule s).1) (tag : Byte) (lenOk always : Bool)
    (after : Result → AfterSent) (s : State) (held : P s) : P (takeRequest tag lenOk always rule after s) := by
  rcases takeRequest_cases tag lenOk always rule after s with ⟨g, h⟩ | ⟨g, h⟩ <;> rw [h]
  · exact host s g held
  · exact host _ g (rules _ (host s _ held))

@[simp] theorem takeRequest_pending (tag : Byte) (lenOk always : Bool) (rule : State → State × Result)
    (after : Result → AfterSent) (s : State) (rules : ∀ s, (rule s).1.pending = s.pending) :
    (takeRequest tag lenOk always rule after s).pending = s.pending :=
  takeRequest_keeps (P := fun u => u.pending = s.pending) (fun _ _ => id) (fun u h => (rules u).trans h) tag lenOk always
    after s rfl

@[simp] theorem takeRequest_flash (tag : Byte) (lenOk always : Bool) (rule : State → State × Result)
    (after : Result → AfterSent) (s : State) (rules : ∀ s, (rule s).1.flash = s.flash) :
    (takeRequest tag lenOk always rule after s).flash = s.flash :=
  takeRequest_keeps (P := fun u => u.flash = s.flash) (fun _ _ => id) (fun u h => (rules u).trans h) tag lenOk always
    after s rfl

@[simp] theorem takeRequest_time_rate (tag : Byte) (lenOk always : Bool) (rule : State → State × Result)
    (after : Result → AfterSent) (s : State) (rules : ∀ s, (rule s).1.time.rate = s.time.rate) :
    (takeRequest tag lenOk always rule after s).time.rate = s.time.rate :=
  takeRequest_keeps (P := fun u => u.time.rate = s.time.rate) (fun _ _ => id) (fun u h => (rules u).trans h) tag lenOk
    always after s rfl

/-! ### The queue of commands -/

theorem act_pending (c : Instr) (s : State) : (act c s).pending = s.pending := by
  cases c
  case powerOn => rfl
  case breakDetected | pageProgramEnd | blockEraseEnd | operationTimeout | timeoutStillBusy | strokeTake | holdTimerExpiry |
      readbackVisit | grant | replyGapTimeout | hostFramingError | hostGapTimeout | frameDiscarded | hostFrameSent =>
    simp only [act]
    (repeat' split) <;> simp
  all_goals simp [act]

/-- Settles O3: the outcomes of every command are next states, and neither an act nor the end of a step sees the queue. -/
theorem everyCommandCompletes : Obligations.EveryCommandCompletes := by
  intro c s
  have completes : ∃ t, exec c s = .next t := by
    rcases exec_outcomes c s with h | h | h | h <;> exact ⟨_, h⟩
  obtain ⟨t, runs⟩ := completes
  refine ⟨t, runs, exec_keeps (P := fun u => u.pending = s.pending) ?_ ?_ ?_ ?_ ?_ rfl runs⟩
  · exact act_pending c s |>.trans
  · exact fun u kept => by simp [kept]
  · exact fun u kept => kept
  · exact fun u kept => by simp [State.takeUp, kept]
  · exact fun u kept => by simp [kept]

/-! ### The bytes of the note memory (R55, R65) -/

theorem act_cells (c : Instr) (s : State) (ends : endsOperation c = false) : (act c s).flash.cells = s.flash.cells := by
  cases c
  case powerOn => rfl
  case memoryReady | suspendLatencyExpiry | pageProgramEnd | blockEraseEnd => cases ends
  case breakDetected | operationTimeout | timeoutStillBusy | strokeTake | holdTimerExpiry |
      readbackVisit | grant | replyGapTimeout | hostFramingError | hostGapTimeout | frameDiscarded | hostFrameSent =>
    simp only [act]
    (repeat' split) <;> simp
  all_goals simp [act]

/-- What the act of a command keeps of the bytes of the note memory, the command keeps: the end of a step changes none. -/
theorem exec_keeps_cells {P : List Host.Cell → Prop} {c : Instr} {s t : State}
    (acts : P s.flash.cells → P (act c s).flash.cells) (held : P s.flash.cells) (runs : exec c s = .next t) :
    P t.flash.cells := by
  refine exec_keeps (P := fun u => P u.flash.cells) acts ?_ ?_ ?_ ?_ held runs
  · exact fun u kept => by simpa using kept
  · exact fun u kept => kept
  · exact fun u kept => by simpa [State.takeUp] using kept
  · exact fun u kept => by simpa using kept

/-- Settles O10: no act but that of a command that ends an operation changes a byte, and no end of a step does. -/
theorem noteMemoryChangesOnlyWhenAnOperationEnds : Obligations.NoteMemoryChangesOnlyWhenAnOperationEnds := by
  intro c s t ends runs
  exact exec_keeps_cells (P := fun cells => cells = s.flash.cells) (fun _ => act_cells c s ends) rfl runs

theorem opEnded_cells (r : Running) (error : Bool) (left : List Host.Cell) (s : State) :
    (opEnded r error left s).flash.cells = r.op.settle error left s.flash.cells := by
  unfold opEnded
  dsimp only
  split_ifs <;> simp [clearOp]

/-- Of the commands that end an operation, each leaves what the operation, or the unfinished ones, left. -/
theorem act_wf (c : Instr) (s : State) (wf : s.flash.wf = true) : (act c s).flash.wf = true := by
  unfold Flash.wf at wf ⊢
  cases ends : endsOperation c with
  | false => rwa [act_cells c s ends]
  | true =>
    cases c
    case memoryReady left => simpa [act] using settleOrphans_wf s.flash.orphans left _ wf
    case pageProgramEnd error left | blockEraseEnd error left =>
      simp only [act]
      split
      · exact wf
      · rw [opEnded_cells]
        exact settle_wf _ error left _ wf
    case suspendLatencyExpiry status =>
      simp only [act, suspendTook]
      split
      · simpa using wf
      · simpa using wf
      · rw [opEnded_cells]
        exact settle_wf _ _ _ _ (by simpa using wf)
    all_goals cases ends

/-- Settles O5: each act keeps the form, and nothing else in a step changes a byte of the note memory. -/
theorem noteMemoryKeepsItsForm : Obligations.NoteMemoryKeepsItsForm := by
  refine step_keeps (P := fun s => s.flash.wf = true) ?_ ?_ ?_
  · exact fun s wf => by simpa using wf
  · exact fun s q wf => wf
  · exact fun {c s t} wf runs => exec_keeps_cells (P := fun cells => cellsWf 0 cells = true) (act_wf c s) wf runs

/-! ### The rate (R42) -/

theorem limitRate_inLimits (q : Nat) : 16760439 ≤ limitRate q ∧ limitRate q ≤ 16793993 := by
  unfold limitRate Config.rateMin Config.rateMax
  omega

theorem TimeBase.reset_inLimits : TimeBase.reset.inLimits := by decide

@[simp] theorem TimeBase.rebaseIfDue_rate (t : TimeBase) : t.rebaseIfDue.rate = t.rate := by
  unfold TimeBase.rebaseIfDue
  split <;> rfl

@[simp] theorem TimeBase.expire_rate (t : TimeBase) : t.expire.rate = t.rate := TimeBase.rebaseIfDue_rate _

@[simp] theorem TimeBase.settleCapture_rate (t : TimeBase) : t.settleCapture.rate = t.rate := by
  unfold TimeBase.settleCapture
  split
  · exact t.expire_rate
  · rfl

@[simp] theorem TimeBase.pulse_rate (t : TimeBase) : t.pulse.rate = t.rate := rfl

@[simp] theorem TimeBase.openSession_rate (epoch : Nat) (t : TimeBase) : (t.openSession epoch).rate = t.rate := by
  unfold TimeBase.openSession
  dsimp only
  split <;> rfl

theorem openRule_time_rate (p : Bytes) (s : State) : (openRule p s).1.time.rate = s.time.rate := by
  unfold openRule
  split
  · rfl
  · simp [takeOpen, startFloor, openBlocks, openTranscript]
    split
    · simp
    · split <;> simp

/-- Of the disciplines the slew alone may measure a rate, and what it measures is limited. -/
theorem TimeBase.discipline_inLimits (r : Nat) (t : TimeBase) (held : t.inLimits) : (t.discipline r).inLimits := by
  unfold TimeBase.discipline
  split
  · exact held
  · exact held
  · simp only [TimeBase.measure]
    split
    · exact limitRate_inLimits _
    · exact held

theorem acceptSync_time_rate (r : Nat) (s : State) : (acceptSync r s).1.time.rate = (s.time.discipline r).rate := by
  simp only [acceptSync]
  split <;> simp

theorem syncMarkRule_inLimits (p : Bytes) (s : State) (held : s.time.inLimits) :
    (syncMarkRule p s).1.time.inLimits := by
  have settled : s.time.settleCapture.inLimits := by simpa [TimeBase.inLimits] using held
  simp only [syncMarkRule]
  split
  · exact settled
  · simpa [TimeBase.inLimits] using held
  · rw [TimeBase.inLimits, acceptSync_time_rate]
    exact TimeBase.discipline_inLimits _ _ settled

/-- Only SYNC-MARK moves the rate; power-on puts it at its nominal value. -/
theorem act_inLimits (c : Instr) (s : State) (held : s.time.inLimits) : (act c s).time.inLimits := by
  cases c
  case powerOn => exact TimeBase.reset_inLimits
  case syncMark tag p =>
    exact takeRequest_keeps (P := fun u => u.time.inLimits) (fun _ _ => id) (syncMarkRule_inLimits p) _ _ _ _ s held
  case breakDetected | pageProgramEnd | blockEraseEnd | operationTimeout | timeoutStillBusy | strokeTake | holdTimerExpiry |
      readbackVisit | grant | replyGapTimeout | hostFramingError | hostGapTimeout | frameDiscarded | hostFrameSent =>
    simp only [act, TimeBase.inLimits]
    (repeat' split) <;> simpa using held
  all_goals simpa [act, TimeBase.inLimits, openRule_time_rate] using held

/-- Settles O6: the rate filter limits what it computes, power-on gives the nominal rate, and nothing else moves the
rate. -/
theorem rateStaysWithinLimits : Obligations.RateStaysWithinLimits := by
  refine step_keeps (P := fun s => s.time.inLimits) ?_ ?_ ?_
  · exact fun s held => by simpa [TimeBase.inLimits] using held
  · exact fun s q held => held
  · refine fun {c s t} => exec_keeps (P := fun s => s.time.inLimits) (act_inLimits c s) ?_ ?_ ?_ ?_
    · exact fun u kept => by simpa [TimeBase.inLimits] using kept
    · exact fun u kept => TimeBase.reset_inLimits
    · exact fun u kept => by simpa [State.takeUp, TimeBase.inLimits] using kept
    · exact fun u kept => by simpa [TimeBase.inLimits] using kept

end Sys2Proof.Machine
end

section
/-! Two statements that fail at states no run reaches: a queue that holds the other position's stroke, and the reply to a
RESTART under way in a part that is not RESTARTING. -/

namespace Sys2Proof.Machine

/-! ### The stroke queues -/

/-- An undo stroke of position B. -/
def strayStroke : StrokeRec :=
  { pos := .b, keys := undoValue, openTime := 0, timecode := 0, seq := 1, damaged := false, held := false,
    unlogged := false }

/-- Position A is LIVE and queues a stroke of B; B is SHADOW, queues nothing and has a PENDING stroke. -/
def strayQueue : State :=
  { State.reset with
    floor := { Floor.reset with
      pos := ⟨{ PosRec.reset with state := .live, queue := [strayStroke] },
        { PosRec.reset with state := .shadow, pending := some strayStroke }⟩ }
    script := { Transcript.reset with session := .opened }
    pending := [.strokeTake] }

theorem strayQueue_listsFit : strayQueue.listsFit := by decide

/-- The take moves on the queue of the stroke's own position B, whose PENDING stroke joins it while B is SHADOW. -/
theorem strayQueue_step : ∃ t, step strayQueue = .next t ∧ ¬ t.floor.pos.b.queueFits :=
  ⟨_, rfl, by decide⟩

/-- Refutes O7: its third part fails at a LIVE position that queues the other position's stroke. -/
theorem not_queuesAndBuffersStayWithinCapacity : ¬ Obligations.QueuesAndBuffersStayWithinCapacity := by
  rintro ⟨-, -, lists, -⟩
  obtain ⟨t, steps, overfull⟩ := strayQueue_step
  obtain ⟨⟨-, fits⟩, -⟩ := lists strayQueue t strayQueue_listsFit steps
  exact overfull fits

/-! ### The blocks of HOST_FRAME_SENT -/

/-- The part is NORMAL and sends a reply that RESTART waits for; hold-time is not its default. -/
def strayRestart : State :=
  { State.reset with
    host := { HostLink.reset with sending := some (.reply { tag := 0, result := .done [], after := .restart }) }
    settings := { Settings.default with holdTime := 0 } }

theorem strayRestart_exec : ∃ t, exec .hostFrameSent strayRestart = .next t ∧ t.settings.holdTime = 1500 :=
  ⟨_, rfl, by decide⟩

/-- Refutes O11: the part is NORMAL, and the step of the sent reply ends in power-on, which resets the settings. -/
theorem not_commandsChangeOnlyTheirBlocks : ¬ Obligations.CommandsChangeOnlyTheirBlocks := by
  intro blocks
  obtain ⟨t, runs, reset⟩ := strayRestart_exec
  rcases blocks .hostFrameSent strayRestart t runs with kept | ⟨restarting, -⟩
  · have same : t.settings = strayRestart.settings := kept .settings (by decide)
    rw [same] at reset
    cases reset
  · exact absurd restarting (by decide)

end Sys2Proof.Machine
end

section
/-! The form by which no feed is sent text of an excluded class: what each report of the transcript manager does to one
feed record keeps it (R153, R157, R160, R163, R167). -/

namespace Sys2Proof.Machine

/-! ### The view of a record's form -/

/-- The form looks at the settings of the feed and at the units held, and at nothing else of a view. -/
theorem truthful_congr {v w : FeedView} {f : Feed} (cfg : v.cfg = w.cfg) (units : v.units = w.units)
    (form : f.truthful w) : f.truthful v := by
  have same : ∀ n, v.holdsAccepted n = w.holdsAccepted n := fun n => by
    simp only [FeedView.holdsAccepted, FeedView.accepts, cfg, units]
  simpa only [Feed.truthful, cfg, same] using form

/-- A record in form stays in form while no unit leaves and no unit held changes its class. -/
theorem truthful_of_classes_kept {v w : FeedView} {f : Feed} (cfg : v.cfg = w.cfg)
    (kept : ∀ n c, clsOf w.units n = some c → clsOf v.units n = some c) (form : f.truthful w) : f.truthful v := by
  obtain ⟨idle, delayed, backed, accepted⟩ := form
  refine ⟨idle, fun tier => delayed (cfg ▸ tier), backed, fun tier e shown text => ?_⟩
  have held := accepted (cfg ▸ tier) e shown text
  unfold FeedView.holdsAccepted at held ⊢
  cases class_then : clsOf w.units e.number with
  | none => simp [class_then] at held
  | some c =>
    rw [kept _ _ class_then]
    simpa [class_then, FeedView.accepts, cfg] using held

/-- A record that is not delivering is empty when it is in form, and so in form under every view. -/
theorem truthful_of_not_delivering {v w : FeedView} {f : Feed} (idle : f.delivering = false) (form : f.truthful w) :
    f.truthful v :=
  truthful_of_empty (form.1 idle).1 (form.1 idle).2

/-- A DELAYED feed's record is in form when it queues no change note. -/
theorem truthful_of_delayed {v : FeedView} {f : Feed} (delivers : f.delivering = true) (tier : v.cfg.tier = .delayed)
    (queued : f.changes = []) : f.truthful v :=
  ⟨fun idle => absurd idle (by simp [delivers]), fun _ => queued, by simp [queued], fun other => absurd tier other⟩

/-! ### Records and queued notes -/

theorem backed_of_shown_eq {f g : Feed} (shown : g.shown = f.shown) (q : ChangeNote) : g.backed q = f.backed q := by
  cases q <;> simp [Feed.backed, Feed.textEntry, shown]

theorem backed_of_textEntry {f g : Feed} {q : ChangeNote}
    (entries : ∀ n, q = .replace n → f.textEntry n = true → g.textEntry n = true) (backed : f.backed q = true) :
    g.backed q = true := by
  cases q with
  | replace n => exact entries n rfl backed
  | _ => rfl

/-- A merge keeps the queued notes, apart from a shortened CONFIRM, or takes them out. -/
theorem mem_mergeNote {note q : ChangeNote} {queued : List ChangeNote} (kept : q ∈ (mergeNote note queued).1) :
    q ∈ queued ∨ ∃ m, q = .confirm m := by
  cases note with
  | retractFrom n =>
    simp only [mergeNote, List.mem_filterMap] at kept
    obtain ⟨p, mem, merged⟩ := kept
    unfold retractMerge at merged
    (repeat' split at merged) <;> simp_all
    all_goals (obtain rfl := merged; simp)
  | replace n => exact .inl kept
  | redact n => exact .inl (List.mem_filter.mp kept).1
  | confirm n => exact .inl (List.mem_filter.mp kept).1

/-! ### Reports at a delivering feed (R157, R160, R163) -/

/-- Entries changed one by one, each keeping its number and each text entry coming from one: a record's shown text stays
accepted. -/
theorem accepted_of_map {v : FeedView} {shown : List ShownEntry} {change : ShownEntry → ShownEntry}
    (number : ∀ e, (change e).number = e.number)
    (text : ∀ e, (change e).kind = .provisional ∨ (change e).kind = .final → e.kind = .provisional ∨ e.kind = .final)
    (accepted : ∀ e ∈ shown, e.kind = .provisional ∨ e.kind = .final → v.holdsAccepted e.number = true) :
    ∀ e ∈ shown.map change, e.kind = .provisional ∨ e.kind = .final → v.holdsAccepted e.number = true := by
  intro changed mem kind
  obtain ⟨e, shown_before, rfl⟩ := List.mem_map.mp mem
  rw [number]
  exact accepted e shown_before (text e kind)

theorem textEntry_of_map {f g : Feed} {change : ShownEntry → ShownEntry} {n : Nat} (shown : g.shown = f.shown.map change)
    (number : ∀ e, (change e).number = e.number)
    (text : ∀ e, e.number = n → e.kind = .provisional ∨ e.kind = .final →
      (change e).kind = .provisional ∨ (change e).kind = .final)
    (entry : f.textEntry n = true) : g.textEntry n = true := by
  obtain ⟨e, mem, is_n, kind⟩ := (Feed.textEntry_iff f n).mp entry
  exact (Feed.textEntry_iff g n).mpr
    ⟨change e, shown ▸ List.mem_map.mpr ⟨e, mem, rfl⟩, (number e).trans is_n, text e is_n kind⟩

theorem confirmEntry_number (n : Nat) (e : ShownEntry) : (confirmEntry n e).number = e.number := by
  unfold confirmEntry; split <;> rfl

theorem confirmEntry_text (n : Nat) (e : ShownEntry) :
    ((confirmEntry n e).kind = .provisional ∨ (confirmEntry n e).kind = .final) ↔
      (e.kind = .provisional ∨ e.kind = .final) := by
  unfold confirmEntry
  split
  next provisional => simp [provisional.2]
  next => rfl

theorem onCommitted_truthful {v : FeedView} {f : Feed} (n : Nat) (delivers : f.delivering = true)
    (form : f.truthful v) : (onCommitted v n f).truthful v := by
  unfold onCommitted
  split
  next raised =>
    have live : v.cfg.tier = .live := by simp_all
    have other : v.cfg.tier ≠ .delayed := by simp [live]
    obtain ⟨-, -, backed, accepted⟩ := form
    refine raiseNote_truthful delivers other (fun q mem => ?_) rfl
      (accepted_of_map (confirmEntry_number n) (fun e => (confirmEntry_text n e).mp) (accepted other))
    rcases mem_mergeNote mem with mem | ⟨m, rfl⟩
    · exact backed_of_textEntry (fun m _ => textEntry_of_map rfl (confirmEntry_number n)
        fun e _ => (confirmEntry_text n e).mpr) (backed q mem)
    · rfl
  next => exact form

theorem onReplaced_truthful {v : FeedView} {f : Feed} (n : Nat) (delivers : f.delivering = true)
    (form : f.truthful v) : (onReplaced v n f).truthful v := by
  unfold onReplaced
  split
  next raised =>
    simp only [Bool.and_eq_true, decide_eq_true_eq] at raised
    obtain ⟨other, entry⟩ := raised
    obtain ⟨-, -, backed, accepted⟩ := form
    exact raiseNote_truthful delivers other backed entry (accepted other)
  next => exact form

theorem clsOf_filter_lt (us : List TUnit) {n m : Nat} (below : m < n) :
    clsOf (us.filter fun u => decide (u.number < n)) m = clsOf us m := by
  simp only [clsOf, List.find?_filter]
  congr 2
  funext u
  by_cases is_m : u.number = m <;> simp [is_m, below]

/-- The units numbered n and above have left: a feed's entries for them leave SHOWN, and their notes the list. -/
theorem onRetracted_truthful {v w : FeedView} {f : Feed} (n : Nat) (delivers : f.delivering = true) (cfg : v.cfg = w.cfg)
    (units : v.units = w.units.filter fun u => decide (u.number < n)) (form : f.truthful w) :
    (onRetracted v n f).truthful v := by
  obtain ⟨-, delayed, backed, accepted⟩ := form
  unfold onRetracted
  split
  next tier => exact truthful_of_delayed delivers tier (delayed (cfg ▸ tier))
  next tier =>
    have other : w.cfg.tier ≠ .delayed := cfg ▸ tier
    have accepted_below : ∀ e ∈ f.shown, e.number < n → e.kind = .provisional ∨ e.kind = .final →
        v.holdsAccepted e.number = true := fun e mem below kind => by
      have held := accepted other e mem kind
      simpa [FeedView.holdsAccepted, FeedView.accepts, units, clsOf_filter_lt _ below, cfg] using held
    have moved : ∀ g : Feed, g = (if n ≤ f.cursor then { f with cursor := n - 1 } else f) →
        g.delivering = true ∧ g.shown = f.shown ∧ g.changes = f.changes := by
      rintro g rfl
      split <;> exact ⟨delivers, rfl, rfl⟩
    obtain ⟨g_delivers, g_shown, g_changes⟩ := moved _ rfl
    dsimp only
    generalize (if n ≤ f.cursor then ({ f with cursor := n - 1 } : Feed) else f) = g at *
    split
    next =>
      refine raiseNote_truthful (by simpa [Feed.delivering] using g_delivers) tier (fun q mem => ?_) rfl ?_
      · rcases mem_mergeNote mem with mem' | ⟨m, rfl⟩
        · refine backed_of_textEntry (f := f) (fun m is_replace entry => ?_) (backed q (g_changes ▸ mem'))
          subst is_replace
          have below : m < n := by
            simp only [mergeNote, List.mem_filterMap] at mem
            obtain ⟨p, -, merged⟩ := mem
            unfold retractMerge at merged
            (repeat' split at merged) <;> simp_all [ChangeNote.number]
          obtain ⟨e, shown, is_m, kind⟩ := (Feed.textEntry_iff f m).mp entry
          exact (Feed.textEntry_iff _ m).mpr
            ⟨e, List.mem_filter.mpr ⟨g_shown ▸ shown, by simpa [is_m] using below⟩, is_m, kind⟩
        · rfl
      · intro e mem kind
        obtain ⟨shown, below⟩ := List.mem_filter.mp mem
        exact accepted_below e (g_shown ▸ shown) (by simpa using below) kind
    next none_above =>
      refine ⟨fun idle => absurd idle (by simp [g_delivers]), fun tier' => absurd tier' tier, fun q mem => ?_,
        fun _ e mem kind => ?_⟩
      · rw [backed_of_shown_eq g_shown]
        exact backed q (g_changes ▸ mem)
      · refine accepted_below e (g_shown ▸ mem) ?_ kind
        simp only [List.any_eq_true, decide_eq_true_eq, not_exists, not_and, not_le] at none_above
        exact none_above e (g_shown ▸ mem)

theorem clsOf_cons_ne {u : TUnit} (us : List TUnit) {n : Nat} (other : n ≠ u.number) :
    clsOf (u :: us) n = clsOf us n := by
  simp [clsOf, other.symm]

theorem textEntry_of_filter_ne {f g : Feed} {n m : Nat} (shown : g.shown = f.shown.filter fun e => decide (e.number ≠ n))
    (other : m ≠ n) (entry : f.textEntry m = true) : g.textEntry m = true := by
  obtain ⟨e, mem, is_m, kind⟩ := (Feed.textEntry_iff f m).mp entry
  exact (Feed.textEntry_iff g m).mpr ⟨e, shown ▸ List.mem_filter.mpr ⟨mem, by simpa [is_m] using other⟩, is_m, kind⟩

/-- The head unit has left: a feed past it forgets it, and a delivering feed that is not repaints. -/
theorem onFreed_truthful {v w : FeedView} {f : Feed} {u : TUnit} (cfg : v.cfg = w.cfg) (units : w.units = u :: v.units)
    (form : f.truthful w) : (onFreed v u.number f).truthful v := by
  unfold onFreed
  dsimp only
  split
  next =>
    obtain ⟨idle, delayed, backed, accepted⟩ := form
    refine settle_truthful ⟨fun h => ?_, fun tier => ?_, fun q mem => ?_, fun tier e mem kind => ?_⟩
    · simp [idle h]
    · simp [delayed (cfg ▸ tier)]
    · obtain ⟨queued, other⟩ := List.mem_filter.mp mem
      refine backed_of_textEntry (fun m is_replace entry => textEntry_of_filter_ne rfl ?_ entry) (backed q queued)
      rintro rfl
      simp [is_replace] at other
    · obtain ⟨shown, other⟩ := List.mem_filter.mp mem
      have held := accepted (cfg ▸ tier) e shown kind
      simp only [decide_eq_true_eq] at other
      simpa [FeedView.holdsAccepted, FeedView.accepts, units, clsOf_cons_ne _ other, cfg] using held
  next =>
    split
    next => exact beginRepaint_truthful v v _
    next stopped =>
      have empty := form.1 (by simpa [Feed.delivering] using stopped)
      exact truthful_of_empty empty.1 (by simp [empty.2])

theorem find?_changeUnit (us : List TUnit) {change : TUnit → TUnit} (n m : Nat)
    (number : ∀ u, (change u).number = u.number) :
    (changeUnit n change us).find? (fun u => decide (u.number = m)) =
      (us.find? fun u => decide (u.number = m)).map fun u => if u.number = n then change u else u := by
  rw [changeUnit, List.find?_map]
  congr 2
  funext u
  simp only [Function.comp_apply]
  split
  · rw [number]
  · rfl

theorem clsOf_changeUnit_ne (us : List TUnit) {change : TUnit → TUnit} {n m : Nat}
    (number : ∀ u, (change u).number = u.number) (other : m ≠ n) : clsOf (changeUnit n change us) m = clsOf us m := by
  rw [clsOf, find?_changeUnit us n m number, Option.map_map, clsOf]
  refine Option.map_congr fun u found => ?_
  have is_m : u.number = m := by simpa using List.find?_some found
  rw [Function.comp_apply, if_neg (is_m ▸ other)]

theorem clsOf_changeUnit_same (us : List TUnit) {change : TUnit → TUnit} (n m : Nat)
    (number : ∀ u, (change u).number = u.number) (cls : ∀ u, (change u).cls = u.cls) :
    clsOf (changeUnit n change us) m = clsOf us m := by
  rw [clsOf, find?_changeUnit us n m number, Option.map_map, clsOf]
  refine Option.map_congr fun u _ => ?_
  rw [Function.comp_apply]
  split
  · exact cls u
  · rfl

theorem reclassEntry_number (n : Nat) (c : Cls) (redacted : Bool) (e : ShownEntry) :
    (reclassEntry n c redacted e).number = e.number := by
  unfold reclassEntry; split <;> rfl

theorem reclassEntry_text_of_false (n : Nat) (c : Cls) (e : ShownEntry) : (reclassEntry n c false e).kind = e.kind := by
  unfold reclassEntry; split <;> rfl

theorem reclassEntry_of_ne {n : Nat} {e : ShownEntry} (c : Cls) (redacted : Bool) (other : e.number ≠ n) :
    reclassEntry n c redacted e = e := if_neg other

theorem reclassEntry_redacted {n : Nat} {e : ShownEntry} (c : Cls) (is_n : e.number = n) :
    (reclassEntry n c true e).kind = .redacted := by
  simp [reclassEntry, is_n]

/-- One unit has another class, which a feed that has been sent the unit's text replaces or redacts. -/
theorem onReclassified_truthful {v w : FeedView} {f : Feed} {n : Nat} {c : Cls} (delivers : f.delivering = true)
    (cfg : v.cfg = w.cfg) (class_now : clsOf v.units n = some c) (others : ∀ m, m ≠ n → clsOf v.units m = clsOf w.units m)
    (form : f.truthful w) : (onReclassified v n c f).truthful v := by
  obtain ⟨-, delayed, backed, accepted⟩ := form
  have accepted_others : ∀ e ∈ f.shown, e.number ≠ n → w.cfg.tier ≠ .delayed → e.kind = .provisional ∨ e.kind = .final →
      v.holdsAccepted e.number = true := fun e mem other tier kind => by
    have held := accepted tier e mem kind
    simpa [FeedView.holdsAccepted, FeedView.accepts, others _ other, cfg] using held
  unfold onReclassified
  by_cases tier : v.cfg.tier = .delayed
  · simpa [tier] using truthful_of_delayed delivers tier (delayed (cfg ▸ tier))
  have tier' : w.cfg.tier ≠ .delayed := cfg ▸ tier
  by_cases entry : f.textEntry n = true
  · simp only [tier, entry, ne_eq, not_false_eq_true, decide_true, Bool.and_self, if_true]
    split
    next accepts =>
      refine raiseNote_truthful delivers tier (fun q mem => ?_) ?_ (fun changed mem kind => ?_)
      · exact backed_of_textEntry (fun m _ => textEntry_of_map rfl (reclassEntry_number n c false)
          fun e _ => by rw [reclassEntry_text_of_false]; exact id) (backed q mem)
      · exact textEntry_of_map rfl (reclassEntry_number n c false)
          (fun e _ => by rw [reclassEntry_text_of_false]; exact id) entry
      · obtain ⟨e, shown, rfl⟩ := List.mem_map.mp mem
        rw [reclassEntry_text_of_false] at kind
        rw [reclassEntry_number]
        by_cases is_n : e.number = n
        · simpa [FeedView.holdsAccepted, is_n, class_now] using accepts
        · exact accepted_others e shown is_n tier' kind
    next =>
      refine raiseNote_truthful delivers tier (fun q mem => ?_) rfl (fun changed mem kind => ?_)
      · obtain ⟨queued, not_replace⟩ := List.mem_filter.mp mem
        refine backed_of_textEntry (fun m is_replace => textEntry_of_map rfl (reclassEntry_number n c true)
          fun e is_m => ?_) (backed q queued)
        have other : e.number ≠ n := by
          rintro rfl
          simp [is_replace, is_m] at not_replace
        rw [reclassEntry_of_ne c true other]
        exact id
      · obtain ⟨e, shown, rfl⟩ := List.mem_map.mp mem
        by_cases is_n : e.number = n
        · simp [reclassEntry_redacted c is_n] at kind
        · rw [reclassEntry_of_ne c true is_n] at kind ⊢
          exact accepted_others e shown is_n tier' kind
  · simp only [entry, Bool.and_false, Bool.false_eq_true, if_false]
    refine ⟨fun idle => absurd idle (by simp [delivers]), fun h => absurd h tier, backed, fun _ e mem kind => ?_⟩
    refine accepted_others e mem ?_ tier' kind
    rintro rfl
    exact entry ((Feed.textEntry_iff f e.number).mpr ⟨e, mem, rfl, kind⟩)

theorem onCleared_truthful (v : FeedView) (f : Feed) : (onCleared f).truthful v := by
  unfold onCleared
  dsimp only
  split <;> exact truthful_of_empty rfl rfl

/-! ### Reports at any feed -/

/-- A report to a feed that is not delivering leaves its record empty. -/
theorem onReport_truthful_of_not_delivering {v w : FeedView} {f : Feed} (r : Report) (idle : f.delivering = false)
    (form : f.truthful w) : (onReport v r f).truthful v := by
  obtain ⟨no_changes, no_shown⟩ := form.1 idle
  have empty : f.truthful v := truthful_of_empty no_changes no_shown
  unfold onReport
  split
  next => exact empty
  next =>
    unfold onReportStalled
    split
    · split
      · exact truthful_of_empty no_changes no_shown
      · exact empty
    · unfold onFreed
      dsimp only
      split
      · exact settle_truthful (truthful_of_empty (by simp [no_changes]) (by simp [no_shown]))
      · rw [if_neg (by simpa [Feed.delivering] using idle)]
        exact truthful_of_empty no_changes (by simp [no_shown])
    · exact onCleared_truthful v f
    all_goals exact empty
  next active => simp [Feed.delivering, active] at idle
  next repainting => simp [Feed.delivering, repainting] at idle

/-- What the units held become with a report, as far as the form of a feed record can see it. -/
def Report.follows (r : Report) (before after : List TUnit) : Prop :=
  match r with
  | .retractedFrom n => after = before.filter fun u => decide (u.number < n)
  | .freed n => ∃ u, u.number = n ∧ before = u :: after
  | .reclassified n _ => (∃ c, clsOf after n = some c) ∧ ∀ m, m ≠ n → clsOf after m = clsOf before m
  | .cleared => True
  | .added _ | .committed _ | .firmed _ | .replaced _ => ∀ n c, clsOf before n = some c → clsOf after n = some c

/-- Every report that follows its change of the transcript keeps the form of every feed record. -/
theorem onReport_truthful {v w : FeedView} {f : Feed} {r : Report} (cfg : v.cfg = w.cfg)
    (follows : r.follows w.units v.units) (form : f.truthful w) : (onReport v r f).truthful v := by
  cases delivers : f.delivering with
  | false => exact onReport_truthful_of_not_delivering r delivers form
  | true =>
    have acts : onReport v r f = onReportDelivering v f r := by
      rcases f.delivering_iff.mp delivers with state | state <;> simp only [onReport, state]
    rw [acts]
    cases r with
    | added n | firmed n => exact settle_truthful (truthful_of_classes_kept cfg follows form)
    | committed n =>
      exact settle_truthful (onCommitted_truthful n delivers (truthful_of_classes_kept cfg follows form))
    | replaced n => exact settle_truthful (onReplaced_truthful n delivers (truthful_of_classes_kept cfg follows form))
    | retractedFrom n => exact settle_truthful (onRetracted_truthful n delivers cfg follows form)
    | reclassified n old =>
      obtain ⟨⟨c, class_now⟩, others⟩ := follows
      simp only [onReportDelivering, class_now]
      exact settle_truthful (onReclassified_truthful delivers cfg class_now others form)
    | freed n =>
      obtain ⟨u, rfl, units⟩ := follows
      exact onFreed_truthful cfg units form
    | cleared => exact settle_truthful (onCleared_truthful v f)

end Sys2Proof.Machine
end

section
/-! Every operation keeps the form of the feed records: `<operation>_inForm`. -/

namespace Sys2Proof.Machine

/-- Every feed record is in the form, as a predicate of the records, the feeds' settings and the units held. -/
def recordsInForm (records : Five Feed) (settings : Five FeedSettings) (units : List TUnit) : Prop :=
  ∀ i, (records.get i).truthful { cfg := settings.get i, units := units, now := 0, agedTo := 0, nextNumber := 0 }

theorem feedsTruthful_iff (s : State) :
    s.feedsTruthful ↔ recordsInForm s.feeds.feeds s.settings.feed s.script.units := by
  exact ⟨fun form i => form i (by cases i <;> simp), fun form i _ => form i⟩

/-! ### The operations that report, settle or repaint -/

theorem Five.get_mapId {α β : Type} (t : Five α) (f : FeedId → α → β) (i : FeedId) : (t.mapId f).get i = f i (t.get i) := by
  cases i <;> rfl

theorem Five.get_upd {α : Type} (t : Five α) (i j : FeedId) (f : α → α) :
    (t.upd i f).get j = if j = i then f (t.get j) else t.get j := by
  cases i <;> cases j <;> rfl

theorem report_inForm {r : Report} {s : State} {units : List TUnit} (follows : r.follows units s.script.units)
    (h : recordsInForm s.feeds.feeds s.settings.feed units) :
    recordsInForm (report r s).feeds.feeds s.settings.feed s.script.units := by
  intro i
  rw [report, onFeeds_feeds, Five.get_mapId]
  exact truthful_congr (w := s.view i) rfl rfl (onReport_truthful (w := { s.view i with units := units }) rfl follows (h i))

/-- One feed's record changed: the form is kept when that record's is. -/
theorem onFeed_inForm {s : State} (i : FeedId) {f : Feed → Feed}
    (one : ∀ x : Feed, x.truthful (s.view i) → (f x).truthful (s.view i)) {G : Five FeedSettings}
    (hG : s.settings.feed = G) (h : recordsInForm s.feeds.feeds G s.script.units) :
    recordsInForm (s.onFeed i f).feeds.feeds G s.script.units := by
  subst hG
  intro j
  rw [State.onFeed, onFeeds_feeds, Five.get_upd]
  split
  next same => subst same; exact one _ (h j)
  next => exact h j

/-- Each record changed in its own way. -/
theorem onFeeds_inForm {s : State} {f : FeedId → Feed → Feed}
    (each : ∀ i, ∀ x : Feed, x.truthful (s.view i) → (f i x).truthful (s.view i)) {G : Five FeedSettings}
    (hG : s.settings.feed = G) (h : recordsInForm s.feeds.feeds G s.script.units) :
    recordsInForm (s.onFeeds fun m => { m with feeds := m.feeds.mapId f }).feeds.feeds G s.script.units := by
  subst hG
  intro i
  rw [onFeeds_feeds, Five.get_mapId]
  exact each i _ (h i)

/-! ### The transcript's own operations -/

/-- A held unit changed in neither number nor class. -/
theorem classes_kept_of_changeUnit {us : List TUnit} {change : TUnit → TUnit} (n : Nat)
    (number : ∀ u, (change u).number = u.number) (cls : ∀ u, (change u).cls = u.cls) (m : Nat) (c : Cls)
    (held : clsOf us m = some c) : clsOf (changeUnit n change us) m = some c :=
  (clsOf_changeUnit_same us n m number cls).trans held

theorem classes_kept_of_append {us : List TUnit} (u : TUnit) (m : Nat) (c : Cls) (held : clsOf us m = some c) :
    clsOf (us ++ [u]) m = some c := by
  simp only [clsOf, Option.map_eq_some_iff] at held ⊢
  obtain ⟨x, found, cls⟩ := held
  exact ⟨x, by simp [List.find?_append, found], cls⟩

@[simp] theorem foldl_inForm {α : Type} (g : State → α → State) (l : List α) (s : State) {G : Five FeedSettings}
    (settings : ∀ s a, (g s a).settings.feed = s.settings.feed)
    (step : ∀ s a, s.settings.feed = G → recordsInForm s.feeds.feeds G s.script.units →
      recordsInForm (g s a).feeds.feeds G (g s a).script.units)
    (hG : s.settings.feed = G) (h : recordsInForm s.feeds.feeds G s.script.units) :
    recordsInForm (l.foldl g s).feeds.feeds G (l.foldl g s).script.units := by
  induction l generalizing s with
  | nil => exact h
  | cons a l ih => exact ih _ ((settings s a).trans hG) (step s a hG h)

@[simp] theorem firmUnit_inForm (n : Nat) (s : State) {G : Five FeedSettings}
    (hG : s.settings.feed = G) (h : recordsInForm s.feeds.feeds G s.script.units) :
    recordsInForm (firmUnit n s).feeds.feeds G (firmUnit n s).script.units := by
  subst hG
  exact report_inForm (s := s.onScript _) (classes_kept_of_changeUnit n (fun _ => rfl) fun _ => rfl) h

@[simp] theorem replaceUnit_inForm (n : Nat) (f : TUnit → TUnit) (s : State) (number : ∀ u, (f u).number = u.number)
    (cls : ∀ u, (f u).cls = u.cls) {G : Five FeedSettings}
    (hG : s.settings.feed = G) (h : recordsInForm s.feeds.feeds G s.script.units) :
    recordsInForm (replaceUnit n f s).feeds.feeds G (replaceUnit n f s).script.units := by
  subst hG
  exact report_inForm (s := s.onScript _) (classes_kept_of_changeUnit n number cls) h

@[simp] theorem retractFrom_inForm (n : Nat) (s : State) {G : Five FeedSettings}
    (hG : s.settings.feed = G) (h : recordsInForm s.feeds.feeds G s.script.units) :
    recordsInForm (retractFrom n s).feeds.feeds G (retractFrom n s).script.units := by
  subst hG
  exact report_inForm (s := s.onScript _) (r := .retractedFrom n) rfl h

@[simp] theorem breakLock_units (n : Nat) (s : State) : (breakLock n s).script.units = s.script.units := by
  unfold breakLock
  split <;> simp

@[simp] theorem freeHead_inForm (s : State) {G : Five FeedSettings}
    (hG : s.settings.feed = G) (h : recordsInForm s.feeds.feeds G s.script.units) :
    recordsInForm (freeHead s).feeds.feeds G (freeHead s).script.units := by
  subst hG
  unfold freeHead
  split
  next => exact h
  next u us held =>
    let t := dropUntranslate u.number
      (s.onScript fun x => { x with units := us, unitsFreed := x.unitsFreed + 1 })
    have freed := report_inForm (s := t) (r := .freed u.number) (units := s.script.units) ⟨u, rfl, held⟩ h
    simpa [t] using freed

@[simp] theorem firmOldest_inForm (k : Nat) (s : State) {G : Five FeedSettings}
    (hG : s.settings.feed = G) (h : recordsInForm s.feeds.feeds G s.script.units) :
    recordsInForm (firmOldest k s).feeds.feeds G (firmOldest k s).script.units := by
  fun_induction firmOldest k s <;> simp_all

@[simp] theorem firmByCount_inForm (s : State) {G : Five FeedSettings}
    (hG : s.settings.feed = G) (h : recordsInForm s.feeds.feeds G s.script.units) :
    recordsInForm (firmByCount s).feeds.feeds G (firmByCount s).script.units :=
  firmOldest_inForm _ s hG h

theorem report_added_inForm {s : State} {f : Transcript → Transcript} {x : TUnit} (n : Nat) {G : Five FeedSettings}
    (hG : s.settings.feed = G) (h : recordsInForm s.feeds.feeds G s.script.units)
    (appended : (f s.script).units = s.script.units ++ [x]) :
    recordsInForm (report (.added n) (s.onScript f)).feeds.feeds G (report (.added n) (s.onScript f)).script.units := by
  subst hG
  refine report_inForm (s := s.onScript f) (r := .added n) (units := s.script.units) ?_ h
  rw [onScript_script, appended]
  exact classes_kept_of_append x

@[simp] theorem createUnit_inForm (u : TUnit) (s : State) {G : Five FeedSettings}
    (hG : s.settings.feed = G) (h : recordsInForm s.feeds.feeds G s.script.units) :
    recordsInForm (createUnit u s).feeds.feeds G (createUnit u s).script.units := by
  subst hG
  unfold createUnit
  dsimp only
  have room : ∀ t : State, t = (if Config.unitsMax ≤ s.script.units.length then freeHead s else s) →
      t.settings.feed = s.settings.feed ∧ recordsInForm t.feeds.feeds s.settings.feed t.script.units := by
    rintro t rfl
    split <;> simp [h]
  obtain ⟨room_settings, room_form⟩ := room _ rfl
  generalize (if Config.unitsMax ≤ s.script.units.length then freeHead s else s) = t at *
  have added := fun f x appended => report_added_inForm (f := f) (x := x) t.script.nextNumber room_settings room_form appended
  split
  · exact firmByCount_inForm _ (by simpa using room_settings) (added _ _ rfl)
  · exact added _ _ rfl

@[simp] theorem promoteUnit_inForm (n : Nat) (s : State) {G : Five FeedSettings}
    (hG : s.settings.feed = G) (h : recordsInForm s.feeds.feeds G s.script.units) :
    recordsInForm (promoteUnit n s).feeds.feeds G (promoteUnit n s).script.units := by
  subst hG
  refine firmByCount_inForm _ (by simp) ?_
  exact report_inForm (s := s.onScript _) (r := .committed n)
    (classes_kept_of_changeUnit n (fun _ => rfl) fun _ => rfl) h

@[simp] theorem settleFeed_inForm (i : FeedId) (s : State)
    {G : Five FeedSettings} (hG : s.settings.feed = G) (h : recordsInForm s.feeds.feeds G s.script.units) :
    recordsInForm (settleFeed i s).feeds.feeds G s.script.units :=
  onFeed_inForm i (fun _ => settle_truthful) hG h

@[simp] theorem repaintFeed_inForm (i : FeedId) (s : State)
    {G : Five FeedSettings} (hG : s.settings.feed = G) (h : recordsInForm s.feeds.feeds G s.script.units) :
    recordsInForm (repaintFeed i s).feeds.feeds G s.script.units :=
  onFeed_inForm i (fun _ _ => beginRepaint_truthful _ _ _) hG h

@[simp] theorem settleAll_inForm (s : State)
    {G : Five FeedSettings} (hG : s.settings.feed = G) (h : recordsInForm s.feeds.feeds G s.script.units) :
    recordsInForm (settleAll s).feeds.feeds G s.script.units :=
  onFeeds_inForm (fun _ _ => settle_truthful) hG h

/-- A choice between two states in form. -/
@[simp] theorem ite_inForm {c : Prop} [Decidable c] {s t : State} {G : Five FeedSettings}
    (then_form : c → recordsInForm s.feeds.feeds G s.script.units)
    (else_form : ¬ c → recordsInForm t.feeds.feeds G t.script.units) :
    recordsInForm (if c then s else t).feeds.feeds G (if c then s else t).script.units := by
  split
  next yes => exact then_form yes
  next no => exact else_form no

@[simp] theorem ite_settings {c : Prop} [Decidable c] {s t : State} {G : Settings}
    (then_same : c → s.settings = G) (else_same : ¬ c → t.settings = G) : (if c then s else t).settings = G := by
  split
  next yes => exact then_same yes
  next no => exact else_same no

@[simp] theorem firmByTime_inForm (s : State)
    {G : Five FeedSettings} (hG : s.settings.feed = G) (h : recordsInForm s.feeds.feeds G s.script.units) :
    recordsInForm (firmByTime s).feeds.feeds G (firmByTime s).script.units := by
  subst hG
  unfold firmByTime
  simp [h]

@[simp] theorem commitUnit_inForm (u : TUnit) (s : State)
    {G : Five FeedSettings} (hG : s.settings.feed = G) (h : recordsInForm s.feeds.feeds G s.script.units) :
    recordsInForm (commitUnit u s).feeds.feeds G (commitUnit u s).script.units := by
  subst hG
  unfold commitUnit
  simp [h]

@[simp] theorem createFormed_inForm (n : NewUnit) (s : State)
    {G : Five FeedSettings} (hG : s.settings.feed = G) (h : recordsInForm s.feeds.feeds G s.script.units) :
    recordsInForm (createFormed n s).feeds.feeds G (createFormed n s).script.units := by
  subst hG
  unfold createFormed
  (repeat' split) <;> simp [h]

@[simp] theorem promoteKept_inForm (x0 : List TUnit) (x1 : List NewUnit) (x2 : State)
    {G : Five FeedSettings} (hG : x2.settings.feed = G) (h : recordsInForm x2.feeds.feeds G x2.script.units) :
    recordsInForm (promoteKept x0 x1 x2).feeds.feeds G (promoteKept x0 x1 x2).script.units := by
  fun_induction promoteKept x0 x1 x2 <;> simp_all

@[simp] theorem reconcile_inForm (new : List NewUnit) (s : State)
    {G : Five FeedSettings} (hG : s.settings.feed = G) (h : recordsInForm s.feeds.feeds G s.script.units) :
    recordsInForm (reconcile new s).feeds.feeds G (reconcile new s).script.units := by
  subst hG
  unfold reconcile
  refine foldl_inForm _ _ _ (by simp) (fun s n => createFormed_inForm n s) ?_ ?_
  · split <;> simp
  · split
    · simp [h]
    · exact promoteKept_inForm _ _ _ (by simp) (by simp [h])

@[simp] theorem resolveHold_inForm (s : State)
    {G : Five FeedSettings} (hG : s.settings.feed = G) (h : recordsInForm s.feeds.feeds G s.script.units) :
    recordsInForm (resolveHold s).feeds.feeds G (resolveHold s).script.units := by
  subst hG
  unfold resolveHold
  simpa using foldl_inForm (fun s u => commitUnit u s) s.script.provisionals s (by simp)
    (fun s u => commitUnit_inForm u s) rfl h

@[simp] theorem insertNote_inForm (n : Note) (s : State)
    {G : Five FeedSettings} (hG : s.settings.feed = G) (h : recordsInForm s.feeds.feeds G s.script.units) :
    recordsInForm (insertNote n s).feeds.feeds G (insertNote n s).script.units := by
  subst hG
  unfold insertNote
  simp [h]

@[simp] theorem insertQueued_inForm (n : Note) (s : State)
    {G : Five FeedSettings} (hG : s.settings.feed = G) (h : recordsInForm s.feeds.feeds G s.script.units) :
    recordsInForm (insertQueued n s).feeds.feeds G (insertQueued n s).script.units := by
  subst hG
  unfold insertQueued
  simp [h]

@[simp] theorem insertNotes_inForm (s : State)
    {G : Five FeedSettings} (hG : s.settings.feed = G) (h : recordsInForm s.feeds.feeds G s.script.units) :
    recordsInForm (insertNotes s).feeds.feeds G (insertNotes s).script.units := by
  subst hG
  unfold insertNotes
  split
  · simpa using foldl_inForm (fun s n => insertQueued n s) s.trans.notes s (by simp)
      (fun s n => insertQueued_inForm n s) rfl h
  · exact h

@[simp] theorem resolveOrder_inForm (s : State)
    {G : Five FeedSettings} (hG : s.settings.feed = G) (h : recordsInForm s.feeds.feeds G s.script.units) :
    recordsInForm (resolveOrder s).feeds.feeds G (resolveOrder s).script.units := by
  subst hG
  unfold resolveOrder
  (repeat' split)
  · simp [h]
  · exact h
  · exact insertNotes_inForm _ (by simp) (by simp [h])

@[simp] theorem insertNoteRule_inForm (tag : Byte) (payload : Bytes) (s : State)
    {G : Five FeedSettings} (hG : s.settings.feed = G) (h : recordsInForm s.feeds.feeds G s.script.units) :
    recordsInForm (insertNoteRule tag payload s).1.feeds.feeds G (insertNoteRule tag payload s).1.script.units := by
  subst hG
  unfold insertNoteRule
  dsimp only
  (repeat' split) <;> simp [h]

@[simp] theorem forcePass_inForm (off : Pos) (on : Pos) (cause : FloorCause) (s : State)
    {G : Five FeedSettings} (hG : s.settings.feed = G) (h : recordsInForm s.feeds.feeds G s.script.units) :
    recordsInForm (forcePass off on cause s).feeds.feeds G (forcePass off on cause s).script.units := by
  subst hG
  unfold forcePass
  simp [h]

@[simp] theorem losePos_inForm (p : Pos) (st : PosState) (s : State)
    {G : Five FeedSettings} (hG : s.settings.feed = G) (h : recordsInForm s.feeds.feeds G s.script.units) :
    recordsInForm (losePos p st s).feeds.feeds G (losePos p st s).script.units := by
  subst hG
  unfold losePos
  simp [h]

@[simp] theorem withdraw_inForm (p : Pos) (st : PosState) (s : State)
    {G : Five FeedSettings} (hG : s.settings.feed = G) (h : recordsInForm s.feeds.feeds G s.script.units) :
    recordsInForm (withdraw p st s).feeds.feeds G (withdraw p st s).script.units := by
  subst hG
  unfold withdraw
  (repeat' split) <;> simp [h]

@[simp] theorem forceByWait_inForm (s : State)
    {G : Five FeedSettings} (hG : s.settings.feed = G) (h : recordsInForm s.feeds.feeds G s.script.units) :
    recordsInForm (forceByWait s).feeds.feeds G (forceByWait s).script.units := by
  subst hG
  unfold forceByWait
  (repeat' split) <;> simp [h]

@[simp] theorem disposeRequesting_inForm (x : StrokeRec) (s : State)
    {G : Five FeedSettings} (hG : s.settings.feed = G) (h : recordsInForm s.feeds.feeds G s.script.units) :
    recordsInForm (disposeRequesting x s).feeds.feeds G (disposeRequesting x s).script.units := by
  subst hG
  unfold disposeRequesting
  (repeat' split) <;> simp [h]

@[simp] theorem dispose_inForm (x : StrokeRec) (s : State)
    {G : Five FeedSettings} (hG : s.settings.feed = G) (h : recordsInForm s.feeds.feeds G s.script.units) :
    recordsInForm (dispose x s).feeds.feeds G (dispose x s).script.units := by
  subst hG
  unfold dispose
  (repeat' split) <;> simp [h]

@[simp] theorem floorLinkDown_inForm (p : Pos) (s : State)
    {G : Five FeedSettings} (hG : s.settings.feed = G) (h : recordsInForm s.feeds.feeds G s.script.units) :
    recordsInForm (floorLinkDown p s).feeds.feeds G (floorLinkDown p s).script.units := by
  subst hG
  unfold floorLinkDown
  (repeat' split) <;> simp [h]

@[simp] theorem firmAll_inForm (s : State)
    {G : Five FeedSettings} (hG : s.settings.feed = G) (h : recordsInForm s.feeds.feeds G s.script.units) :
    recordsInForm (firmAll s).feeds.feeds G (firmAll s).script.units := by
  subst hG
  unfold firmAll
  simp [h]

@[simp] theorem holdResolved_inForm (s : State)
    {G : Five FeedSettings} (hG : s.settings.feed = G) (h : recordsInForm s.feeds.feeds G s.script.units) :
    recordsInForm (holdResolved s).feeds.feeds G (holdResolved s).script.units := by
  subst hG
  unfold holdResolved
  have firm := firmAll_inForm (s.onScript fun t => { t with resolved := true }) (G := s.settings.feed) (by simp) (by simpa)
  simpa using firm

@[simp] theorem reportResolved_inForm (s : State)
    {G : Five FeedSettings} (hG : s.settings.feed = G) (h : recordsInForm s.feeds.feeds G s.script.units) :
    recordsInForm (reportResolved s).feeds.feeds G (reportResolved s).script.units := by
  subst hG
  unfold reportResolved
  (repeat' split) <;> simp [h]

@[simp] theorem afterRest_inForm (s : State)
    {G : Five FeedSettings} (hG : s.settings.feed = G) (h : recordsInForm s.feeds.feeds G s.script.units) :
    recordsInForm (afterRest s).feeds.feeds G (afterRest s).script.units := by
  subst hG
  unfold afterRest
  simp [h]

@[simp] theorem finishPending_inForm (s : State)
    {G : Five FeedSettings} (hG : s.settings.feed = G) (h : recordsInForm s.feeds.feeds G s.script.units) :
    recordsInForm (finishPending s).feeds.feeds G (finishPending s).script.units := by
  subst hG
  unfold finishPending
  (repeat' split) <;> simp [h]

@[simp] theorem reportFinish_inForm (s : State)
    {G : Five FeedSettings} (hG : s.settings.feed = G) (h : recordsInForm s.feeds.feeds G s.script.units) :
    recordsInForm (reportFinish s).feeds.feeds G (reportFinish s).script.units := by
  subst hG
  unfold reportFinish
  simp [h]

@[simp] theorem finishStroke_inForm (s : State)
    {G : Five FeedSettings} (hG : s.settings.feed = G) (h : recordsInForm s.feeds.feeds G s.script.units) :
    recordsInForm (finishStroke s).feeds.feeds G (finishStroke s).script.units := by
  subst hG
  unfold finishStroke
  split
  · exact h
  · exact reportFinish_inForm _ (by simp) (finishPending_inForm _ (by simp) (by simp [h]))

@[simp] theorem undoNewest_inForm (s : State)
    {G : Five FeedSettings} (hG : s.settings.feed = G) (h : recordsInForm s.feeds.feeds G s.script.units) :
    recordsInForm (undoNewest s).feeds.feeds G (undoNewest s).script.units := by
  subst hG
  unfold undoNewest
  (repeat' split) <;> simp [h]

@[simp] theorem undoAtTake_inForm (x : StrokeRec) (s : State)
    {G : Five FeedSettings} (hG : s.settings.feed = G) (h : recordsInForm s.feeds.feeds G s.script.units) :
    recordsInForm (undoAtTake x s).feeds.feeds G (undoAtTake x s).script.units := by
  subst hG
  unfold undoAtTake
  (repeat' split) <;> simp [h]

@[simp] theorem holdExpire_inForm (s : State)
    {G : Five FeedSettings} (hG : s.settings.feed = G) (h : recordsInForm s.feeds.feeds G s.script.units) :
    recordsInForm (holdExpire s).feeds.feeds G (holdExpire s).script.units := by
  subst hG
  unfold holdExpire
  (repeat' split) <;> simp [h]

@[simp] theorem finishIfDone_inForm (s : State)
    {G : Five FeedSettings} (hG : s.settings.feed = G) (h : recordsInForm s.feeds.feeds G s.script.units) :
    recordsInForm (finishIfDone s).feeds.feeds G (finishIfDone s).script.units := by
  subst hG
  unfold finishIfDone
  (repeat' split) <;> simp [h]

@[simp] theorem deliver_inForm (l : Lookup) (ended : Bool) (s : State)
    {G : Five FeedSettings} (hG : s.settings.feed = G) (h : recordsInForm s.feeds.feeds G s.script.units) :
    recordsInForm (deliver l ended s).feeds.feeds G (deliver l ended s).script.units := by
  subst hG
  unfold deliver
  (repeat' split) <;> simp [h]

@[simp] theorem completeLookup_inForm (l : Lookup) (ended : Bool) (s : State)
    {G : Five FeedSettings} (hG : s.settings.feed = G) (h : recordsInForm s.feeds.feeds G s.script.units) :
    recordsInForm (completeLookup l ended s).feeds.feeds G (completeLookup l ended s).script.units := by
  subst hG
  unfold completeLookup
  simp [h]

@[simp] theorem walkStep_inForm (l : Lookup) (s : State)
    {G : Five FeedSettings} (hG : s.settings.feed = G) (h : recordsInForm s.feeds.feeds G s.script.units) :
    recordsInForm (walkStep l s).feeds.feeds G (walkStep l s).script.units := by
  subst hG
  unfold walkStep
  dsimp only
  (repeat' split)
  · exact completeLookup_inForm _ _ _ (by simp) (by simp [h])
  · exact completeLookup_inForm _ _ _ (by simp) (by simp [h])
  · exact completeLookup_inForm _ _ _ (by simp) (by simp [h])
  · simp [h]

@[simp] theorem lookupRead_inForm (c : Client) (s : State)
    {G : Five FeedSettings} (hG : s.settings.feed = G) (h : recordsInForm s.feeds.feeds G s.script.units) :
    recordsInForm (lookupRead c s).feeds.feeds G (lookupRead c s).script.units := by
  subst hG
  unfold lookupRead
  (repeat' split) <;> simp [h]

@[simp] theorem endLookups_inForm (x0 : List Lookup) (x1 : State)
    {G : Five FeedSettings} (hG : x1.settings.feed = G) (h : recordsInForm x1.feeds.feeds G x1.script.units) :
    recordsInForm (endLookups x0 x1).feeds.feeds G (endLookups x0 x1).script.units := by
  fun_induction endLookups x0 x1 <;> simp_all

@[simp] theorem endLookupsOf_inForm (p : Lookup → Bool) (s : State)
    {G : Five FeedSettings} (hG : s.settings.feed = G) (h : recordsInForm s.feeds.feeds G s.script.units) :
    recordsInForm (endLookupsOf p s).feeds.feeds G (endLookupsOf p s).script.units := by
  subst hG
  exact endLookups_inForm _ _ (by simp) (by simp [h])

@[simp] theorem eraseDict_inForm (d : Dict) (s : State)
    {G : Five FeedSettings} (hG : s.settings.feed = G) (h : recordsInForm s.feeds.feeds G s.script.units) :
    recordsInForm (eraseDict d s).feeds.feeds G (eraseDict d s).script.units := by
  subst hG
  exact endLookupsOf_inForm _ _ (by simp) (by simp [h])

@[simp] theorem formatDicts_inForm (s : State)
    {G : Five FeedSettings} (hG : s.settings.feed = G) (h : recordsInForm s.feeds.feeds G s.script.units) :
    recordsInForm (formatDicts s).feeds.feeds G (formatDicts s).script.units := by
  subst hG
  exact endLookupsOf_inForm _ _ (by simp) (by simp [h])

theorem globalRewrite_inForm (o : List Nat) (text : Bytes) (l : List (Nat × Nat)) (r : State × Nat × Nat)
    {G : Five FeedSettings} (hG : r.1.settings.feed = G) (h : recordsInForm r.1.feeds.feeds G r.1.script.units) :
    recordsInForm (globalRewrite o text l r).1.feeds.feeds G (globalRewrite o text l r).1.script.units := by
  induction l generalizing r with
  | nil => exact h
  | cons e l ih =>
    obtain ⟨s, rewritten, skipped⟩ := r
    refine ih _ ?_ ?_
    · (repeat' split) <;> simpa using hG
    · (repeat' split)
      · exact h
      · exact h
      · simpa using replaceUnit_inForm e.1 (globalUnit text) s (fun _ => rfl) (fun _ => rfl) hG h

@[simp] theorem acceptAdd_inForm (d : Dict) (global : Bool) (o : List ℕ) (text : Bytes) (s : State)
    {G : Five FeedSettings} (hG : s.settings.feed = G) (h : recordsInForm s.feeds.feeds G s.script.units) :
    recordsInForm (acceptAdd d global o text s).1.feeds.feeds G (acceptAdd d global o text s).1.script.units := by
  subst hG
  unfold acceptAdd
  dsimp only
  split
  · exact globalRewrite_inForm o text _ _ (by simp) (by simpa using h)
  · simpa using h

@[simp] theorem entryAddRule_inForm (p : Bytes) (s : State)
    {G : Five FeedSettings} (hG : s.settings.feed = G) (h : recordsInForm s.feeds.feeds G s.script.units) :
    recordsInForm (entryAddRule p s).1.feeds.feeds G (entryAddRule p s).1.script.units := by
  subst hG
  unfold entryAddRule
  dsimp only
  (repeat' split) <;> simp [h]

@[simp] theorem entryLookupRule_inForm (tag : Byte) (p : Bytes) (s : State)
    {G : Five FeedSettings} (hG : s.settings.feed = G) (h : recordsInForm s.feeds.feeds G s.script.units) :
    recordsInForm (entryLookupRule tag p s).1.feeds.feeds G (entryLookupRule tag p s).1.script.units := by
  subst hG
  unfold entryLookupRule
  dsimp only
  (repeat' split) <;> simp [h]

@[simp] theorem readEnded_inForm (r : ReadFor) (s : State)
    {G : Five FeedSettings} (hG : s.settings.feed = G) (h : recordsInForm s.feeds.feeds G s.script.units) :
    recordsInForm (readEnded r s).feeds.feeds G (readEnded r s).script.units := by
  subst hG
  unfold readEnded
  dsimp only
  split
  · simpa using h
  · exact lookupRead_inForm _ _ (by simp) (by simpa)
  · simpa using h
  · simpa using h

@[simp] theorem takeFormat_inForm (tag : Byte) (p : Bytes) (s : State)
    {G : Five FeedSettings} (hG : s.settings.feed = G) (h : recordsInForm s.feeds.feeds G s.script.units) :
    recordsInForm (takeFormat tag p s).feeds.feeds G (takeFormat tag p s).script.units := by
  subst hG
  unfold takeFormat
  simp [h]

@[simp] theorem formatRule_inForm (tag : Byte) (p : Bytes) (s : State)
    {G : Five FeedSettings} (hG : s.settings.feed = G) (h : recordsInForm s.feeds.feeds G s.script.units) :
    recordsInForm (formatRule tag p s).1.feeds.feeds G (formatRule tag p s).1.script.units := by
  subst hG
  unfold formatRule
  (repeat' split) <;> simp [h]

@[simp] theorem takeErase_inForm (tag : Byte) (d : Dict) (s : State)
    {G : Five FeedSettings} (hG : s.settings.feed = G) (h : recordsInForm s.feeds.feeds G s.script.units) :
    recordsInForm (takeErase tag d s).feeds.feeds G (takeErase tag d s).script.units := by
  subst hG
  unfold takeErase
  refine eraseDict_inForm _ _ ?_ ?_ <;> split <;> simp [h]

@[simp] theorem eraseRule_inForm (tag : Byte) (p : Bytes) (s : State)
    {G : Five FeedSettings} (hG : s.settings.feed = G) (h : recordsInForm s.feeds.feeds G s.script.units) :
    recordsInForm (eraseRule tag p s).1.feeds.feeds G (eraseRule tag p s).1.script.units := by
  subst hG
  unfold eraseRule
  (repeat' split) <;> simp [h]

@[simp] theorem numberStroke_inForm (r : StrokeRec) (lost : Bool) (s : State)
    {G : Five FeedSettings} (hG : s.settings.feed = G) (h : recordsInForm s.feeds.feeds G s.script.units) :
    recordsInForm (numberStroke r lost s).feeds.feeds G (numberStroke r lost s).script.units := by
  subst hG
  unfold numberStroke
  (repeat' split) <;> simp [h]

@[simp] theorem closeStroke_inForm (p : Pos) (held : Bool) (damaged : Bool) (lost : Bool) (s : State)
    {G : Five FeedSettings} (hG : s.settings.feed = G) (h : recordsInForm s.feeds.feeds G s.script.units) :
    recordsInForm (closeStroke p held damaged lost s).feeds.feeds G (closeStroke p held damaged lost s).script.units := by
  subst hG
  unfold closeStroke
  dsimp only
  (repeat' split)
  · exact h
  · exact numberStroke_inForm _ _ _ (by simp) (by simpa)
  · simpa

@[simp] theorem closeHeld_inForm (p : Pos) (s : State)
    {G : Five FeedSettings} (hG : s.settings.feed = G) (h : recordsInForm s.feeds.feeds G s.script.units) :
    recordsInForm (closeHeld p s).feeds.feeds G (closeHeld p s).script.units := by
  subst hG
  unfold closeHeld
  (repeat' split) <;> simp [h]

@[simp] theorem formerReport_inForm (p : Pos) (k : Keys) (s : State)
    {G : Five FeedSettings} (hG : s.settings.feed = G) (h : recordsInForm s.feeds.feeds G s.script.units) :
    recordsInForm (formerReport p k s).feeds.feeds G (formerReport p k s).script.units := by
  subst hG
  unfold formerReport
  dsimp only
  (repeat' split) <;> simp [h]

@[simp] theorem linkDown_inForm (p : Pos) (s : State)
    {G : Five FeedSettings} (hG : s.settings.feed = G) (h : recordsInForm s.feeds.feeds G s.script.units) :
    recordsInForm (linkDown p s).feeds.feeds G (linkDown p s).script.units := by
  subst hG
  unfold linkDown
  have closed := closeStroke_inForm p false true true (s.onLink p fun l =>
    { l with link := .down, lastReport := none, silenceFrom := none, linkDowns := l.linkDowns + 1 })
    (G := s.settings.feed) (by simp) (by simpa)
  simpa using floorLinkDown_inForm p (latch p 0 _) (by simp) (by simpa using closed)

@[simp] theorem validReport_inForm (p : Pos) (k : Keys) (s : State)
    {G : Five FeedSettings} (hG : s.settings.feed = G) (h : recordsInForm s.feeds.feeds G s.script.units) :
    recordsInForm (validReport p k s).feeds.feeds G (validReport p k s).script.units := by
  subst hG
  unfold validReport
  simp [h]

@[simp] theorem completeReport_inForm (p : Pos) (b0 : Byte) (b1 : Byte) (b2 : Byte) (b3 : Byte) (s : State)
    {G : Five FeedSettings} (hG : s.settings.feed = G) (h : recordsInForm s.feeds.feeds G s.script.units) :
    recordsInForm (completeReport p b0 b1 b2 b3 s).feeds.feeds G (completeReport p b0 b1 b2 b3 s).script.units := by
  subst hG
  unfold completeReport
  (repeat' split) <;> simp [h]

@[simp] theorem keyChar_inForm (p : Pos) (c : Byte) (s : State)
    {G : Five FeedSettings} (hG : s.settings.feed = G) (h : recordsInForm s.feeds.feeds G s.script.units) :
    recordsInForm (keyChar p c s).feeds.feeds G (keyChar p c s).script.units := by
  subst hG
  unfold keyChar
  (repeat' split) <;> simp [h]

@[simp] theorem keyChars_inForm (p : Pos) (cs : Bytes) (s : State)
    {G : Five FeedSettings} (hG : s.settings.feed = G) (h : recordsInForm s.feeds.feeds G s.script.units) :
    recordsInForm (keyChars p cs s).feeds.feeds G (keyChars p cs s).script.units := by
  subst hG
  exact foldl_inForm (fun s c => keyChar p c s) cs s (by simp) (fun s c => keyChar_inForm p c s) rfl h

@[simp] theorem disablePos_inForm (p : Pos) (s : State)
    {G : Five FeedSettings} (hG : s.settings.feed = G) (h : recordsInForm s.feeds.feeds G s.script.units) :
    recordsInForm (disablePos p s).feeds.feeds G (disablePos p s).script.units := by
  subst hG
  unfold disablePos
  (repeat' split) <;> simp [h]

@[simp] theorem writerEnableRule_inForm (payload : Bytes) (s : State)
    {G : Five FeedSettings} (hG : s.settings.feed = G) (h : recordsInForm s.feeds.feeds G s.script.units) :
    recordsInForm (writerEnableRule payload s).1.feeds.feeds G (writerEnableRule payload s).1.script.units := by
  subst hG
  unfold writerEnableRule
  (repeat' split) <;> simp [h]

@[simp] theorem takeStroke_inForm (x : StrokeRec) (s : State)
    {G : Five FeedSettings} (hG : s.settings.feed = G) (h : recordsInForm s.feeds.feeds G s.script.units) :
    recordsInForm (takeStroke x s).feeds.feeds G (takeStroke x s).script.units := by
  subst hG
  unfold takeStroke
  dsimp only
  split
  · exact reportFinish_inForm _ (by simp) (by simpa using undoAtTake_inForm x _ (by simp) (by simpa))
  · exact finishIfDone_inForm _ (by simp) (by simp [h])

@[simp] theorem completeReadback_units (q : Search) (s : State) :
    (completeReadback q s).script.units = s.script.units := by
  simp [completeReadback]

@[simp] theorem completeSearch_units (s : State) : (completeSearch s).script.units = s.script.units := by
  unfold completeSearch
  split <;> simp

@[simp] theorem openTranscript_inForm (p : Bytes) (s : State)
    {G : Five FeedSettings} (hG : s.settings.feed = G) (h : recordsInForm s.feeds.feeds G s.script.units) :
    recordsInForm (openTranscript p s).feeds.feeds G (openTranscript p s).script.units := by
  subst hG
  have cleared := report_inForm (r := .cleared) (s := s.onScript (Transcript.opened p)) (units := s.script.units) trivial h
  simpa [openTranscript] using cleared

@[simp] theorem takeOpen_inForm (p : Bytes) (s : State)
    {G : Five FeedSettings} (hG : s.settings.feed = G) (h : recordsInForm s.feeds.feeds G s.script.units) :
    recordsInForm (takeOpen p s).1.feeds.feeds G (takeOpen p s).1.script.units := by
  subst hG
  unfold takeOpen
  simp [h]

@[simp] theorem openRule_inForm (p : Bytes) (s : State)
    {G : Five FeedSettings} (hG : s.settings.feed = G) (h : recordsInForm s.feeds.feeds G s.script.units) :
    recordsInForm (openRule p s).1.feeds.feeds G (openRule p s).1.script.units := by
  subst hG
  unfold openRule
  (repeat' split) <;> simp [h]

@[simp] theorem releaseLock_units (s : State) : (releaseLock s).script.units = s.script.units := rfl

@[simp] theorem beginClosing_units (tag : Option Byte) (s : State) :
    (beginClosing tag s).script.units = s.script.units := by
  simp [beginClosing]

@[simp] theorem closeRule_inForm (tag : Byte) (s : State)
    {G : Five FeedSettings} (hG : s.settings.feed = G) (h : recordsInForm s.feeds.feeds G s.script.units) :
    recordsInForm (closeRule tag s).1.feeds.feeds G (closeRule tag s).1.script.units := by
  subst hG
  unfold closeRule
  split
  · exact h
  · exact h
  · exact afterRest_inForm _ (by simp) (resolveOrder_inForm _ (by simp) (by simp [h]))

@[simp] theorem takeEdit_inForm (n : ℕ) (text : Bytes) (join : Bool) (s : State)
    {G : Five FeedSettings} (hG : s.settings.feed = G) (h : recordsInForm s.feeds.feeds G s.script.units) :
    recordsInForm (takeEdit n text join s).feeds.feeds G (takeEdit n text join s).script.units := by
  subst hG
  exact replaceUnit_inForm n (editedUnit text join) _ (fun _ => rfl) (fun _ => rfl) (by simp) (by simp [h])

@[simp] theorem editRule_inForm (p : Bytes) (s : State)
    {G : Five FeedSettings} (hG : s.settings.feed = G) (h : recordsInForm s.feeds.feeds G s.script.units) :
    recordsInForm (editRule p s).1.feeds.feeds G (editRule p s).1.script.units := by
  subst hG
  unfold editRule
  dsimp only
  (repeat' split) <;> simp [h]

/-- A class given to a unit that is held (R143). -/
theorem reclassUnit_inForm {c : Cls} {s : State} {u : TUnit} (held : ∃ x ∈ s.script.units, x.number = u.number)
    {G : Five FeedSettings} (hG : s.settings.feed = G) (h : recordsInForm s.feeds.feeds G s.script.units) :
    recordsInForm (reclassUnit c s u).feeds.feeds G (reclassUnit c s u).script.units := by
  subst hG
  refine report_inForm (s := s.onScript _) (units := s.script.units) ⟨⟨c, ?_⟩, fun m other => ?_⟩ h
  · obtain ⟨x, found⟩ : ∃ x, s.script.units.find? (fun x => decide (x.number = u.number)) = some x :=
      Option.isSome_iff_exists.mp (by simpa using held)
    have is_u : x.number = u.number := by simpa using List.find?_some found
    simp only [onScript_script, clsOf]
    rw [find?_changeUnit (change := fun x => { x with cls := c }) _ u.number u.number fun _ => rfl, found]
    simp [is_u]
  · exact clsOf_changeUnit_ne _ (fun _ => rfl) other

theorem reclassUnits_inForm {c : Cls} (l : List TUnit) {s : State}
    (held : ∀ u ∈ l, ∃ x ∈ s.script.units, x.number = u.number)
    {G : Five FeedSettings} (hG : s.settings.feed = G) (h : recordsInForm s.feeds.feeds G s.script.units) :
    recordsInForm (l.foldl (reclassUnit c) s).feeds.feeds G (l.foldl (reclassUnit c) s).script.units := by
  induction l generalizing s with
  | nil => exact h
  | cons u l ih =>
    refine ih (fun v mem => ?_) (by simpa [reclassUnit] using hG) (reclassUnit_inForm (held u List.mem_cons_self) hG h)
    obtain ⟨x, held_x, same⟩ := held v (List.mem_cons_of_mem u mem)
    refine ⟨if x.number = u.number then { x with cls := c } else x, ?_, by split <;> exact same⟩
    simpa [reclassUnit, changeUnit] using ⟨x, held_x, rfl⟩

@[simp] theorem reclassifyRule_inForm (p : Bytes) (s : State)
    {G : Five FeedSettings} (hG : s.settings.feed = G) (h : recordsInForm s.feeds.feeds G s.script.units) :
    recordsInForm (reclassifyRule p s).1.feeds.feeds G (reclassifyRule p s).1.script.units := by
  subst hG
  unfold reclassifyRule
  dsimp only
  (repeat' split)
  · exact h
  · exact h
  · exact h
  · exact h
  · refine reclassUnits_inForm _ (fun u mem => ⟨u, ?_, rfl⟩) rfl h
    exact List.mem_of_mem_filter (List.mem_of_mem_filter mem)

@[simp] theorem portStall_inForm (i : PortId) (s : State)
    {G : Five FeedSettings} (hG : s.settings.feed = G) (h : recordsInForm s.feeds.feeds G s.script.units) :
    recordsInForm (portStall i s).feeds.feeds G s.script.units := by
  subst hG
  unfold portStall
  have stalled := onFeed_inForm (portFeed i) (fun _ => feedStall_truthful) (s := s.onPort i fun p =>
    { p.discardWindow with state := .stalled, stalls := p.stalls + 1, probeFrom := some s.time.now, probeSeq := none })
    (G := s.settings.feed) (by simp) (by simpa)
  simpa using stalled

/-- A repaint of a feed whose form did not matter before. -/
theorem feedRecover_truthful {v : FeedView} {f : Feed} (form : f.truthful v) : (feedRecover v f).truthful v := by
  unfold feedRecover
  split
  · exact beginRepaint_truthful v v f
  · exact form

@[simp] theorem portRecover_inForm (i : PortId) (s : State)
    {G : Five FeedSettings} (hG : s.settings.feed = G) (h : recordsInForm s.feeds.feeds G s.script.units) :
    recordsInForm (portRecover i s).feeds.feeds G s.script.units := by
  subst hG
  unfold portRecover
  dsimp only
  have recovered := onFeed_inForm (portFeed i) (fun _ => feedRecover_truthful) (s := s.onPort i fun p =>
    { p with state := .running, window := [], probeSeq := none, probeFrom := none, recoveries := p.recoveries + 1 })
    (G := s.settings.feed) (by simp) (by simpa)
  simpa using recovered

@[simp] theorem takeAck_inForm (i : PortId) (q : Byte) (s : State)
    {G : Five FeedSettings} (hG : s.settings.feed = G) (h : recordsInForm s.feeds.feeds G s.script.units) :
    recordsInForm (takeAck i q s).feeds.feeds G s.script.units := by
  subst hG
  unfold takeAck
  (repeat' split) <;> simp [h]

@[simp] theorem takeResync_inForm (i : PortId) (s : State)
    {G : Five FeedSettings} (hG : s.settings.feed = G) (h : recordsInForm s.feeds.feeds G s.script.units) :
    recordsInForm (takeResync i s).feeds.feeds G s.script.units := by
  subst hG
  unfold takeResync
  split
  · exact h
  · exact onFeed_inForm _ (fun _ => feedRecover_truthful) (by simp)
      (onFeed_inForm _ (fun _ => feedStall_truthful) (by simp) (by simpa))
  · exact portRecover_inForm i _ (by simp) (by simpa)

@[simp] theorem feedRepaintRule_inForm (payload : Bytes) (s : State)
    {G : Five FeedSettings} (hG : s.settings.feed = G) (h : recordsInForm s.feeds.feeds G s.script.units) :
    recordsInForm (feedRepaintRule payload s).1.feeds.feeds G s.script.units := by
  subst hG
  unfold feedRepaintRule
  (repeat' split) <;> simp [h]

@[simp] theorem restartTranslator_inForm (s : State)
    {G : Five FeedSettings} (hG : s.settings.feed = G) (h : recordsInForm s.feeds.feeds G s.script.units) :
    recordsInForm (restartTranslator s).feeds.feeds G (restartTranslator s).script.units := by
  subst hG
  exact resolveHold_inForm _ (by simp) (by simpa)

@[simp] theorem restartStore_inForm (s : State)
    {G : Five FeedSettings} (hG : s.settings.feed = G) (h : recordsInForm s.feeds.feeds G s.script.units) :
    recordsInForm (restartStore s).feeds.feeds G (restartStore s).script.units := by
  subst hG
  unfold restartStore
  simp [h]

@[simp] theorem restartScript_inForm (s : State)
    {G : Five FeedSettings} (hG : s.settings.feed = G) (h : recordsInForm s.feeds.feeds G s.script.units) :
    recordsInForm (restartScript s).feeds.feeds G (restartScript s).script.units := by
  subst hG
  unfold restartScript
  dsimp only
  (repeat' split)
  · simpa
  · exact reportResolved_inForm _ (by simp) (restartTranslator_inForm _ (by simp) (by simpa))
  · simpa
  · exact reportResolved_inForm _ (by simp) (restartTranslator_inForm _ (by simp) (by simpa))

@[simp] theorem takeRestart_inForm (s : State)
    {G : Five FeedSettings} (hG : s.settings.feed = G) (h : recordsInForm s.feeds.feeds G s.script.units) :
    recordsInForm (takeRestart s).feeds.feeds G (takeRestart s).script.units := by
  subst hG
  unfold takeRestart
  simp [h]

@[simp] theorem replySent_inForm (a : AfterSent) (s : State)
    {G : Five FeedSettings} (hG : s.settings.feed = G) (h : recordsInForm s.feeds.feeds G s.script.units) :
    recordsInForm (replySent a s).feeds.feeds G (replySent a s).script.units := by
  subst hG
  unfold replySent
  (repeat' split) <;> simp [h]

@[simp] theorem frameSentHost_inForm (f : TxFrame) (s : State)
    {G : Five FeedSettings} (hG : s.settings.feed = G) (h : recordsInForm s.feeds.feeds G s.script.units) :
    recordsInForm (frameSentHost f s).feeds.feeds G (frameSentHost f s).script.units := by
  subst hG
  unfold frameSentHost
  dsimp only
  split
  · exact replySent_inForm _ _ (by simp) (by simpa)
  · simpa
  · simpa

@[simp] theorem closeDue_inForm (p : Pos) (s : State)
    {G : Five FeedSettings} (hG : s.settings.feed = G) (h : recordsInForm s.feeds.feeds G s.script.units) :
    recordsInForm (closeDue p s).feeds.feeds G (closeDue p s).script.units := by
  subst hG
  unfold closeDue
  (repeat' split) <;> simp [h]

@[simp] theorem enableFeed_inForm (i : FeedId) (s : State)
    {G : Five FeedSettings} (hG : s.settings.feed = G) (h : recordsInForm s.feeds.feeds G s.script.units) :
    recordsInForm (enableFeed i s).feeds.feeds G s.script.units := by
  subst hG
  unfold enableFeed
  have on := onFeed_inForm i (f := feedEnable (s.view i)) (fun _ _ => beginRepaint_truthful _ _ _) (s := s) rfl h
  dsimp only
  split
  · exact on
  · exact on

@[simp] theorem disableFeed_inForm (i : FeedId) (s : State)
    {G : Five FeedSettings} (hG : s.settings.feed = G) (h : recordsInForm s.feeds.feeds G s.script.units) :
    recordsInForm (disableFeed i s).feeds.feeds G s.script.units := by
  subst hG
  unfold disableFeed
  have off := onFeed_inForm i (f := feedDisable) (fun f _ => feedDisable_truthful _ f) (s := s) rfl h
  dsimp only
  split
  · exact off
  · simpa using off

end Sys2Proof.Machine
end

section
/-! Grants and settings keep the form of the feed records, and so does every command: O8. -/

namespace Sys2Proof.Machine

/-! ### A granted frame -/

/-- The unit a feed is sent next is held as its number says, with a class the feed accepts (R155). -/
theorem addOwed_holdsAccepted {v : FeedView} {f : Feed} {u : TUnit} (owed : addOwed v f = some u) :
    v.holdsAccepted u.number = true := by
  unfold addOwed at owed
  split at owed
  next => cases owed
  next first rest above =>
    split at owed
    next owes =>
      obtain rfl : first = u := by simpa using owed
      have found : v.units.find? (fun x => decide (f.cursor < x.number)) = some first := by
        rw [FeedView.find?_above, above]; rfl
      have shown : v.showable first = true := by simp_all
      have number : v.units.find? (fun x => decide (x.number = first.number)) = some first := by
        rw [List.find?_eq_some_iff_append] at found ⊢
        obtain ⟨above_cursor, before, after, units, lower⟩ := found
        refine ⟨by simp, before, after, units, fun x mem => ?_⟩
        have := lower x mem
        simp only [decide_eq_true_eq, Bool.not_eq_true', decide_eq_false_iff_not] at above_cursor this ⊢
        omega
      simp only [FeedView.holdsAccepted, clsOf, number, Option.map_some]
      exact ((v.showable_iff first).mp shown).1
    next => cases owed

theorem backed_append {f g : Feed} (e : ShownEntry) (shown : g.shown = f.shown ++ [e]) (q : ChangeNote)
    (backed : f.backed q = true) : g.backed q = true := by
  refine backed_of_textEntry (fun n _ entry => ?_) backed
  obtain ⟨x, mem, rest⟩ := (Feed.textEntry_iff f n).mp entry
  exact (Feed.textEntry_iff g n).mpr ⟨x, shown ▸ List.mem_append_left _ mem, rest⟩

/-- Forming the frame a feed owes keeps the form of its record (R153). -/
theorem owedFrame_truthful {v : FeedView} {f g : Feed} {frame : Frame} (form : f.truthful v)
    (owed : owedFrame v f = some (frame, g)) : g.truthful v := by
  obtain ⟨idle, delayed, backed, accepted⟩ := form
  unfold owedFrame at owed
  split at owed
  next => cases owed
  next delivers =>
    have delivers : f.delivering = true := by simpa using delivers
    split at owed
    next => cases owed; exact ⟨idle, delayed, backed, accepted⟩
    next =>
    split at owed
    next => cases owed; exact ⟨idle, delayed, backed, accepted⟩
    next =>
    split at owed
    next note rest queued =>
      cases owed
      refine ⟨fun h => (nomatch delivers.symm.trans h), fun tier => ?_, fun q mem => ?_, accepted⟩
      · simp [delayed tier] at queued
      · exact backed q (queued ▸ List.mem_cons_of_mem note mem)
    next none_queued =>
    split at owed
    next c n _ =>
      cases owed
      refine ⟨fun h => (nomatch delivers.symm.trans h), fun _ => none_queued,
        by simp [none_queued], fun tier e mem kind => ?_⟩
      rcases List.mem_append.mp mem with mem | mem
      · exact accepted tier e mem kind
      · obtain rfl := List.mem_singleton.mp mem
        simp at kind
    next =>
    split at owed
    next => cases owed; exact ⟨fun h => by simp [Feed.delivering] at h, delayed, backed, accepted⟩
    next =>
    split at owed
    next u next_unit =>
      cases owed
      refine ⟨fun h => (nomatch delivers.symm.trans h), fun _ => none_queued,
        by simp [none_queued], fun tier e mem kind => ?_⟩
      rcases List.mem_append.mp mem with mem | mem
      · exact accepted tier e mem kind
      · obtain rfl := List.mem_singleton.mp mem
        exact addOwed_holdsAccepted next_unit
    next => cases owed

@[simp] theorem grantTo_inForm (i : FeedId) (m : Member) (s : State)
    {G : Five FeedSettings} (hG : s.settings.feed = G) (h : recordsInForm s.feeds.feeds G s.script.units) :
    recordsInForm (grantTo i m s).feeds.feeds G (grantTo i m s).script.units := by
  subst hG
  unfold grantTo
  split
  next => exact h
  next frame feed' owed =>
    have formed : feed'.truthful (s.view i) := owedFrame_truthful (h i) owed
    have granted := onFeed_inForm (s := s.onFmt (Formatter.granted i m)) i
      (f := fun _ => settle ((s.onFmt (Formatter.granted i m)).view i) feed')
      (fun _ _ => settle_truthful formed) (G := s.settings.feed) (by simp) (by simpa)
    simpa using granted

/-! ### Settings (R165) -/

/-- The form looks at a feed's TIER and MASK alone. -/
theorem recordsInForm_of_tier_mask {records : Five Feed} {G H : Five FeedSettings} {units : List TUnit}
    (tier : ∀ i, (H.get i).tier = (G.get i).tier) (mask : ∀ i, (H.get i).mask = (G.get i).mask)
    (h : recordsInForm records G units) : recordsInForm records H units := by
  intro i
  simpa [Feed.truthful, FeedView.holdsAccepted, FeedView.accepts, tier i, mask i] using h i

/-- A new TIER or MASK of one feed, with the repaint of a feed that is delivering. -/
theorem feedReview_inForm {s : State} (i : FeedId) {G : Five FeedSettings}
    (others : ∀ j, j ≠ i → s.settings.feed.get j = G.get j) (h : recordsInForm s.feeds.feeds G s.script.units) :
    recordsInForm (s.onFeed i (feedReview (s.view i))).feeds.feeds s.settings.feed s.script.units := by
  intro j
  rw [State.onFeed, onFeeds_feeds, Five.get_upd]
  split
  next same =>
    subst same
    unfold feedReview
    split
    next => exact beginRepaint_truthful _ _ _
    next stopped =>
      exact truthful_of_not_delivering (by simpa using stopped) (h j)
  next other =>
    rw [others j other]
    exact h j

theorem Five.get_upd_map {α β : Type} (t : Five α) (i j : FeedId) (f : α → α) (g : α → β) (same : ∀ a, g (f a) = g a) :
    g ((t.upd i f).get j) = g (t.get j) := by
  rw [Five.get_upd]
  split
  · exact same _
  · rfl

/-- A setting other than a feed's tier or mask leaves every feed's tier and mask. -/
theorem put_tier_mask {x : Setting} (v : Nat) (g : Settings) (other : ∀ p, x ≠ .tier p ∧ x ≠ .mask p) (i : FeedId) :
    ((x.put v g).feed.get i).tier = (g.feed.get i).tier ∧ ((x.put v g).feed.get i).mask = (g.feed.get i).mask := by
  cases x
  case tier p => exact absurd rfl (other p).1
  case mask p => exact absurd rfl (other p).2
  case feedEnable | delay | depth | ackTimeout | rate | group =>
    exact ⟨Five.get_upd_map _ _ _ _ FeedSettings.tier fun _ => rfl, Five.get_upd_map _ _ _ _ FeedSettings.mask fun _ => rfl⟩
  all_goals exact ⟨rfl, rfl⟩

@[simp] theorem timeoutLock_units (s : State) : (timeoutLock s).script.units = s.script.units := by simp [timeoutLock]

/-- What a new value starts, for a setting other than a tier or a mask. -/
theorem settingEffect_inForm {x : Setting} {s : State} (other : ∀ p, x ≠ .tier p ∧ x ≠ .mask p)
    (h : recordsInForm s.feeds.feeds s.settings.feed s.script.units) :
    recordsInForm (settingEffect x s).feeds.feeds s.settings.feed (settingEffect x s).script.units := by
  cases x
  case tier p => exact absurd rfl (other p).1
  case mask p => exact absurd rfl (other p).2
  all_goals simp only [settingEffect]
  all_goals (repeat' split) <;> simp [h]

theorem settingEffect_settings (x : Setting) (s : State) : (settingEffect x s).settings = s.settings := by
  simp

/-- A new TIER or MASK of one feed. -/
theorem takeReview_inForm {s : State} (i : FeedId) {c : FeedSettings → FeedSettings}
    (h : recordsInForm s.feeds.feeds s.settings.feed s.script.units) :
    recordsInForm ((s.onSettings (·.onFeed i c)).onFeed i
      (feedReview ((s.onSettings (·.onFeed i c)).view i))).feeds.feeds
      (s.onSettings (·.onFeed i c)).settings.feed s.script.units :=
  feedReview_inForm (s := s.onSettings (·.onFeed i c)) i (G := s.settings.feed)
    (fun j other => by simp [Settings.onFeed, Five.get_upd, other]) h

theorem takeSet_inForm (x : Setting) (v : Nat) (s : State)
    (h : recordsInForm s.feeds.feeds s.settings.feed s.script.units) :
    recordsInForm (takeSet x v s).feeds.feeds (takeSet x v s).settings.feed (takeSet x v s).script.units := by
  unfold takeSet
  dsimp only
  split
  next => exact h
  next =>
    by_cases review : ∃ p, x = .tier p ∨ x = .mask p
    · obtain ⟨p, rfl | rfl⟩ := review
      · exact takeReview_inForm (s := s.onHost _) (portFeed p) h
      · exact takeReview_inForm (s := s.onHost _) (portFeed p) h
    · have other : ∀ p, x ≠ .tier p ∧ x ≠ .mask p := by simpa using review
      rw [settingEffect_settings]
      refine settingEffect_inForm other (recordsInForm_of_tier_mask (G := s.settings.feed) ?_ ?_ h)
      · exact fun i => (put_tier_mask v s.settings other i).1
      · exact fun i => (put_tier_mask v s.settings other i).2

end Sys2Proof.Machine
end

section
/-! Every command keeps the form of the feed records: O8. -/

namespace Sys2Proof.Machine

/-- The feed records of a state are in form. -/
def State.inForm (s : State) : Prop := recordsInForm s.feeds.feeds s.settings.feed s.script.units

theorem inForm_iff (s : State) : s.inForm ↔ recordsInForm s.feeds.feeds s.settings.feed s.script.units := Iff.rfl

/-- A state with the same records, feed settings and units is in form as well. -/
theorem State.inForm.congr {s t : State} (held : s.inForm) (feeds : t.feeds.feeds = s.feeds.feeds)
    (settings : t.settings.feed = s.settings.feed) (units : t.script.units = s.script.units) : t.inForm := by
  rw [inForm_iff, feeds, settings, units]
  exact held

theorem inForm_of_same_settings {s t : State} (settings : t.settings.feed = s.settings.feed)
    (form : recordsInForm t.feeds.feeds s.settings.feed t.script.units) : t.inForm := by
  rw [inForm_iff, settings]
  exact form

theorem inForm_of_same_units {s t u : State} (settings : t.settings.feed = s.settings.feed)
    (units : t.script.units = u.script.units)
    (form : recordsInForm t.feeds.feeds s.settings.feed u.script.units) : t.inForm := by
  rw [inForm_iff, settings, units]
  exact form

@[simp] theorem searchOn_units (q : Search) (s : State) : (searchOn q s).script.units = s.script.units := by
  unfold searchOn
  split <;> simp

@[simp] theorem visitBack_units (q : Search) (s : State) : (visitBack q s).script.units = s.script.units := by
  unfold visitBack
  (repeat' split) <;> simp

@[simp] theorem visitForward_units (q : Search) (s : State) : (visitForward q s).script.units = s.script.units := by
  unfold visitForward
  (repeat' split) <;> simp

@[simp] theorem lockRule_units (p : Bytes) (s : State) : (lockRule p s).1.script.units = s.script.units := by
  simp only [lockRule]
  (repeat' split) <;> rfl

@[simp] theorem unlockRule_units (s : State) : (unlockRule s).1.script.units = s.script.units := by
  simp only [unlockRule]
  split <;> rfl

@[simp] theorem readbackRule_units (tag : Byte) (p : Bytes) (s : State) :
    (readbackRule tag p s).1.script.units = s.script.units := by
  simp only [readbackRule]
  (repeat' split) <;> rfl

theorem setRule_inForm (p : Bytes) (s : State) (held : s.inForm) : (setRule p s).1.inForm := by
  unfold setRule
  (repeat' split)
  · exact held
  · exact held
  · exact takeSet_inForm _ _ s held

/-- A request whose rule leaves the settings. -/
theorem takeRequest_inForm {tag : Byte} {lenOk always : Bool} {rule : State → State × Result} {after : Result → AfterSent}
    {s : State} (settings : ∀ u, (rule u).1.settings.feed = u.settings.feed)
    (kept : ∀ u : State, recordsInForm u.feeds.feeds u.settings.feed u.script.units →
      recordsInForm (rule u).1.feeds.feeds u.settings.feed (rule u).1.script.units) (held : s.inForm) :
    (takeRequest tag lenOk always rule after s).inForm :=
  takeRequest_keeps (P := State.inForm) (fun _ _ => id)
    (fun u form => inForm_of_same_settings (settings u) (kept u form)) tag lenOk always after s held

@[simp] theorem closeDone_units (failed : Option Reason) (s : State) :
    (closeDone failed s).script.units = s.script.units := by
  simp [closeDone]

@[simp] theorem flushReport_units (s : State) : (flushReport s).script.units = s.script.units := by
  unfold flushReport
  (repeat' split) <;> simp

/-- The commands that are requests, but for SET. -/
def isRequest : Instr → Bool
  | .writerEnable _ _ | .handover _ _ | .syncMark _ _ | .storeRecover _ _ | .formatStore _ _ | .eraseRegion _ _
  | .logRead _ _ | .logFlush _ _ | .entryLookup _ _ | .entryAdd _ _ | .entryDelete _ _ | .defineSpeaker _ _
  | .insertNote _ _ | .openSession _ _ | .closeSession _ _ | .lock _ _ | .unlock _ _ | .editUnit _ _
  | .reclassify _ _ | .readback _ _ | .feedRepaint _ _ | .badKind _ _ _ | .clearCondition _ _ | .getSetting _ _
  | .identify _ _ | .status _ _ | .restart _ _ => true
  | _ => false

theorem act_inForm_of_request {c : Instr} (request : isRequest c = true) {s : State} (held : s.inForm) :
    (act c s).inForm := by
  cases c
  case writerEnable | handover | syncMark | storeRecover | formatStore | eraseRegion | logRead | logFlush | entryLookup |
      entryAdd | entryDelete | defineSpeaker | insertNote | openSession | closeSession | lock | unlock | editUnit |
      reclassify | readback | feedRepaint | badKind | clearCondition | getSetting | identify | status | restart =>
    refine takeRequest_inForm (fun u => ?_) (fun u form => ?_) held
    · simp
    · simp [form]
  all_goals cases request

theorem reset_inForm : State.reset.inForm := (feedsTruthful_iff _).mp powerOnMeetsTheInvariants.2.2.2.2.2.2

/-- Every command keeps the form of the feed records. -/
theorem act_inForm (c : Instr) (s : State) (held : s.inForm) : (act c s).inForm := by
  have form := (inForm_iff s).mp held
  cases request : isRequest c with
  | true => exact act_inForm_of_request request held
  | false =>
  cases c
  case powerOn => exact reset_inForm
  case setSetting tag p =>
    exact takeRequest_keeps (P := State.inForm) (fun _ _ => id) (setRule_inForm p) _ _ _ _ s held
  case releaseTimerExpiry feed =>
    exact inForm_of_same_units (s := s) (by simp [act]) (by simp [act]) (settleFeed_inForm _ _ (by simp) (by simpa))
  case agedToExpiry =>
    exact inForm_of_same_units (s := s) (by simp [act]) (by simp [act]) (settleAll_inForm _ (by simp) (by simpa))
  case ack port seq =>
    exact inForm_of_same_units (s := s) (by simp [act]) (by simp [act]) (takeAck_inForm _ _ _ (by simp) (by simpa))
  case resync port seq =>
    exact inForm_of_same_units (s := s) (by simp [act]) (by simp [act]) (takeResync_inForm _ _ (by simp) (by simpa))
  case ackTimeout port =>
    exact inForm_of_same_units (s := s) (by simp [act]) (by simp [act]) (portStall_inForm _ _ (by simp) (by simpa))
  case strokeTake =>
    refine inForm_of_same_settings (s := s) (by simp only [act]; split <;> simp) ?_
    simp only [act]
    split
    · exact form
    · exact takeStroke_inForm _ _ (by simp) (by simp [form])
  case grant =>
    refine inForm_of_same_settings (s := s) (by simp only [act]; split <;> simp) ?_
    simp only [act]
    split
    · exact form
    · exact grantTo_inForm _ _ _ rfl form
  case keyReport | leadByte | erroredByte | breakDetected | breakEnd | silenceIntervalExpiry | strokeLimitExpiry |
      floorWaitExpiry | readComplete | pageProgramEnd | blockEraseEnd | holdTimerExpiry | firmTimeExpiry | hostFrameSent =>
    refine inForm_of_same_settings (s := s) ?_ ?_
    · simp only [act]
      (repeat' split) <;> simp
    · simp only [act]
      (repeat' split) <;> simp [form]
  case syncPulse | captureExpiry | rebase | previousSyncExpiry | holdoverExpiry | memoryReady | suspendLatencyExpiry |
      resumeIntervalExpiry | operationTimeout | timeoutStillBusy | logAgeExpiry | lockTimeout | readbackVisit | frameSent |
      malformedReply | replyGapTimeout | probeTimerExpiry | hostFramingError | hostGapTimeout | frameDiscarded =>
    simp only [act]
    refine held.congr ?_ ?_ ?_ <;> (repeat' split) <;> simp
  all_goals cases request

/-- Settles O8: each report, settling, repaint, grant and setting keeps the form of the records it reaches, and power-on
empties them. -/
theorem feedsStayWithinTheirMask : Obligations.FeedsStayWithinTheirMask := by
  have steps : ∀ s t : State, s.inForm → step s = .next t → t.inForm := by
    refine step_keeps (P := State.inForm) ?_ ?_ ?_
    · exact fun s held => held.congr (by simp) (by simp) (by simp)
    · exact fun s q held => held
    · refine fun {c s t} => exec_keeps (P := State.inForm) (act_inForm c s) ?_ ?_ ?_ ?_
      · exact fun u kept => kept.congr (by simp) (by simp) (by simp)
      · exact fun u _ => reset_inForm
      · exact fun u kept => kept.congr (by simp [State.takeUp]) (by simp [State.takeUp]) (by simp [State.takeUp])
      · exact fun u kept => kept.congr (by simp) (by simp) (by simp)
  exact fun s t form runs => (feedsTruthful_iff t).mpr (steps s t ((feedsTruthful_iff s).mp form) runs)

end Sys2Proof.Machine
end

section
/-! Requests of the conditions, the speaker table, the edit lock and the classes (R121, R139, R140, R143, R144, R190). -/

namespace Sys2Proof.Machine

/-! ### Conditions and speakers -/

theorem clearRule_onHost (p : Bytes) (s : State) (g : HostLink → HostLink) :
    clearRule p (s.onHost g) = ((clearRule p s).1.onHost g, (clearRule p s).2) := by
  unfold clearRule
  split
  · rfl
  · rw [onHost_conds]
    split <;> rfl

/-- Settles O14: the rule of CLEAR-CONDITION, of a request that is taken. -/
theorem clearConditionClearsTheFlags : Obligations.ClearConditionClearsTheFlags := by
  intro tag code s taken
  refine congrArg Host.Outcome.next
    ((transmit_request_of_onHost tag (clearRule [code]) s taken (clearRule_onHost [code] s)).trans ?_)
  simp only [clearRule, byteAt_cons_zero]
  cases condOfCode code.toNat with
  | none => rfl
  | some c => dsimp only; split_ifs <;> rfl

theorem defineSpeakerRule_onHost (p : Bytes) (s : State) (g : HostLink → HostLink) :
    defineSpeakerRule p (s.onHost g) = ((defineSpeakerRule p s).1.onHost g, (defineSpeakerRule p s).2) := by
  simp only [defineSpeakerRule]
  split_ifs <;> rfl

theorem lenText1_label (n : Byte) {label : Bytes} (label_lt : label.length < 256) :
    lenText1 (n :: byte label.length :: label) = true := by
  rw [lenText1, byteAt_cons_succ, byteAt_cons_zero, byte_toNat _ label_lt, lenIs, decide_eq_true_eq]
  simp only [List.length_cons]
  omega

/-- Settles O15: the payload's fields are read back, and the rule's branches are those of R121. -/
theorem defineSpeakerReplacesTheLabel : Obligations.DefineSpeakerReplacesTheLabel := by
  intro tag n label s taken label_lt
  have request := transmit_request_of_onHost tag _ s taken
    (defineSpeakerRule_onHost (n :: byte label.length :: label) s)
  rw [← lenText1_label n label_lt] at request
  refine congrArg Host.Outcome.next (request.trans ?_)
  simp only [defineSpeakerRule, byteAt_cons_zero, List.drop_succ_cons, List.drop_zero, Config.labelMax]
  split_ifs <;> rfl

/-! ### The edit lock (R139, R140) -/

theorem lockRule_onHost (p : Bytes) (s : State) (g : HostLink → HostLink) :
    lockRule p (s.onHost g) = ((lockRule p s).1.onHost g, (lockRule p s).2) := by
  unfold lockRule
  dsimp only
  rw [onHost_script]
  split_ifs <;> rfl

theorem unlockRule_onHost (s : State) (g : HostLink → HostLink) :
    unlockRule (s.onHost g) = ((unlockRule s).1.onHost g, (unlockRule s).2) := by
  unfold unlockRule
  rw [onHost_script]
  split_ifs <;> rfl

theorem be4At_four_be (first : Nat) {last : Nat} (last_lt : last < 4294967296) (rest : Bytes) :
    be4At (be 4 first ++ (be 4 last ++ rest)) 4 = last :=
  (be4At_skip (be 4 first) _ 0).trans (be4At_here last rest last_lt)

theorem lockRange_iff (t : Transcript) (first last : Nat) :
    lockRange t first last = true ↔
      last < first ∨ t.holds first = false ∨ t.holds last = false ∨ 256 < (t.range first last).length ∨
        (t.range first last).any (fun u => decide (u.state = .provisional)) = true := by
  simp only [lockRange, Bool.or_eq_true, decide_eq_true_eq, Bool.not_eq_true', or_assoc, Config.lockMax]
  rfl

theorem lockRule_eq (first last : Nat) (s : State) (first_lt : first < 4294967296) (last_lt : last < 4294967296) :
    lockRule (be 4 first ++ be 4 last) s =
      if s.script.session = .closing then (s, .refused .busy)
      else if s.script.lock ≠ none then (s, .refused .lockHeld)
      else if lockRange s.script first last = true then (s, .refused .range)
      else
        (s.onScript (fun t =>
          { t with lock := some { first := first, last := last, since := s.time.now },
                   locksGranted := t.locksGranted + 1 }),
         .done (be 4 (s.script.range first last).length)) := by
  have last_field := be4At_four_be first last_lt []
  rw [List.append_nil] at last_field
  simp only [lockRule, be4At_here first _ first_lt, last_field, Option.isSome_iff_ne_none]

/-- Settles O16: the rules of LOCK and UNLOCK, of requests that are taken, and the timeout after the time it took. -/
theorem lockIsTakenAndReleased : Obligations.LockIsTakenAndReleased := by
  refine ⟨?lock, ?unlock, ?timeout⟩
  case lock =>
    intro tag first last s taken first_lt last_lt
    refine congrArg Host.Outcome.next
      ((transmit_request_of_onHost tag _ s taken (lockRule_onHost (be 4 first ++ be 4 last) s)).trans ?_)
    rw [lockRule_eq first last s first_lt last_lt]
    simp only [lockRange_iff, Transcript.range]
    split_ifs <;> rfl
  case unlock =>
    intro tag s taken
    refine congrArg Host.Outcome.next ((transmit_request_of_onHost tag _ s taken (unlockRule_onHost s)).trans ?_)
    cases lock : s.script.lock with
    | none => simp [unlockRule, lock]
    | some l => simp [unlockRule, lock, releaseLock, State.onScript]
  case timeout =>
    intro l s lock
    show execLockTimeout s = _
    simp [execLockTimeout, lock, timeoutLock, State.onScript]

/-! ### RECLASSIFY (R143, R144) -/

/-- The payload of RECLASSIFY (R196). -/
def reclassPayload (first last : Nat) (code : Byte) : Bytes := be 4 first ++ be 4 last ++ [code]

theorem reclassUnit_onHost (c : Cls) (s : State) (u : TUnit) (g : HostLink → HostLink) :
    reclassUnit c (s.onHost g) u = (reclassUnit c s u).onHost g := rfl

theorem reclassUnits_onHost (c : Cls) (l : List TUnit) (s : State) (g : HostLink → HostLink) :
    l.foldl (reclassUnit c) (s.onHost g) = (l.foldl (reclassUnit c) s).onHost g := by
  induction l generalizing s with
  | nil => rfl
  | cons u l ih => exact ih (reclassUnit c s u)

theorem reclassifyRule_onHost (p : Bytes) (s : State) (g : HostLink → HostLink) :
    reclassifyRule p (s.onHost g) = ((reclassifyRule p s).1.onHost g, (reclassifyRule p s).2) := by
  have released : ∀ c us, releaseFails (s.onHost g) c us = releaseFails s c us := fun _ _ => rfl
  unfold reclassifyRule
  dsimp only
  split
  · rfl
  · rw [onHost_script, released, reclassUnits_onHost]
    split_ifs <;> rfl

theorem reclassifyRule_of_none {first last : Nat} {code : Byte} (s : State) (no_class : clsOfCode code.toNat = none) :
    reclassifyRule (reclassPayload first last code) s = (s, .refused .badValue) := by
  have code_field : byteAt (reclassPayload first last code) 8 = code.toNat :=
    byteAt_skip (be 4 first ++ be 4 last) [code] 0
  simp only [reclassifyRule, code_field, no_class]

/-- RECLASSIFY's refusals in their order, and the change of the units whose class is another. -/
theorem reclassifyRule_of_some {first last : Nat} {code : Byte} {c : Cls} (s : State) (first_lt : first < 4294967296)
    (last_lt : last < 4294967296) (cls : clsOfCode code.toNat = some c) :
    reclassifyRule (reclassPayload first last code) s =
      if last < first ∨ s.script.holds first = false ∨ s.script.holds last = false then (s, .refused .range)
      else if s.script.inLock first = false ∨ s.script.inLock last = false then (s, .refused .notLocked)
      else if releaseFails s c (s.script.range first last) = true then (s, .refused .released)
      else
        let changed := (s.script.range first last).filter (fun u => decide (u.cls ≠ c))
        (changed.foldl (reclassUnit c) s, .done (be 4 changed.length)) := by
  have first_field : be4At (reclassPayload first last code) 0 = first := by
    rw [reclassPayload, List.append_assoc]
    exact be4At_here first _ first_lt
  have last_field : be4At (reclassPayload first last code) 4 = last := by
    rw [reclassPayload, List.append_assoc]
    exact be4At_four_be first last_lt [code]
  have code_field : byteAt (reclassPayload first last code) 8 = code.toNat :=
    byteAt_skip (be 4 first ++ be 4 last) [code] 0
  simp only [reclassifyRule, first_field, last_field, code_field, cls, Bool.or_eq_true, decide_eq_true_eq,
    Bool.not_eq_true', or_assoc]

theorem exec_reclassify (tag code : Byte) (first last : Nat) (s : State) (taken : s.accepts) :
    exec (.reclassify tag (be 4 first ++ be 4 last ++ [code])) s = .next
      ((reclassifyRule (reclassPayload first last code) s).1.reply tag
        (reclassifyRule (reclassPayload first last code) s).2) :=
  congrArg Host.Outcome.next
    (transmit_request_of_onHost tag _ s taken (reclassifyRule_onHost (reclassPayload first last code) s))

/-- The units after a class has been given to those listed by number. -/
theorem reclassUnits_eq (c : Cls) (l : List TUnit) (s : State) :
    l.foldl (reclassUnit c) s =
      { s with
        feeds := (l.foldl (reclassUnit c) s).feeds
        script := { s.script with
          units := s.script.units.map fun u => if u.number ∈ l.map TUnit.number then { u with cls := c } else u
          unitsReclassified := s.script.unitsReclassified + BitVec.ofNat 32 l.length } } := by
  induction l generalizing s with
  | nil => simp
  | cons u l ih =>
    rw [List.foldl_cons, ih (reclassUnit c s u)]
    have units : (changeUnit u.number (fun x => { x with cls := c }) s.script.units).map
          (fun x => if x.number ∈ l.map TUnit.number then { x with cls := c } else x) =
        s.script.units.map fun x => if x.number ∈ (u :: l).map TUnit.number then { x with cls := c } else x := by
      rw [changeUnit, List.map_map]
      refine List.map_congr_left fun x _ => ?_
      by_cases is_u : x.number = u.number <;> simp [is_u]
    have count : s.script.unitsReclassified + 1 + BitVec.ofNat 32 l.length =
        s.script.unitsReclassified + BitVec.ofNat 32 (u :: l).length := by
      rw [List.length_cons, Nat.add_comm l.length, BitVec.ofNat_add, BitVec.add_assoc]
      rfl
    exact congrArg₂ (fun us n => ({ s with
      feeds := (l.foldl (reclassUnit c) (reclassUnit c s u)).feeds
      script := { s.script with units := us, unitsReclassified := n } } : State)) units count

/-- Giving the class to the units of a range whose class is another gives it to every unit of the range. -/
theorem map_reclass_changed (c : Cls) (first last : Nat) (t : Transcript) :
    (t.units.map fun u =>
      if u.number ∈ ((t.range first last).filter fun u => decide (u.cls ≠ c)).map TUnit.number then { u with cls := c }
      else u) =
      t.units.map fun u => if first ≤ u.number ∧ u.number ≤ last then { u with cls := c } else u := by
  refine List.map_congr_left fun u held => ?_
  have listed : u.number ∈ ((t.range first last).filter fun u => decide (u.cls ≠ c)).map TUnit.number →
      first ≤ u.number ∧ u.number ≤ last := by
    intro mem
    obtain ⟨x, changed, same⟩ := List.mem_map.mp mem
    have in_range := (List.mem_filter.mp (List.mem_of_mem_filter changed)).2
    rw [← same]
    simpa using in_range
  by_cases inside : first ≤ u.number ∧ u.number ≤ last
  · rw [if_pos inside]
    split
    next => rfl
    next unlisted =>
      have same : u.cls = c := by
        by_contra other
        refine unlisted (List.mem_map.mpr ⟨u, List.mem_filter.mpr ⟨List.mem_filter.mpr ⟨held, ?_⟩, ?_⟩, rfl⟩)
        · simpa using inside
        · simpa using other
      rw [← same]
  · rw [if_neg inside, if_neg fun mem => inside (listed mem)]

/-- Settles O18: the rule's refusals, and its success with the units it changes one by one. -/
theorem reclassifyChangesTheClasses : Obligations.ReclassifyChangesTheClasses := by
  refine ⟨fun tag code first last s taken first_lt last_lt => ?refused,
    fun tag code c first last s taken first_lt last_lt cls order held_first held_last lock_first lock_last kept => ?taken⟩
  case refused =>
    rw [exec_reclassify tag code first last s taken]
    refine ⟨fun no_class => ?_, fun c cls => ?_⟩
    · rw [reclassifyRule_of_none s no_class]
    rw [reclassifyRule_of_some s first_lt last_lt cls]
    refine ⟨fun bad => ?_, fun good => ⟨fun unlocked => ?_, fun shown => ?_⟩⟩
    · rw [if_pos bad]
    · rw [if_neg (by simpa using good), if_pos unlocked]
    · rw [if_neg (by simpa using good), if_neg (by simp [shown.1, shown.2.1]), if_pos shown.2.2]
  case taken =>
    rw [exec_reclassify tag code first last s taken, reclassifyRule_of_some s first_lt last_lt cls,
      if_neg (by simp [order, held_first, held_last]), if_neg (by simp [lock_first, lock_last]), if_neg (by simp [kept])]
    dsimp only
    rw [reclassUnits_eq, map_reclass_changed]
    exact ⟨_, rfl, rfl⟩

end Sys2Proof.Machine
end

section
/-! The end of a step and the line to the host (R184, R185, R187, R194, R195). -/

namespace Sys2Proof.Machine

/-- States are equal when their blocks are. -/
theorem State.eq_of_blocks {s t : State} (links : s.links = t.links) (formers : s.formers = t.formers)
    (seqCounter : s.seqCounter = t.seqCounter) (floor : s.floor = t.floor) (time : s.time = t.time)
    (flash : s.flash = t.flash) (store : s.store = t.store) (log : s.log = t.log) (dict : s.dict = t.dict)
    (trans : s.trans = t.trans) (script : s.script = t.script) (feeds : s.feeds = t.feeds) (fmt : s.fmt = t.fmt)
    (ports : s.ports = t.ports) (host : s.host = t.host) (conds : s.conds = t.conds) (settings : s.settings = t.settings)
    (pending : s.pending = t.pending) : s = t := by
  cases s
  cases t
  simp only [State.mk.injEq]
  exact ⟨links, formers, seqCounter, floor, time, flash, store, log, dict, trans, script, feeds, fmt, ports, host, conds,
    settings, pending⟩

/-! ### What the store takes up -/

theorem takeUp_eq (s : State) :
    s.takeUp = { s with dict := s.takeUp.dict, store := s.takeUp.store, log := s.takeUp.log } := by
  refine State.eq_of_blocks ?_ ?_ ?_ ?_ ?_ ?_ rfl rfl rfl ?_ ?_ ?_ ?_ ?_ ?_ ?_ ?_ ?_ <;> simp [State.takeUp]

/-- The log as it was, but for the state of its first page. -/
def LogWriter.asBefore (w v : LogWriter) : Prop :=
  w = { v with pages := w.pages } ∧
    w.pages.map (fun x => (x.page, x.records, x.since)) = v.pages.map (fun x => (x.page, x.records, x.since))

theorem LogWriter.asBefore_refl (w : LogWriter) : w.asBefore w := ⟨rfl, rfl⟩

theorem startLog_asBefore (p : BufPage) (s : State) : (startLog p s).log.asBefore s.log := by
  refine ⟨rfl, ?_⟩
  show (programFirst s.log.pages).map _ = _
  cases s.log.pages <;> rfl

theorem storePump_asBefore (s : State) : (storePump s).log.asBefore s.log := by
  have idle : (pumpIdle s).log.asBefore s.log := by
    unfold pumpIdle
    (repeat' split) <;>
      simp only [startLog_asBefore, startRead_frame, startDict_frame, startJob_frame, LogWriter.asBefore_refl]
  have suspended : ∀ r, (pumpSuspended r s).log.asBefore s.log := fun r => by
    unfold pumpSuspended
    dsimp only
    generalize (match r.op with | .erase _ => true | .program .. => false) = erasing
    split
    · exact startLog_asBefore _ s
    · simp only [startDict_frame, LogWriter.asBefore_refl]
    · (repeat' split) <;>
        simp only [startLog_asBefore, startRead_frame, startDict_frame, onStore_log, LogWriter.asBefore_refl]
  unfold storePump
  (repeat' split) <;>
    simp only [idle, suspended, startRead_frame, startJob_frame, pumpRunning_frame, onStore_log, LogWriter.asBefore_refl]

/-! ### The choice of the next host frame -/

theorem enterOwed_host (s : State) : ∃ owed, (enterOwed s).host = { s.host with notices := s.host.notices ++ owed } := by
  unfold enterOwed
  split
  · exact ⟨[], by simp⟩
  · exact ⟨_, rfl⟩

theorem chooseFrame_eq (s : State) :
    chooseFrame s =
      { s with host := (chooseFrame s).host, conds := (chooseFrame s).conds, time := (chooseFrame s).time } := by
  refine State.eq_of_blocks ?_ ?_ ?_ ?_ rfl ?_ ?_ ?_ ?_ ?_ ?_ ?_ ?_ ?_ rfl rfl ?_ ?_ <;> simp

theorem chooseFrame_replyLine (s : State) : (chooseFrame s).host.replyLine = s.host.replyLine := by
  unfold chooseFrame
  cases sending : s.host.sending with
  | some f => rfl
  | none =>
    cases replies : s.host.replies with
    | cons r rs => simp [HostLink.replyLine, sending, replies]
    | nil =>
      cases notices : s.host.notices with
      | cons n ns =>
        obtain ⟨owed, host⟩ := enterOwed_host (s.onHost fun h => { h with notices := ns, sending := some (.notice n) })
        simp [HostLink.replyLine, host, sending, replies]
      | nil => cases text : s.host.textPlace <;> simp [HostLink.replyLine, sending, replies]

theorem chooseFrame_noticeLine (s : State) :
    ∃ owed, (chooseFrame s).host.noticeLine = s.host.noticeLine ++ owed := by
  unfold chooseFrame
  cases sending : s.host.sending with
  | some f => exact ⟨[], by simp⟩
  | none =>
    cases replies : s.host.replies with
    | cons r rs => exact ⟨[], by simp [HostLink.noticeLine, sending]⟩
    | nil =>
      cases notices : s.host.notices with
      | cons n ns =>
        obtain ⟨owed, host⟩ := enterOwed_host (s.onHost fun h => { h with notices := ns, sending := some (.notice n) })
        exact ⟨owed, by simp [HostLink.noticeLine, host, sending, notices]⟩
      | nil => exact ⟨[], by cases text : s.host.textPlace <;> simp [HostLink.noticeLine, sending, notices]⟩

/-- Settles O60: the drain and the store controller leave the other blocks, and a page that begins to be programmed keeps
what it holds; the transmitter takes a reply or a notice from its queue to the line. -/
theorem endOfStepKeepsTheOtherBlocks : Obligations.EndOfStepKeepsTheOtherBlocks := by
  intro s
  have log : s.takeUp.log.asBefore s.log := by
    have drained := storePump_asBefore (drainBegin s)
    rwa [(by simp : (drainBegin s).log = s.log)] at drained
  exact ⟨takeUp_eq s, log.1, log.2, chooseFrame_eq s, chooseFrame_replyLine s, chooseFrame_noticeLine s⟩

/-! ### A sent host frame (R187) -/

theorem frameSentHost_calm {f : TxFrame} {s : State} (calm : s.calm) (after : ∀ r, f = .reply r → r.after ≠ .restart) :
    (frameSentHost f s).calm := by
  cases f with
  | notice n => exact calm
  | text f => exact calm
  | reply r =>
    cases ends : r.after with
    | nothing =>
      simp only [frameSentHost, replySent, ends]
      exact calm
    | rate baud =>
      simp only [frameSentHost, replySent, ends]
      exact calm
    | restart => exact absurd ends (after r rfl)

theorem exec_hostFrameSent {f : TxFrame} {s : State} (sending : s.host.sending = some f) :
    exec .hostFrameSent s = .next (finishStep (frameSentHost f s)) := by
  show execHostFrameSent s = _
  simp only [execHostFrameSent, sending]

/-- Settles O57: what a sent frame of each kind changes on the host link, at the end of a step without RESTART or flush. -/
theorem sentHostFramesAreCounted : Obligations.SentHostFramesAreCounted := by
  intro s calm
  refine ⟨fun idle => ?_, fun r sending after => ?_, fun n sending => ?_, fun f sending => ?_⟩
  · show execHostFrameSent s = _
    simp only [execHostFrameSent, idle]
  · rw [exec_hostFrameSent sending, finishStep_calm _ (frameSentHost_calm calm fun q same => by cases same; exact after)]
    cases ends : r.after with
    | nothing => simp [frameSentHost, replySent, ends, State.onHost]
    | rate baud => simp [frameSentHost, replySent, ends, State.onHost]
    | restart => exact absurd ends after
  · rw [exec_hostFrameSent sending, finishStep_calm _ (frameSentHost_calm calm fun q same => by cases same)]
    rfl
  · rw [exec_hostFrameSent sending, finishStep_calm _ (frameSentHost_calm calm fun q same => by cases same)]
    rfl

/-! ### Bad frames at the receiver (R184) -/

theorem hostChars_cons (t : LocalTime) (c : Byte) (cs : Bytes) (rx : HostRx) (n : Nat) :
    hostChars t (c :: cs) rx n =
      match hostChar t c rx with
      | .going rx => hostChars t cs rx n
      | .discarded => hostChars t cs .hunt (n + 1)
      | .received => none := rfl

/-- A length field outside 2 to 1026 ends the frame with its last byte. -/
theorem hostChars_bad_length {t : LocalTime} {l0 l1 : Byte}
    (bad : l0.toNat * 256 + l1.toNat < 2 ∨ 1026 < l0.toNat * 256 + l1.toNat) :
    hostChars t [0xC3#8, l0, l1] .hunt 0 = some (.hunt, 1) := by
  have length : frameLength [0xC3#8, l0, l1] = l0.toNat * 256 + l1.toNat := by simp [frameLength, be2At, ofBe]
  have judged : hostChar t l1 (.frame [0xC3#8, l0] t) = .discarded := by
    show judgeFrame t [0xC3#8, l0, l1] = _
    unfold judgeFrame
    rw [if_neg (by simp), length, if_pos bad]
  show (match hostChar t l1 (.frame [0xC3#8, l0] t) with
    | .going rx => hostChars t [] rx 0
    | .discarded => hostChars t [] .hunt 1
    | .received => none) = _
  rw [judged]
  rfl

/-- A whole frame whose check fails. -/
theorem hostChars_failed_check {t t0 : LocalTime} {held : Bytes} {c : Byte} 
    (low : 2 ≤ frameLength (held ++ [c])) (high : frameLength (held ++ [c]) ≤ 1026)
    (whole : held.length = frameLength (held ++ [c]) + 4) (fails : framePasses (held ++ [c]) = false) :
    hostChars t [c] (.frame held t0) 0 = some (.hunt, 1) := by
  have judged : judgeFrame t (held ++ [c]) = .discarded := by
    unfold judgeFrame
    rw [List.length_append, List.length_singleton, if_neg (by omega), if_neg (by omega), if_neg (by omega), fails]
    rfl
  rw [hostChars_cons, hostChar, judged]
  rfl

theorem HostLink.heard_none (h : HostLink) : h.heard (h.rx, 0) = h := by
  simp [HostLink.heard]

/-- No character leaves the receiver as it was. -/
theorem onHost_heard_none (s : State) : s.onHost (HostLink.heard (s.host.rx, 0)) = s := by
  simp [State.onHost, HostLink.heard_none]

/-- Settles O56: the receiver run over the characters, and the discard of a frame in progress. -/
theorem badHostFramesAreDiscarded : Obligations.BadHostFramesAreDiscarded := by
  intro s
  refine ⟨fun l0 l1 hunt bad => ?_, fun held t0 c rx three low high whole fails => ?_, fun hunt => ⟨?_, ?_⟩,
    fun held t0 rx => ⟨?_, ?_⟩⟩
  · show execFrameDiscarded _ s = _
    simp [execFrameDiscarded, hunt, hostChars_bad_length bad, State.onHost, HostLink.heard]
  · show execFrameDiscarded _ s = _
    simp [execFrameDiscarded, rx, hostChars_failed_check low high whole fails, State.onHost, HostLink.heard]
  · show execHostFramingError [] s = _
    simp [execHostFramingError, hostChars, State.onHost, HostLink.heard, HostLink.discard, hunt, HostRx.busy]
  · show execHostGapTimeout [] s = _
    rw [execHostGapTimeout, hostChars]
    dsimp only
    rw [onHost_heard_none, hunt]
  · show execHostFramingError [] s = _
    simp [execHostFramingError, hostChars, State.onHost, HostLink.heard, HostLink.discard, rx, HostRx.busy]
  · show execHostGapTimeout [] s = _
    rw [execHostGapTimeout, hostChars]
    dsimp only
    rw [onHost_heard_none, rx]
    simp [State.onHost, HostLink.discard, rx, HostRx.busy, Config.hostGap]

end Sys2Proof.Machine
end

section
/-! The tests that a request meets before its owning rule (R185, R194, R195, R198). -/

namespace Sys2Proof.Machine

/-! ### What the store takes up leaves the store's state, and the log's pages but for their states -/

@[simp] theorem Store.begin_state (op : FlashOp) (w : Work) (st : Store) : (st.begin op w).state = st.state := by
  cases op <;> rfl

@[simp] theorem startRead_store_state (s : State) : (startRead s).store.state = s.store.state := by
  unfold startRead
  split <;> rfl

@[simp] theorem startLog_store_state (p : BufPage) (s : State) : (startLog p s).store.state = s.store.state := rfl

@[simp] theorem startDict_store_state (p : DictProg) (s : State) : (startDict p s).store.state = s.store.state :=
  Store.begin_state _ _ _

@[simp] theorem startJob_store_state (j : Job) (s : State) : (startJob j s).store.state = s.store.state :=
  Store.begin_state _ _ _

@[simp] theorem pumpIdle_store_state (s : State) : (pumpIdle s).store.state = s.store.state := by
  unfold pumpIdle
  (repeat' split) <;> simp

@[simp] theorem pumpSuspended_store_state (r : Running) (s : State) :
    (pumpSuspended r s).store.state = s.store.state := by
  unfold pumpSuspended
  dsimp only
  generalize (match r.op with | .erase _ => true | .program .. => false) = erasing
  split
  · simp
  · simp
  · (repeat' split) <;> simp [Store.resume]

@[simp] theorem pumpRunning_store_state (r : Running) (s : State) :
    (pumpRunning r s).store.state = s.store.state := by
  unfold pumpRunning
  split <;> rfl

@[simp] theorem storePump_store_state (s : State) : (storePump s).store.state = s.store.state := by
  unfold storePump
  (repeat' split) <;> simp [Store.resume]

@[simp] theorem handRecord_store_state (o : StagedOp) (s : State) :
    (handRecord o s).store.state = s.store.state := by
  unfold handRecord
  dsimp only
  split <;> rfl

@[simp] theorem drainStep_store_state (s : State) : (drainStep s).store.state = s.store.state := by
  unfold drainStep
  (repeat' split) <;> simp [startWalk, waitRead, countLookup]

@[simp] theorem drainNext_store_state (s : State) : (drainNext s).store.state = s.store.state := by
  unfold drainNext
  (repeat' split) <;> simp

theorem takeUp_store_state (s : State) : s.takeUp.store.state = s.store.state := by
  simp [State.takeUp, drainBegin]

theorem takeUp_log (s : State) : s.takeUp.log.asBefore s.log := by
  have drained := storePump_asBefore (drainBegin s)
  rwa [(by simp : (drainBegin s).log = s.log)] at drained

theorem takeUp_log_flush (s : State) : s.takeUp.log.flush = s.log.flush := by
  rw [(takeUp_log s).1]

theorem takeUp_log_isEmpty (s : State) : s.takeUp.log.pages.isEmpty = s.log.pages.isEmpty := by
  have length := congrArg List.length (takeUp_log s).2
  simp only [List.length_map] at length
  rw [Bool.eq_iff_iff, List.isEmpty_iff_length_eq_zero, List.isEmpty_iff_length_eq_zero, length]

/-! ### The end of a step that reports no flush -/

/-- No flush is owed, or one that has a page to wait for. -/
def State.owesNoReport (s : State) : Prop := s.log.flush = .none ∨ s.log.pages ≠ [] ∧ s.store.state ≠ .fault

theorem flushReport_of_owesNoReport {s : State} (quiet : s.owesNoReport) : flushReport s = s := by
  unfold flushReport
  rcases quiet with none | ⟨pages, running⟩
  · rw [none]
    split <;> rfl
  · rw [if_neg]
    simp [running, pages]

theorem takeUp_owesNoReport {s : State} (quiet : s.owesNoReport) : s.takeUp.owesNoReport := by
  rcases quiet with none | ⟨pages, running⟩
  · exact .inl ((takeUp_log_flush s).trans none)
  · refine .inr ⟨fun empty => pages ?_, (takeUp_store_state s).trans_ne running⟩
    rw [← List.isEmpty_iff, ← takeUp_log_isEmpty, empty]
    rfl

theorem chooseFrame_replies (s : State) :
    (chooseFrame s).host.replies = if s.host.sending = none then s.host.replies.drop 1 else s.host.replies := by
  unfold chooseFrame
  cases sending : s.host.sending with
  | some f => rfl
  | none =>
    cases replies : s.host.replies with
    | cons r rs => rfl
    | nil =>
      cases notices : s.host.notices with
      | cons n ns =>
        obtain ⟨owed, host⟩ := enterOwed_host (s.onHost fun h => { h with notices := ns, sending := some (.notice n) })
        simp [host, replies]
      | nil => cases text : s.host.textPlace <;> simp [replies]

theorem finishStep_of_owesNoReport {s : State} (quiet : s.owesNoReport)
    (goes_on : s.host.phase ≠ .draining ∨ (chooseFrame s).host.replies ≠ []) : finishStep s = s.settled := by
  have host : s.takeUp.host = s.host := by simp [State.takeUp]
  show transmit (flushReport s.takeUp) = chooseFrame s.takeUp
  rw [flushReport_of_owesNoReport (takeUp_owesNoReport quiet)]
  unfold transmit
  dsimp only
  rw [if_neg]
  rintro ⟨draining, empty, -⟩
  rw [chooseFrame_host_phase, host] at draining
  rw [chooseFrame_replies, host] at empty
  exact goes_on.elim (absurd draining) fun kept => kept (by rw [chooseFrame_replies, empty])

theorem transmit_of_goes_on {s : State} (goes_on : s.host.phase ≠ .draining ∨ (chooseFrame s).host.replies ≠ []) :
    transmit s = chooseFrame s := by
  unfold transmit
  dsimp only
  rw [if_neg]
  rintro ⟨draining, empty, -⟩
  rw [chooseFrame_host_phase] at draining
  exact goes_on.elim (absurd draining) fun kept => kept empty

/-! ### A request that the host link answers or drops -/

/-- A request that nothing but the host link sees: its step ends with what stands to be taken up. -/
theorem exec_of_onHost {kind : Nat} {tag : Byte} {payload : Bytes} {c : Instr} {s : State} {g : HostLink → HostLink}
    (request : requestOf kind tag payload = some c)
    (only_host : ∀ (rule : State → State × Result) (after : Result → AfterSent),
      takeRequest tag (decide (payload.length = requestLength kind payload)) (alwaysAnswered kind) rule after s =
        s.onHost g)
    (quiet : s.owesNoReport)
    (goes_on : (g s.host).phase ≠ .draining ∨ (chooseFrame (s.onHost g)).host.replies ≠ []) :
    exec c s = .next ((if movesStore kind then State.settled else chooseFrame) (s.onHost g)) := by
  obtain ⟨rule, after, runs⟩ := request_form kind tag payload c request
  rw [runs s, only_host rule after]
  congr 1
  split
  · exact finishStep_of_owesNoReport quiet goes_on
  · exact transmit_of_goes_on goes_on

/-- A reply that is all a request gets. -/
theorem exec_of_addReply {kind : Nat} {tag : Byte} {payload : Bytes} {c : Instr} {s : State} {r : Result}
    (request : requestOf kind tag payload = some c)
    (answered : ∀ (rule : State → State × Result) (after : Result → AfterSent),
      takeRequest tag (decide (payload.length = requestLength kind payload)) (alwaysAnswered kind) rule after s =
        addReply tag r .nothing s.counted)
    (quiet : s.owesNoReport) (running : s.host.phase ≠ .draining) :
    exec c s = .next (s.onlyReply kind tag r) := by
  have only_host := exec_of_onHost (g := fun h =>
      { h with rx := .hunt, framesReceived := h.framesReceived + 1, requestsTaken := h.requestsTaken + 1,
               replies := h.replies ++ [{ tag := tag, result := r, after := .nothing }] })
    request answered quiet (.inl running)
  rw [only_host]
  congr 1
  unfold State.onlyReply
  split
  · show chooseFrame (State.takeUp (addReply tag r .nothing s.counted)) = _
    have taken_up : (addReply tag r .nothing s.counted).takeUp = addReply tag r .nothing (s.takeUp.counted) := by
      unfold addReply State.counted
      rw [takeUp_onHost _ _ rfl, takeUp_onHost _ _ rfl]
    have host : s.takeUp.counted.host = s.counted.host := by simp [State.counted, State.takeUp]
    rw [taken_up, chooseFrame_addReply tag r .nothing s _ host]
    rfl
  · exact chooseFrame_addReply tag r .nothing s s.counted rfl

theorem takeRequest_overrun {tag : Byte} {len always : Bool} {rule : State → State × Result} {after : Result → AfterSent}
    {s : State} (running : s.host.phase ≠ .draining) (full : s.host.replies.length = 16) :
    takeRequest tag len always rule after s =
      s.onHost fun h => { h with rx := .hunt, framesReceived := h.framesReceived + 1, overruns := h.overruns + 1 } := by
  simp only [takeRequest, running, if_false]
  rw [if_pos (by simp [HostLink.received, full, Config.repliesMax])]
  rfl

theorem takeRequest_badLength {tag : Byte} {always : Bool} {rule : State → State × Result} {after : Result → AfterSent}
    {s : State} (running : s.host.phase ≠ .draining) (room : s.host.replies.length < 16) :
    takeRequest tag false always rule after s = addReply tag (.refused .badLength) .nothing s.counted := by
  simp only [takeRequest, running, if_false]
  rw [if_neg (by simpa [HostLink.received, Config.repliesMax] using room)]
  rfl

theorem takeRequest_busy {tag : Byte} {rule : State → State × Result} {after : Result → AfterSent}
    {s : State} (running : s.host.phase ≠ .draining) (restarting : s.host.phase ≠ .normal)
    (room : s.host.replies.length < 16) :
    takeRequest tag true false rule after s = addReply tag (.refused .busy) .nothing s.counted := by
  simp only [takeRequest, running, if_false]
  rw [if_neg (by simpa [HostLink.received, Config.repliesMax] using room), if_neg (by simp),
    if_pos (by simp [HostLink.received, restarting])]
  rfl

theorem State.calm.owesNoReport {s : State} (calm : s.calm) : s.owesNoReport := .inl calm.2

theorem State.calm.not_draining {s : State} (calm : s.calm) : s.host.phase ≠ .draining := by simp [calm.1]

theorem isRequestKind_eq_false {kind : Byte} (bad : kind.toNat = 0 ∨ 28 ≤ kind.toNat) : isRequestKind kind = false := by
  rw [isRequestKind, decide_eq_false_iff_not]
  omega

theorem exec_badKind {tag kind : Byte} {payload : Bytes} {s : State} (bad : kind.toNat = 0 ∨ 28 ≤ kind.toNat) :
    exec (.badKind tag kind payload) s =
      .next (transmit (takeRequest tag true true (fun s => (s, .refused .badKind)) noAfter s)) := by
  show execBadKind tag kind payload s = _
  rw [execBadKind, isRequestKind_eq_false bad]
  rfl

/-- Settles O12: the tests of R185 in their order, each with the end of the step of the request's owner. -/
theorem requestsAreTestedInOrder : Obligations.RequestsAreTestedInOrder := by
  refine ⟨?overrun, ?badKind, ?badLength, ?busy, ?draining⟩
  case overrun =>
    intro kind tag payload c s request calm full
    exact exec_of_onHost request (fun _ _ => takeRequest_overrun calm.not_draining full) calm.owesNoReport
      (.inl calm.not_draining)
  case badKind =>
    intro tag kind payload s bad calm
    rw [exec_badKind bad]
    refine ⟨fun full => congrArg Host.Outcome.next ?_, fun room => congrArg Host.Outcome.next ?_⟩
    · rw [takeRequest_overrun calm.not_draining full]
      exact transmit_of_goes_on (.inl calm.not_draining)
    · exact transmit_request tag true _ noAfter s s.counted (.refused .badKind) ⟨calm.1, room⟩ rfl rfl
  case badLength =>
    intro kind tag payload c s request length accepts calm
    refine exec_of_addReply request (fun _ _ => ?_) calm.owesNoReport calm.not_draining
    rw [decide_eq_false length]
    exact takeRequest_badLength calm.not_draining accepts.2
  case busy =>
    intro kind tag payload c s request not_always length restarting quiet room
    have running : s.host.phase ≠ .draining := by rcases restarting with h | h <;> simp [h]
    refine exec_of_addReply request (fun _ _ => ?_) quiet running
    rw [decide_eq_true length, not_always]
    exact takeRequest_busy running (by rcases restarting with h | h <;> simp [h]) room
  case draining =>
    intro kind tag payload c s request draining none replies
    refine exec_of_onHost (g := fun h => { h with rx := .hunt }) request (fun _ _ => ?_) (.inl none) (.inr ?_)
    · simp only [takeRequest, draining, if_true]
    · rw [chooseFrame_replies] at replies ⊢
      exact replies

end Sys2Proof.Machine
end

section
/-! IDENTIFY, GET and STATUS, answered in every phase but the last (R185, R191 to R193). -/

namespace Sys2Proof.Machine

theorem byte_eq (n : Nat) : byte n = BitVec.ofNat 8 n := rfl

/-- A read request is answered while the part is restarting too; its rule leaves the state. -/
theorem transmit_read {tag : Byte} {rule : State → State × Result} {s : State} {r : Result}
    (running : s.host.phase ≠ .draining) (room : s.host.replies.length < 16) (reads : rule s.counted = (s.counted, r)) :
    transmit (takeRequest tag true true rule noAfter s) = s.reply tag r := by
  have taken : takeRequest tag true true rule noAfter s = addReply tag r .nothing s.counted := by
    simp only [takeRequest, running, if_false]
    rw [if_neg (by simpa [HostLink.received, Config.repliesMax] using room), if_neg (by simp), if_neg (by simp)]
    exact congrArg (fun x : State × Result => addReply tag x.2 .nothing x.1) reads
  rw [taken, transmit_of_goes_on (s := addReply tag r .nothing s.counted) (.inl running)]
  exact chooseFrame_addReply tag r .nothing s s.counted rfl

theorem exec_status_of_some {tag group : Byte} {s : State} {data : Bytes} (running : s.host.phase ≠ .draining)
    (room : s.host.replies.length < 16) (fields : statusGroup group.toNat s.counted = some data) :
    exec (.status tag [group]) s = .next (s.reply tag (.done data)) :=
  congrArg Host.Outcome.next (transmit_read (rule := statusRule [group]) running room
    (by simp only [statusRule, byteAt_cons_zero, fields]))

theorem exec_status_of_none {tag group : Byte} {s : State} (running : s.host.phase ≠ .draining)
    (room : s.host.replies.length < 16) (no_group : statusGroup group.toNat s.counted = none) :
    exec (.status tag [group]) s = .next (s.reply tag (.refused .badValue)) :=
  congrArg Host.Outcome.next (transmit_read (rule := statusRule [group]) running room
    (by simp only [statusRule, byteAt_cons_zero, no_group]))

theorem statusGroup_eq_none {n : Nat} (s : State) (outside : n = 0 ∨ 11 < n) : statusGroup n s = none := by
  unfold statusGroup
  split <;> first | omega | rfl

theorem beStrokes_eq_flatMap (ks : List Nat) : beStrokes ks = ks.flatMap (be 3) := by
  induction ks with
  | nil => rfl
  | cons k ks ih => rw [beStrokes, ih, List.flatMap_cons]

/-- Settles O13: a read request is answered with its rule's bytes, and each group's fields are those of the statement; the
statement's own encoders are first shown to be the model's. -/
theorem readRequestsAnswerAndChangeNothing : Obligations.ReadRequestsAnswerAndChangeNothing := by
  intro tag s not_draining room
  refine ⟨congrArg Host.Outcome.next (transmit_read not_draining room rfl), fun code index => ?get, fun group outside =>
    exec_status_of_none not_draining room (statusGroup_eq_none _ outside), ?groups⟩
  case get =>
    refine congrArg Host.Outcome.next ?_
    cases setting : settingOf code.toNat index.toNat with
    | none => exact transmit_read not_draining room (by simp only [getRule, byteAt_cons_zero, byteAt_cons_succ, setting])
    | some x => exact transmit_read not_draining room (by simp only [getRule, byteAt_cons_zero, byteAt_cons_succ, setting]; rfl)
  case groups =>
    intro answers num opt optByte bit cs since link former position region running page dictionary format feed port held
    have answer : ∀ (group : Byte) (data : Bytes), statusGroup group.toNat s.counted = some data → answers group data :=
      fun group data => exec_status_of_some not_draining room
    have opt_eq : opt = optNum := funext fun x => by cases x <;> rfl
    have optByte_eq : optByte = fun x => beOpt (x.map fun n => [byte n]) := funext fun x => by cases x <;> rfl
    have bit_eq : bit = beBool := rfl
    have cs_eq : cs = counts := rfl
    have link_eq : link = KeyLink.fields := funext fun l => by
      simp only [link, KeyLink.fields]
      cases l.link <;> rfl
    have position_eq : position = PosRec.fields := rfl
    have region_eq : region = Region.fields := funext fun r => by
      simp only [region, opt_eq]
      rfl
    have running_eq : running = fun r => beOpt (r.map Running.kindByte) := funext fun r => by
      cases r with
      | none => rfl
      | some x =>
        simp only [running, Option.map_some, beOpt, Running.kindByte]
        cases x.op <;> rfl
    have page_eq : page = pageFields := funext fun p => by cases p <;> rfl
    have dictionary_eq : dictionary = dictFields s := rfl
    have feed_eq : feed = feedFields s := funext fun i => by
      simp only [feed, opt_eq, optByte_eq, feedFields, cs_eq, Feed.lastShown, Option.map_map]
      rw [show (fun n => [byte n]) ∘ (fun g : Frame × Feed => g.1.code.toNat) = fun g => [g.1.code] from
        funext fun g => by simp [byte]]
      rfl
    have port_eq : ∀ i, port (s.ports.get i) = portFields s i := fun i => by
      simp only [port, opt_eq, cs_eq]
      rfl
    refine ⟨?g1, ?g2, ?g3, ?g4, ?g5, ?g6, ?g7, ?g8, ?g9, ?g10, ?g11⟩
    all_goals refine answer _ _ (congrArg some ?_)
    case g1 =>
      show statusLink s.counted = _
      have text : s.host.textPlace.toList.length = if s.host.textPlace = none then 0 else 1 := by
        cases s.host.textPlace <;> rfl
      have phase : byte (if s.host.phase = .normal then 0 else 1) = if s.host.phase = .normal then 0#8 else 1#8 := by
        split <;> rfl
      simp only [statusLink, cs_eq, List.append_assoc, List.cons_append, List.nil_append, ← text, ← phase]
      rfl
    case g2 =>
      show statusKeys s = _
      simp only [statusKeys, link_eq]
      rfl
    case g3 =>
      show statusFloor s = _
      simp only [statusFloor, opt_eq, List.append_assoc, List.cons_append, List.nil_append]
      rfl
    case g4 =>
      show statusTime s = _
      simp only [statusTime, opt_eq, List.append_assoc, List.cons_append, List.nil_append]
      rfl
    case g5 =>
      show statusStore s = _
      simp only [statusStore, opt_eq, region_eq, running_eq, page_eq, List.append_assoc, List.cons_append, List.nil_append]
      have bufferPages : List.range Config.bufferPages = [0, 1, 2, 3, 4, 5, 6, 7] := rfl
      cases s.store.header <;> cases s.store.timing <;>
        simp only [bufferPages, Header.table, Span.bytes, Timing.bytes, Option.map_some, Option.map_none, beOpt, List.append_assoc,
          List.cons_append, List.nil_append, List.flatMap_cons, List.flatMap_nil, List.append_nil] <;> rfl
    case g6 =>
      show statusDict s = _
      simp only [statusDict, List.append_assoc]
      cases s.dict.staging with
      | nil => rfl
      | cons o os =>
        have kind : (if o.text.isSome then 0#8 else 1#8) = if o.text.isNone then 1#8 else 0#8 := by cases o.text <;> rfl
        simp only [List.head?_cons, Option.map_some, beOpt, StagedOp.fields]
        exact kind ▸ rfl
    case g7 =>
      show statusTranslator s = _
      have state : byte s.trans.stateCode =
          if s.trans.inFlight ≠ none then 2#8 else if s.trans.hold = [] then 0#8 else 1#8 := by
        unfold Translator.stateCode
        cases s.trans.inFlight <;> cases s.trans.hold <;> rfl
      simp only [statusTranslator, opt_eq, List.append_assoc, List.cons_append, List.nil_append, ← state,
        beStrokes_eq_flatMap, List.flatMap_map, Translator.holdPos]
      cases s.trans.hold <;> rfl
    case g8 =>
      show statusTranscript s = _
      simp only [statusTranscript, opt_eq, optByte_eq, List.append_assoc, List.cons_append, List.nil_append]
      cases s.script.sessionNumber <;> cases s.script.lock <;> cases s.script.search with
      | none => rfl
      | some q => cases collecting : q.collecting <;> simp only [Option.map_some, collecting] <;> rfl
    case g9 =>
      show statusFeeds s = _
      simp only [statusFeeds, feed_eq]
      rfl
    case g10 =>
      show statusPorts s = _
      simp only [statusPorts, ← port_eq, List.append_assoc, List.cons_append, List.nil_append]
      rfl
    case g11 =>
      show statusConds s = _
      simp only [statusConds]
      rfl

end Sys2Proof.Machine
end

section
/-! READBACK: its request, its visits and the parts of its result (R145 to R148). -/

namespace Sys2Proof.Machine

/-! ### The parts of a result -/

/-- The numbers of a readback's list, cut where the next entry no longer fits a part's room. -/
def cutNumbers (room : Nat) (entry : Nat → Bytes) : List Nat → List Nat → List (List Nat)
  | [], acc => [acc]
  | n :: ns, acc =>
    if (acc.flatMap entry).length + (entry n).length ≤ room then cutNumbers room entry ns (acc ++ [n])
    else acc :: cutNumbers room entry ns [n]

theorem splitParts_eq (room : Nat) (entry : Nat → Bytes) (ns acc : List Nat) :
    splitParts room (ns.map entry) acc.length (acc.flatMap entry) =
      (cutNumbers room entry ns acc).map fun x => (x.length, x.flatMap entry) := by
  induction ns generalizing acc with
  | nil => rfl
  | cons n ns ih =>
    simp only [List.map_cons, splitParts, cutNumbers]
    split
    · simpa using ih (acc ++ [n])
    · simpa using ih [n]

theorem cutNumbers_flatten (room : Nat) (entry : Nat → Bytes) (ns acc : List Nat) :
    (cutNumbers room entry ns acc).flatten = acc ++ ns := by
  induction ns generalizing acc with
  | nil => simp [cutNumbers]
  | cons n ns ih =>
    rw [cutNumbers]
    split
    · simp [ih]
    · simp [ih]

/-- The first part begins with what has been gathered. -/
theorem cutNumbers_eq_cons (room : Nat) (entry : Nat → Bytes) (ns acc : List Nat) :
    ∃ more rest, cutNumbers room entry ns acc = (acc ++ more) :: rest := by
  induction ns generalizing acc with
  | nil => exact ⟨[], [], by simp [cutNumbers]⟩
  | cons n ns ih =>
    rw [cutNumbers]
    split
    · obtain ⟨more, rest, cut⟩ := ih (acc ++ [n])
      exact ⟨n :: more, rest, by simp [cut]⟩
    · exact ⟨[], cutNumbers room entry ns [n], by simp⟩

theorem cutNumbers_fits {room : Nat} {entry : Nat → Bytes} (each : ∀ n, (entry n).length ≤ room) {ns acc : List Nat}
    (held : (acc.flatMap entry).length ≤ room) : ∀ x ∈ cutNumbers room entry ns acc, (x.flatMap entry).length ≤ room := by
  induction ns generalizing acc with
  | nil => simpa [cutNumbers] using held
  | cons n ns ih =>
    rw [cutNumbers]
    split
    next fits => exact ih (by simpa using fits)
    next =>
      intro x mem
      rcases List.mem_cons.mp mem with rfl | mem
      · exact held
      · exact ih (by simpa using each n) x mem

/-- No part ends where the next entry would have fitted. -/
theorem cutNumbers_full {room : Nat} {entry : Nat → Bytes} {ns acc : List Nat} {i n : Nat} {x y : List Nat}
    (part : (cutNumbers room entry ns acc)[i]? = some x) (next : (cutNumbers room entry ns acc)[i + 1]? = some (n :: y)) :
    room < ((x ++ [n]).flatMap entry).length := by
  induction ns generalizing acc i with
  | nil => simp [cutNumbers] at next
  | cons m ns ih =>
    rw [cutNumbers] at part next
    split at part
    next fits =>
      rw [if_pos fits] at next
      exact ih part next
    next full =>
      rw [if_neg full] at next
      cases i with
      | zero =>
        obtain ⟨more, rest, cut⟩ := cutNumbers_eq_cons room entry ns [m]
        simp only [cut, List.getElem?_cons_zero, List.getElem?_cons_succ, Option.some.injEq, List.cons_append,
          List.cons.injEq] at part next
        obtain ⟨rfl, -⟩ := next
        subst part
        simpa using full
      | succ i =>
        rw [List.getElem?_cons_succ] at part next
        exact ih part next

/-! ### The notices of a result -/

/-- The notices that the parts make while the notice queue has room for them. -/
def partNotices (tag : Byte) (head : Bytes) : Nat → List (Nat × Bytes) → List Notice
  | _, [] => []
  | i, (k, bytes) :: rest =>
    .completion tag 0x1A none i rest.isEmpty (head ++ byte k :: bytes) :: partNotices tag head (i + 1) rest

theorem offerNotice_of_room {n : Notice} {s : State} (room : s.host.notices.length < 32) :
    offerNotice n s = s.onHost fun h => h.push n := by
  rw [offerNotice, if_pos]
  simpa [HostLink.hasRoom, Config.noticesMax] using room

theorem readbackParts_of_room {tag : Byte} {head : Bytes} {i : Nat} {parts : List (Nat × Bytes)} {s : State}
    (room : s.host.notices.length + parts.length ≤ 32) :
    readbackParts tag head i parts s =
      s.onHost fun h => { h with notices := h.notices ++ partNotices tag head i parts } := by
  induction parts generalizing i s with
  | nil => simp [readbackParts, partNotices, State.onHost]
  | cons part parts ih =>
    obtain ⟨k, bytes⟩ := part
    rw [List.length_cons] at room
    rw [readbackParts, offerNotice_of_room (by omega), ih (by simp; omega)]
    simp [State.onHost, HostLink.push, partNotices]

theorem getElem?_partNotices {tag : Byte} {head : Bytes} {i j : Nat} {parts : List (Nat × Bytes)} {k : Nat} {bytes : Bytes}
    (part : parts[j]? = some (k, bytes)) :
    (partNotices tag head i parts)[j]? =
      some (.completion tag 0x1A none (i + j) (decide (j + 1 = parts.length)) (head ++ byte k :: bytes)) := by
  induction parts generalizing i j with
  | nil => simp at part
  | cons p parts ih =>
    cases j with
    | zero =>
      obtain rfl : p = (k, bytes) := by simpa using part
      cases parts <;> simp [partNotices]
    | succ j =>
      rw [List.getElem?_cons_succ] at part
      rw [partNotices, List.getElem?_cons_succ, ih part, Nat.add_right_comm, List.length_cons]
      simp [Nat.add_assoc]

/-! ### The result of a search -/

/-- FOUND and START (R147). -/
def readbackHead (start : Option Nat) : Bytes := beBool start.isSome :: beOpt (start.map (be 4))

theorem readbackHead_length_le (start : Option Nat) : (readbackHead start).length ≤ 6 := by
  cases start <;> simp [readbackHead, beOpt]

/-- The payload of one part: FOUND, START, the count and the entries. -/
def readbackPayload (t : Transcript) (start : Option Nat) (numbers : List Nat) : Bytes :=
  readbackHead start ++ byte numbers.length :: numbers.flatMap (readbackEntry t)

theorem readbackEntry_length_le {t : Transcript} (texts : ∀ u ∈ t.units, u.text.length ≤ 48) (n : Nat) :
    (readbackEntry t n).length ≤ 67 := by
  unfold readbackEntry
  split
  next => simp
  next u found =>
    have text := texts u (List.mem_of_find?_eq_some found)
    cases u.firstSeq <;> simp [beOpt, beText, be4] <;> omega

/-- The room of a part's entries beside the head and the count. -/
def readbackRoom (start : Option Nat) : Nat := 1024 - 5 - (readbackHead start).length - 1

/-- The numbers of each part of a search's result. -/
def readbackCut (t : Transcript) (q : Search) : List (List Nat) :=
  cutNumbers (readbackRoom q.start) (readbackEntry t) q.list []

theorem completeReadback_eq (q : Search) (s : State) :
    completeReadback q s = readbackParts q.tag (readbackHead q.start) 1
      ((readbackCut s.script q).map fun x => (x.length, x.flatMap (readbackEntry s.script)))
      (s.onScript fun t => { t with search := none }) := by
  rw [readbackCut, ← splitParts_eq]
  rfl

theorem readbackCut_fits {t : Transcript} (texts : ∀ u ∈ t.units, u.text.length ≤ 48) (q : Search) :
    ∀ x ∈ readbackCut t q, 5 + (readbackPayload t q.start x).length ≤ 1024 := by
  intro x mem
  have head := readbackHead_length_le q.start
  have fits := cutNumbers_fits (room := readbackRoom q.start) (fun n => by
    have := readbackEntry_length_le texts n
    unfold readbackRoom
    omega) (by simp) x mem
  simp only [readbackPayload, List.length_append, List.length_cons]
  unfold readbackRoom at fits
  omega

theorem readbackCut_full {t : Transcript} {q : Search} {i n : Nat} {x y : List Nat}
    (part : (readbackCut t q)[i]? = some x) (next : (readbackCut t q)[i + 1]? = some (n :: y)) :
    1024 < 5 + (readbackPayload t q.start (x ++ [n])).length := by
  have full := cutNumbers_full part next
  simp only [readbackPayload, List.length_append, List.length_cons]
  unfold readbackRoom at full
  rw [List.flatMap_append, List.length_append] at full ⊢
  omega

theorem mem_noticeLine_chooseFrame {s : State} {n : Notice} (queued : n ∈ s.host.notices) :
    n ∈ (chooseFrame s).host.noticeLine := by
  obtain ⟨owed, line⟩ := chooseFrame_noticeLine s
  rw [line]
  exact List.mem_append_left _ (List.mem_append_right _ queued)

/-- Each part of a result whose parts the notice queue has room for is on its way to the host. -/
theorem readbackCut_sent {q : Search} {s : State} (room : s.host.notices.length + (readbackCut s.script q).length ≤ 32)
    {i : Nat} {x : List Nat} (part : (readbackCut s.script q)[i]? = some x) :
    .completion q.tag 0x1A none (i + 1) (decide (i + 1 = (readbackCut s.script q).length))
      (readbackPayload s.script q.start x) ∈ (chooseFrame (completeReadback q s)).host.noticeLine := by
  refine mem_noticeLine_chooseFrame ?_
  rw [completeReadback_eq, readbackParts_of_room (by simpa using room)]
  refine List.mem_append_right _ (List.mem_of_getElem? (i := i) ?_)
  have mapped : ((readbackCut s.script q).map fun x => (x.length, x.flatMap (readbackEntry s.script)))[i]? =
      some (x.length, x.flatMap (readbackEntry s.script)) := by
    simp [part]
  rw [getElem?_partNotices mapped, List.length_map, Nat.add_comm 1 i]
  rfl

/-- A completed search has its parts on their way, each with as many whole entries as it can hold. -/
theorem readbackCut_parts {s : State} (texts : ∀ u ∈ s.script.units, u.text.length ≤ 48) (q : Search) :
    (readbackCut s.script q).flatten = q.list ∧ readbackCut s.script q ≠ [] ∧
      (∀ x ∈ readbackCut s.script q, 5 + (readbackPayload s.script q.start x).length ≤ 1024) ∧
      (∀ (i n : Nat) (x y : List Nat), (readbackCut s.script q)[i]? = some x →
        (readbackCut s.script q)[i + 1]? = some (n :: y) →
        1024 < 5 + (readbackPayload s.script q.start (x ++ [n])).length) ∧
      (s.host.notices.length + (readbackCut s.script q).length ≤ 32 → ∀ (i : Nat) (x : List Nat),
        (readbackCut s.script q)[i]? = some x →
        .completion q.tag 0x1A none (i + 1) (decide (i + 1 = (readbackCut s.script q).length))
          (readbackPayload s.script q.start x) ∈ (chooseFrame (completeReadback q s)).host.noticeLine) := by
  refine ⟨cutNumbers_flatten _ _ q.list [], ?_, readbackCut_fits texts q, fun i n x y => readbackCut_full,
    fun room i x => readbackCut_sent room⟩
  obtain ⟨more, rest, cut⟩ := cutNumbers_eq_cons (readbackRoom q.start) (readbackEntry s.script) q.list []
  rw [readbackCut, cut]
  exact List.cons_ne_nil _ _

theorem chooseFrame_completeReadback_script (q : Search) (s : State) :
    (chooseFrame (completeReadback q s)).script = { s.script with search := none } := by
  simp [completeReadback]

theorem chooseFrame_completeReadback_eq (q : Search) (s : State) :
    chooseFrame (completeReadback q s) =
      { s with
        script := (chooseFrame (completeReadback q s)).script
        host := (chooseFrame (completeReadback q s)).host
        conds := (chooseFrame (completeReadback q s)).conds
        time := (chooseFrame (completeReadback q s)).time } := by
  refine State.eq_of_blocks ?_ ?_ ?_ ?_ rfl ?_ ?_ ?_ ?_ ?_ rfl ?_ ?_ ?_ rfl rfl ?_ ?_ <;> simp [completeReadback]

/-! ### A visit -/

theorem exec_readbackVisit {q : Search} {s : State} (search : s.script.search = some q) (normal : s.host.phase = .normal) :
    exec .readbackVisit s = .next (chooseFrame (if q.collecting then visitForward q s else visitBack q s)) := by
  show execReadbackVisit s = _
  simp only [execReadbackVisit, search]
  rw [transmit_eq]
  split <;> simp [visitForward_host_phase, visitBack_host_phase, normal]

theorem collectEnds_iff (q : Search) (u : TUnit) :
    collectEnds q u = true ↔
      (q.before ≠ 0 ∧ q.before ≤ u.number) ∨ (∃ n, q.criterion = .speaker n) ∧ u.kind = .speakerLabel := by
  unfold collectEnds
  cases q.criterion <;> simp

theorem searchOn_of_room {q : Search} {s : State} (room : q.list.length < q.most ∨ q.collecting = false) :
    searchOn q s = s.withSearch (some q) := by
  rw [searchOn, if_neg]
  · rfl
  · rcases room with room | searching
    · simp [room]
    · simp [searching]

theorem searchOn_of_full {q : Search} {s : State} (full : q.most ≤ q.list.length) (collecting : q.collecting = true) :
    searchOn q s = completeReadback q s := by
  rw [searchOn, if_pos (by simp [full, collecting])]

theorem visitBack_of_some {q : Search} {s : State} {u : TUnit}
    (below : (s.script.units.filter fun x => decide (x.number < q.cursor)).getLast? = some u) :
    visitBack q s =
      if q.criterion.passes u = true then
        searchOn { q with cursor := u.number, start := some u.number, list := [u.number], collecting := true } s
      else searchOn { q with cursor := u.number } s := by
  simp only [visitBack, below]

theorem visitBack_of_none {q : Search} {s : State}
    (below : (s.script.units.filter fun x => decide (x.number < q.cursor)).getLast? = none) :
    visitBack q s = completeReadback q s := by
  simp only [visitBack, below]

theorem visitForward_of_some {q : Search} {s : State} {u : TUnit}
    (above : s.script.units.find? (fun x => decide (q.cursor < x.number)) = some u) :
    visitForward q s =
      if collectEnds q u = true then completeReadback q s
      else searchOn { q with cursor := u.number, list := q.list ++ [u.number] } s := by
  simp only [visitForward, above]

theorem visitForward_of_none {q : Search} {s : State}
    (above : s.script.units.find? (fun x => decide (q.cursor < x.number)) = none) :
    visitForward q s = completeReadback q s := by
  simp only [visitForward, above]

/-! ### The request (R145) -/

/-- The payload of READBACK (R196): the criterion's kind, BEFORE, MAX, the argument's length and the argument. -/
def readPayload (kind : Byte) (before : Nat) (most : Byte) (arg : Bytes) : Bytes :=
  kind :: be 4 before ++ most :: byte arg.length :: arg

theorem be4At_readPayload (kind most : Byte) (arg : Bytes) {before : Nat} (before_lt : before < 4294967296) :
    be4At (readPayload kind before most arg) 1 = before :=
  be4At_here before _ before_lt

theorem byteAt_five_readPayload (kind most : Byte) (before : Nat) (arg : Bytes) :
    byteAt (readPayload kind before most arg) 5 = most.toNat := rfl

theorem lenReadback_readPayload (kind most : Byte) (before : Nat) {arg : Bytes} (arg_le : arg.length ≤ 255) :
    lenReadback (readPayload kind before most arg) = true := by
  have count : byteAt (readPayload kind before most arg) 6 = arg.length := byte_toNat _ (by omega)
  have length : (readPayload kind before most arg).length = 7 + arg.length := by
    simp only [readPayload, List.length_append, List.length_cons, be_length]
    omega
  rw [lenReadback, lenIs, count, length, decide_eq_true rfl]

theorem readbackRule_onHost (tag : Byte) (p : Bytes) (s : State) (g : HostLink → HostLink) :
    readbackRule tag p (s.onHost g) = ((readbackRule tag p s).1.onHost g, (readbackRule tag p s).2) := by
  unfold readbackRule
  split
  · rfl
  · rw [onHost_script]
    split_ifs <;> rfl

theorem exec_readback (tag kind most : Byte) (before : Nat) {arg : Bytes} {s : State} (taken : s.accepts)
    (arg_le : arg.length ≤ 255) :
    exec (.readback tag (kind :: be 4 before ++ most :: byte arg.length :: arg)) s = .next
      ((readbackRule tag (readPayload kind before most arg) s).1.reply tag
        (readbackRule tag (readPayload kind before most arg) s).2) := by
  have request := transmit_request_of_onHost tag _ s taken (readbackRule_onHost tag (readPayload kind before most arg) s)
  rw [← lenReadback_readPayload kind most before arg_le] at request
  exact congrArg Host.Outcome.next request

theorem readbackRule_of_inr {tag kind most : Byte} {before : Nat} {arg : Bytes} {s : State} {r : Reason}
    (refused : criterionOf kind.toNat arg = .inr r) :
    readbackRule tag (readPayload kind before most arg) s = (s, .refused r) := by
  have criterion : criterionOf (byteAt (readPayload kind before most arg) 0) ((readPayload kind before most arg).drop 7) =
      .inr r := refused
  simp only [readbackRule, criterion]

theorem readbackRule_of_inl {tag kind most : Byte} {before : Nat} {arg : Bytes} {s : State} {c : Criterion}
    (before_lt : before < 4294967296) (criterion : criterionOf kind.toNat arg = .inl c) :
    readbackRule tag (readPayload kind before most arg) s =
      if s.script.search.isSome then (s, .refused .busy)
      else
        (s.onScript (fun t => { t with
          search := some
            { tag := tag, criterion := c, before := before, most := max 1 (min most.toNat 64), collecting := false,
              cursor := if before = 0 then s.script.nextNumber else before, start := none, list := [] },
          readbacks := t.readbacks + 1 }), .accepted) := by
  have criterion' : criterionOf (byteAt (readPayload kind before most arg) 0)
      ((readPayload kind before most arg).drop 7) = .inl c := criterion
  simp only [readbackRule, criterion', be4At_readPayload kind most arg before_lt, byteAt_five_readPayload]
  rfl

theorem criterionOf_speaker {n : Byte} (low : 1 ≤ n.toNat) (high : n.toNat ≤ 32) :
    criterionOf 1 [n] = .inl (.speaker n.toNat) := by
  simp [criterionOf, low, high]

theorem criterionOf_word {arg : Bytes} (low : 1 ≤ arg.length) (high : arg.length ≤ 48) :
    criterionOf 2 arg = .inl (.word arg) := by
  have some_byte : arg.isEmpty = false := by
    rw [Bool.eq_false_iff, ne_eq, List.isEmpty_iff_length_eq_zero]
    omega
  simp only [criterionOf, some_byte, Config.textMax]
  rw [if_neg (by simp), if_neg (by omega)]

/-- What READBACK refuses as BAD-VALUE, and as TOO-LONG. -/
theorem criterionOf_cases (kind : Nat) (arg : Bytes) :
    ((kind ≠ 1 ∧ kind ≠ 2) ∨ (kind = 1 ∧ ¬ ∃ n : Byte, arg = [n] ∧ 1 ≤ n.toNat ∧ n.toNat ≤ 32) ∨ (kind = 2 ∧ arg = []) →
      criterionOf kind arg = .inr .badValue) ∧
    (kind = 2 ∧ 48 < arg.length → criterionOf kind arg = .inr .tooLong) := by
  refine ⟨?_, ?_⟩
  · rintro (⟨not_speaker, not_word⟩ | ⟨rfl, none⟩ | ⟨rfl, rfl⟩)
    · unfold criterionOf
      split
      · contradiction
      · contradiction
      · rfl
    · rw [criterionOf, if_neg]
      rintro ⟨one, low, high⟩
      obtain ⟨n, rfl⟩ := List.length_eq_one_iff.mp one
      exact none ⟨n, rfl, low, high⟩
    · rfl
  · rintro ⟨rfl, long⟩
    have some_byte : arg.isEmpty = false := by
      rw [Bool.eq_false_iff, ne_eq, List.isEmpty_iff_length_eq_zero]
      omega
    simp only [criterionOf, some_byte, Config.textMax]
    rw [if_neg (by simp), if_pos long]

theorem criterionOf_eq_inl {kind : Nat} {arg : Bytes}
    (good : ¬ ((kind ≠ 1 ∧ kind ≠ 2) ∨ (kind = 1 ∧ ¬ ∃ n : Byte, arg = [n] ∧ 1 ≤ n.toNat ∧ n.toNat ≤ 32) ∨
      (kind = 2 ∧ arg = []))) (short : ¬ (kind = 2 ∧ 48 < arg.length)) : ∃ c, criterionOf kind arg = .inl c := by
  rw [not_or, not_or] at good
  obtain ⟨known, speaker, word⟩ := good
  by_cases one : kind = 1
  · subst one
    obtain ⟨n, rfl, low, high⟩ : ∃ n : Byte, arg = [n] ∧ 1 ≤ n.toNat ∧ n.toNat ≤ 32 := by simpa using speaker
    exact ⟨_, criterionOf_speaker low high⟩
  · have two : kind = 2 := by
      clear speaker word
      omega
    subst two
    have some_byte : arg ≠ [] := by simpa using word
    exact ⟨_, criterionOf_word (List.length_pos_iff.mpr some_byte) (by simpa using short)⟩

/-- Settles O19: the request's branches; a visit takes the next unit of its direction, and a completed search is cut into
parts whose notices are queued in order. -/
theorem readbackSearchesTheTranscript : Obligations.ReadbackSearchesTheTranscript := by
  refine ⟨?begins, ?refused, ?visit⟩
  case begins =>
    intro tag most before arg crit s taken before_lt idle criterion
    rcases criterion with ⟨n, rfl, low, high, rfl⟩ | ⟨low, high, rfl⟩
    · refine (exec_readback tag 1#8 most before (arg := [n]) taken (by simp)).trans ?_
      rw [readbackRule_of_inl (kind := 1#8) before_lt (criterionOf_speaker low high), idle]
      rfl
    · refine (exec_readback tag 2#8 most before (arg := arg) taken (by omega)).trans ?_
      rw [readbackRule_of_inl (kind := 2#8) before_lt (criterionOf_word low high), idle]
      rfl
  case refused =>
    intro tag kind most before arg s taken before_lt arg_le read badValue tooLong
    have exec_read := exec_readback tag kind most before taken arg_le
    refine ⟨fun bad => ?_, fun long => ?_, fun good short busy => ?_⟩
    · exact exec_read.trans (by rw [readbackRule_of_inr ((criterionOf_cases kind.toNat arg).1 bad)])
    · exact exec_read.trans (by rw [readbackRule_of_inr ((criterionOf_cases kind.toNat arg).2 long)])
    · obtain ⟨c, criterion⟩ := criterionOf_eq_inl good short
      refine exec_read.trans ?_
      rw [readbackRule_of_inl before_lt criterion, if_pos (Option.isSome_iff_ne_none.mpr busy)]
  case visit =>
    intro q s search normal texts below above stops entry completes
    have entry_eq : entry = readbackEntry s.script := funext fun n => by
      simp only [entry, readbackEntry, Transcript.unit?]
      cases s.script.units.find? (fun x => decide (x.number = n)) with
      | none => rfl
      | some u =>
        dsimp only
        cases u.firstSeq <;> rfl
    have completion : ∀ r : Search, r.tag = q.tag →
        exec .readbackVisit s = .next (chooseFrame (completeReadback r s)) → completes r.start r.list := by
      intro r tag runs
      have parts := readbackCut_parts texts r
      rw [tag] at parts
      simp only [completes, entry_eq]
      obtain ⟨_, _, _, _, _, _, start, _⟩ := r
      cases start <;>
        exact ⟨_, runs, chooseFrame_completeReadback_script _ s, chooseFrame_completeReadback_eq _ s, _, parts⟩
    have visits := exec_readbackVisit search normal
    refine ⟨fun searching => ⟨fun u next passes room => ?_, fun u next passes full => ?_, fun u next passes => ?_,
      fun none => ?_⟩, fun collecting => ⟨fun none => ?_, fun u next => ⟨fun stop => ?_, fun goes_on room => ?_,
        fun goes_on full => ?_⟩⟩⟩
    · rw [visits, if_neg (by simp [searching]), visitBack_of_some next, if_pos passes, searchOn_of_room (.inl (by simpa))]
    · refine completion { q with cursor := u.number, start := some u.number, list := [u.number], collecting := true } rfl ?_
      rw [visits, if_neg (by simp [searching]), visitBack_of_some next, if_pos passes, searchOn_of_full (by simpa) rfl]
    · rw [visits, if_neg (by simp [searching]), visitBack_of_some next, if_neg (by simp [passes]),
        searchOn_of_room (q := { q with cursor := u.number }) (.inr searching)]
    · refine completion q rfl ?_
      rw [visits, if_neg (by simp [searching]), visitBack_of_none none]
    · refine completion q rfl ?_
      rw [visits, if_pos collecting, visitForward_of_none none]
    · refine completion q rfl ?_
      rw [visits, if_pos collecting, visitForward_of_some next, if_pos ((collectEnds_iff q u).mpr stop)]
    · rw [visits, if_pos collecting, visitForward_of_some next, if_neg (mt (collectEnds_iff q u).mp goes_on),
        searchOn_of_room (.inl (by simpa))]
    · refine completion { q with cursor := u.number, list := q.list ++ [u.number] } rfl ?_
      rw [visits, if_pos collecting, visitForward_of_some next, if_neg (mt (collectEnds_iff q u).mp goes_on),
        searchOn_of_full (q := { q with cursor := u.number, list := q.list ++ [u.number] }) (by simpa) collecting]

end Sys2Proof.Machine
end

section
/-! Settling, the frames a feed owes, and what a report does to a feed record (R150 to R163, R167). -/

namespace Sys2Proof.Machine

/-! ### Eligibility (R150, R153) -/

theorem FeedView.eligible_of_live {v : FeedView} (tier : v.cfg.tier = .live) (u : TUnit) : v.eligible u = true := by
  simp [FeedView.eligible, tier]

theorem FeedView.eligible_of_settled {v : FeedView} (tier : v.cfg.tier = .settled) (u : TUnit) :
    v.eligible u = true ↔ u.state ≠ .provisional := by
  simp [FeedView.eligible, tier]

theorem FeedView.eligible_of_delayed {v : FeedView} (tier : v.cfg.tier = .delayed) (u : TUnit) :
    v.eligible u = true ↔ u.state = .firm ∧ v.released u = true := by
  simp [FeedView.eligible, tier]

theorem FeedView.released_iff (v : FeedView) (u : TUnit) :
    v.released u = true ↔
      u.number ≤ v.agedTo ∨ ∃ t, u.commitTime = some t ∧ v.cfg.delay * 1000000 ≤ (v.now - t).toNat := by
  unfold FeedView.released TUnit.aged
  rw [Bool.or_eq_true, decide_eq_true_eq]
  refine or_congr Iff.rfl ?_
  cases u.commitTime with
  | none => simp
  | some t =>
    show decide (v.cfg.delay * 1000000 ≤ (v.now - t).toNat) = true ↔ _
    rw [decide_eq_true_eq]
    exact ⟨fun aged => ⟨t, rfl, aged⟩, by rintro ⟨_, ⟨⟩, aged⟩; exact aged⟩

/-! ### The newest entry shown (R152) -/

/-- The newest entry shown is of a class the feed accepts. -/
def Feed.marked (v : FeedView) (f : Feed) : Prop := ∃ c, f.lastShown = some c ∧ v.accepts c = true

theorem Feed.marked_iff {v : FeedView} {f : Feed} (ascending : f.shown.Pairwise fun x y => x.number < y.number) :
    f.marked v ↔ ∃ e ∈ f.shown, (∀ x ∈ f.shown, x.number ≤ e.number) ∧ v.accepts e.cls = true := by
  unfold Feed.marked Feed.lastShown
  rcases f.shown.eq_nil_or_concat with empty | ⟨older, newest, shown⟩
  · simp [empty]
  · rw [shown, List.concat_eq_append] at ascending ⊢
    obtain ⟨-, -, older_lt⟩ := List.pairwise_append.mp ascending
    have below : ∀ x ∈ older, x.number < newest.number := fun x mem => older_lt x mem newest List.mem_cons_self
    rw [List.getLast?_concat]
    refine ⟨?_, ?_⟩
    · rintro ⟨c, same, accepted⟩
      obtain rfl : newest.cls = c := by simpa using same
      refine ⟨newest, by simp, fun x mem => ?_, accepted⟩
      rcases List.mem_append.mp mem with mem | mem
      · exact (below x mem).le
      · rw [List.mem_singleton.mp mem]
    · rintro ⟨e, mem, highest, accepted⟩
      rcases List.mem_append.mp mem with mem | mem
      · have := highest newest (by simp)
        have := below e mem
        omega
      · obtain rfl := List.mem_singleton.mp mem
        exact ⟨_, rfl, accepted⟩

/-! ### Settling (R155) -/

/-- A unit that settling may not pass because it is not eligible or lies above the tail. -/
def Feed.waits (v : FeedView) (f : Feed) (u : TUnit) : Prop := v.eligible u = false ∨ f.beyondTail u = true

/-- A unit that settling passes. -/
def Feed.passes (v : FeedView) (f : Feed) (u : TUnit) : Prop :=
  ¬ f.waits v u ∧ (u.text = [] ∨ v.accepts u.cls = false ∧ ¬ f.marked v)

/-- The cursor after some units have been passed. -/
def cursorAfter (cursor : Nat) (passed : List TUnit) : Nat := ((passed.getLast?).map TUnit.number).getD cursor

theorem cursorAfter_cons (cursor : Nat) (u : TUnit) (passed : List TUnit) :
    cursorAfter cursor (u :: passed) = cursorAfter u.number passed := by
  unfold cursorAfter
  cases passed using List.reverseRecOn with
  | nil => rfl
  | append_singleton xs x => simp [List.getLast?_cons]

/-- How settling ends at the units it has not passed, while no GAP is owed: with none, at a unit that waits or is showable,
or with a GAP owed. -/
def Feed.stopsAt (v : FeedView) (f : Feed) (gap : Option (Cls × Nat)) : List TUnit → Prop
  | [] => gap = none
  | u :: _ =>
    (f.waits v u → gap = none) ∧
      (¬ f.waits v u → u.text ≠ [] ∧ (v.accepts u.cls = true → gap = none) ∧
        (v.accepts u.cls = false → f.marked v ∧ gap = some (u.cls, u.number)))

theorem Feed.stopsAt_congr {v : FeedView} {f g : Feed} {gap : Option (Cls × Nat)} {us : List TUnit}
    (waits : ∀ u, g.waits v u ↔ f.waits v u) (marked : g.marked v ↔ f.marked v) (stops : g.stopsAt v gap us) :
    f.stopsAt v gap us := by
  cases us with
  | nil => exact stops
  | cons u us => simpa only [Feed.stopsAt, waits, marked] using stops

theorem settleAlong_split (v : FeedView) (us : List TUnit) (f : Feed) (no_gap : f.gapOwed = none) :
    ∃ passed rest, us = passed ++ rest ∧ (settleAlong v us f).cursor = cursorAfter f.cursor passed ∧
      (∀ u ∈ passed, f.passes v u) ∧ f.stopsAt v (settleAlong v us f).gapOwed rest := by
  induction us generalizing f with
  | nil => exact ⟨[], [], rfl, rfl, by simp, no_gap⟩
  | cons u us ih =>
    have stop : ∀ gap, settleAlong v (u :: us) f = { f with gapOwed := gap } → f.stopsAt v gap (u :: us) →
        ∃ passed rest, u :: us = passed ++ rest ∧
          (settleAlong v (u :: us) f).cursor = cursorAfter f.cursor passed ∧
          (∀ u ∈ passed, f.passes v u) ∧ f.stopsAt v (settleAlong v (u :: us) f).gapOwed rest := by
      intro gap result stops
      rw [result]
      exact ⟨[], u :: us, rfl, rfl, by simp, stops⟩
    have go : settleAlong v (u :: us) f = settleAlong v us { f with cursor := u.number } → f.passes v u →
        ∃ passed rest, u :: us = passed ++ rest ∧
          (settleAlong v (u :: us) f).cursor = cursorAfter f.cursor passed ∧
          (∀ u ∈ passed, f.passes v u) ∧ f.stopsAt v (settleAlong v (u :: us) f).gapOwed rest := by
      intro result passes
      obtain ⟨passed, rest, split, cursor, each, stops⟩ := ih { f with cursor := u.number } no_gap
      rw [result]
      refine ⟨u :: passed, rest, by rw [split]; rfl, by rw [cursor, cursorAfter_cons], fun x mem => ?_, stops⟩
      rcases List.mem_cons.mp mem with rfl | mem
      · exact passes
      · exact each x mem
    have unchanged : { f with gapOwed := none } = f := by rw [← no_gap]
    by_cases eligible : v.eligible u = true
    case neg =>
      refine stop none (by simp [settleAlong, eligible, unchanged]) ⟨fun _ => rfl, fun goes => ?_⟩
      exact absurd (.inl (by simpa using eligible)) goes
    by_cases beyond : f.beyondTail u = true
    case pos =>
      refine stop none (by simp [settleAlong, beyond, unchanged]) ⟨fun _ => rfl, fun goes => ?_⟩
      exact absurd (.inr beyond) goes
    have goes : ¬ f.waits v u := by rintro (h | h) <;> simp_all
    by_cases showable : v.showable u = true
    case pos =>
      obtain ⟨accepted, text⟩ := (v.showable_iff u).mp showable
      refine stop none (by simp [settleAlong, eligible, beyond, showable, unchanged]) ⟨fun _ => rfl, fun _ => ⟨text, fun _ => rfl, ?_⟩⟩
      simp [accepted]
    by_cases text : u.text = []
    case pos =>
      exact go (by simp [settleAlong, eligible, beyond, no_gap, showable, text]) ⟨goes, .inl text⟩
    have excluded : v.accepts u.cls = false := by
      rw [Bool.eq_false_iff]
      exact fun accepted => showable ((v.showable_iff u).mpr ⟨accepted, text⟩)
    by_cases marked : f.marked v
    case pos =>
      obtain ⟨c, last, accepted⟩ := marked
      refine stop (some (u.cls, u.number))
        (by simp [settleAlong, eligible, beyond, no_gap, showable, text, last, accepted])
        ⟨fun waits => absurd waits goes, fun _ => ⟨text, by simp [excluded], fun _ => ⟨⟨c, last, accepted⟩, rfl⟩⟩⟩
    refine go ?_ ⟨goes, .inr ⟨excluded, marked⟩⟩
    cases last : f.lastShown with
    | none => simp [settleAlong, eligible, beyond, no_gap, showable, text, last]
    | some c =>
      have rejected : v.accepts c = false := by
        rw [Bool.eq_false_iff]
        exact fun accepted => marked ⟨c, last, accepted⟩
      simp [settleAlong, eligible, beyond, no_gap, showable, text, last, rejected]

theorem settleAlong_of_gap {v : FeedView} {f : Feed} (us : List TUnit) (gap : f.gapOwed ≠ none) :
    settleAlong v us f = f := by
  cases us with
  | nil => rfl
  | cons u us =>
    have owed := Option.isSome_iff_ne_none.mpr gap
    simp only [settleAlong, owed, if_true]
    split_ifs <;> rfl

theorem settle_of_delivering {v : FeedView} {f : Feed} (delivers : f.delivering = true) :
    settle v f = settleAlong v (v.above f.cursor) f := by
  rw [settle, if_pos delivers]

theorem settle_of_not_delivering {v : FeedView} {f : Feed} (idle : f.delivering = false) : settle v f = f := by
  rw [settle, if_neg (by simp [idle])]

/-- The cursor lies between the units passed and the others. -/
theorem lt_of_mem_rest {cursor : Nat} {passed rest : List TUnit} (above : ∀ u ∈ passed ++ rest, cursor < u.number)
    (ascending : (passed ++ rest).Pairwise fun x y => x.number < y.number) {u : TUnit} (mem : u ∈ rest) :
    cursorAfter cursor passed < u.number := by
  unfold cursorAfter
  cases last : passed.getLast? with
  | none => exact above u (List.mem_append_right _ mem)
  | some x =>
    obtain ⟨-, -, passed_lt⟩ := List.pairwise_append.mp ascending
    exact passed_lt x (List.mem_of_getLast? last) u mem

theorem le_of_mem_passed {cursor : Nat} {passed : List TUnit}
    (ascending : passed.Pairwise fun x y => x.number < y.number) {u : TUnit} (mem : u ∈ passed) :
    u.number ≤ cursorAfter cursor passed := by
  rcases passed.eq_nil_or_concat with rfl | ⟨older, newest, rfl⟩
  · cases mem
  · rw [List.concat_eq_append] at ascending mem ⊢
    simp only [cursorAfter, List.getLast?_concat, Option.map_some, Option.getD_some]
    obtain ⟨-, -, older_lt⟩ := List.pairwise_append.mp ascending
    rcases List.mem_append.mp mem with mem | mem
    · exact (older_lt u mem newest List.mem_cons_self).le
    · rw [List.mem_singleton.mp mem]

theorem le_cursorAfter {cursor : Nat} {passed : List TUnit} (above : ∀ u ∈ passed, cursor < u.number) :
    cursor ≤ cursorAfter cursor passed := by
  unfold cursorAfter
  cases last : passed.getLast? with
  | none => exact le_refl cursor
  | some x => exact (above x (List.mem_of_getLast? last)).le

theorem FeedView.mem_above {v : FeedView} {d : Nat} {u : TUnit} : u ∈ v.above d ↔ u ∈ v.units ∧ d < u.number := by
  simp [FeedView.above]

/-- What settling does to a delivering feed that owes no GAP, among units in ascending order. -/
theorem settle_spec {v : FeedView} {f : Feed} (delivers : f.delivering = true) (no_gap : f.gapOwed = none)
    (ascending : v.units.Pairwise fun x y => x.number < y.number) :
    f.cursor ≤ (settle v f).cursor ∧
      ((settle v f).cursor = f.cursor ∨ ∃ u ∈ v.units, u.number = (settle v f).cursor) ∧
      (∀ u ∈ v.units, f.cursor < u.number → u.number ≤ (settle v f).cursor → f.passes v u) ∧
      f.stopsAt v (settle v f).gapOwed (v.above (settle v f).cursor) := by
  obtain ⟨passed, rest, split, cursor, each, stops⟩ := settleAlong_split v (v.above f.cursor) f no_gap
  rw [settle_of_delivering delivers, cursor]
  have above : ∀ u ∈ passed ++ rest, f.cursor < u.number := fun u mem => (FeedView.mem_above.mp (split ▸ mem)).2
  have in_order : (passed ++ rest).Pairwise fun x y => x.number < y.number := split ▸ ascending.filter _
  have rest_eq : v.above (cursorAfter f.cursor passed) = rest := by
    have narrowed : v.above (cursorAfter f.cursor passed) =
        (v.above f.cursor).filter fun u => decide (cursorAfter f.cursor passed < u.number) := by
      have lower := le_cursorAfter fun u mem => above u (List.mem_append_left _ mem)
      rw [FeedView.above, FeedView.above, List.filter_filter]
      refine List.filter_congr fun u _ => ?_
      rw [Bool.eq_iff_iff]
      simp only [decide_eq_true_eq, Bool.and_eq_true]
      omega
    rw [narrowed, split, List.filter_append, List.filter_eq_nil_iff.mpr, List.nil_append, List.filter_eq_self]
    · exact fun u mem => by simpa using lt_of_mem_rest above in_order mem
    · exact fun u mem => by simpa using le_of_mem_passed (List.pairwise_append.mp in_order).1 mem
  refine ⟨le_cursorAfter fun u mem => above u (List.mem_append_left _ mem), ?_, fun u held higher lower => ?_,
    rest_eq ▸ stops⟩
  · unfold cursorAfter
    cases last : passed.getLast? with
    | none => exact .inl rfl
    | some x =>
      have mem : x ∈ v.above f.cursor := split ▸ List.mem_append_left _ (List.mem_of_getLast? last)
      exact .inr ⟨x, (FeedView.mem_above.mp mem).1, rfl⟩
  · have mem : u ∈ passed ++ rest := split ▸ FeedView.mem_above.mpr ⟨held, higher⟩
    rcases List.mem_append.mp mem with mem | mem
    · exact each u mem
    · exact absurd lower (not_le.mpr (lt_of_mem_rest above in_order mem))

/-- Settles O48: eligibility by tier, and the split of the units above the cursor into those passed and the others. -/
theorem settlingMovesTheCursor : Obligations.SettlingMovesTheCursor := by
  refine ⟨fun v u => ⟨?eligible, v.showable_iff u, ?accepts⟩, fun v f ascending shown_ascending => ?settle⟩
  case eligible =>
    cases tier : v.cfg.tier with
    | live => simp [FeedView.eligible_of_live tier]
    | settled => exact FeedView.eligible_of_settled tier u
    | delayed => rw [FeedView.eligible_of_delayed tier, FeedView.released_iff]
  case accepts => cases cls : u.cls <;> simp [FeedView.accepts, clsCode]
  case settle =>
    intro waits marked g
    have waits_iff : ∀ u, waits u ↔ f.waits v u := fun u => by
      simp only [waits, Feed.waits, Feed.beyondTail_iff]
    have marked_iff : marked ↔ f.marked v := (Feed.marked_iff shown_ascending).symm
    refine ⟨fun stopped => ?_, fun delivering => ?_⟩
    · refine settle_of_not_delivering ?_
      rcases stopped with h | h <;> simp [Feed.delivering, h]
    have delivers : f.delivering = true := f.delivering_iff.mpr delivering
    refine ⟨settle_eq v f, fun gap => ?_, ?_⟩
    · exact (settle_of_delivering delivers).trans (settleAlong_of_gap _ gap)
    by_cases no_gap : f.gapOwed = none
    · obtain ⟨lower, at_unit, passes, stops⟩ := settle_spec delivers no_gap ascending
      refine ⟨lower, at_unit, fun u held higher low => ?_, fun _ => ⟨fun all => ?_, fun u next => ?_⟩⟩
      · rw [waits_iff, marked_iff]
        exact passes u held higher low
      · have none_above : v.above g.cursor = [] :=
          List.filter_eq_nil_iff.mpr fun u held => by simpa using all u held
        rw [none_above] at stops
        exact stops
      · rw [FeedView.find?_above, List.head?_eq_some_iff] at next
        obtain ⟨rest, above⟩ := next
        rw [above] at stops
        rw [waits_iff, marked_iff]
        exact stops
    · have same : g = f := (settle_of_delivering delivers).trans (settleAlong_of_gap _ no_gap)
      rw [same]
      refine ⟨le_refl _, .inl rfl, fun u _ higher lower => absurd higher (not_lt.mpr lower), fun gap => absurd gap no_gap⟩

end Sys2Proof.Machine
end

section
/-! The frames a feed owes, in their order, and what they carry (R150, R153, R156, R157, R162). -/

namespace Sys2Proof.Machine

/-! ### The order of the frames -/

theorem owedFrame_of_not_delivering {v : FeedView} {f : Feed} (idle : f.delivering = false) : owedFrame v f = none := by
  simp [owedFrame, idle]

theorem owedFrame_of_clearOwed {v : FeedView} {f : Feed} (delivers : f.delivering = true) (clear : f.clearOwed = true) :
    owedFrame v f = some (.clear, { f with clearOwed := false }) := by
  simp [owedFrame, delivers, clear]

theorem owedFrame_of_beginOwed {v : FeedView} {f : Feed} (delivers : f.delivering = true) (clear : f.clearOwed = false)
    (begins : f.beginOwed = true) :
    owedFrame v f = some (.repaintBegin (f.repaintTail.getD 0), { f with beginOwed := false }) := by
  simp [owedFrame, delivers, clear, begins]

theorem owedFrame_of_note {v : FeedView} {f : Feed} {note : ChangeNote} {rest : List ChangeNote}
    (delivers : f.delivering = true) (clear : f.clearOwed = false) (begun : f.beginOwed = false)
    (queued : f.changes = note :: rest) :
    owedFrame v f = some (noteFrame v.units note, { f with changes := rest, notesSent := f.notesSent + 1 }) := by
  simp [owedFrame, delivers, clear, begun, queued]

theorem owedFrame_of_gap {v : FeedView} {f : Feed} {c : Cls} {n : Nat} (delivers : f.delivering = true)
    (clear : f.clearOwed = false) (begun : f.beginOwed = false) (queued : f.changes = [])
    (gap : f.gapOwed = some (c, n)) :
    owedFrame v f = some (.gap c n,
      { f with cursor := n, shown := f.shown ++ [{ number := n, kind := .gap, cls := c }], gapOwed := none,
               gapsSent := f.gapsSent + 1 }) := by
  simp [owedFrame, delivers, clear, begun, queued, gap]

theorem owedFrame_of_repaintDone {v : FeedView} {f : Feed} (delivers : f.delivering = true)
    (clear : f.clearOwed = false) (begun : f.beginOwed = false) (queued : f.changes = []) (no_gap : f.gapOwed = none)
    (done : repaintDone v f = true) :
    owedFrame v f = some (.repaintEnd, { f with state := .active, repaintTail := none }) := by
  simp [owedFrame, delivers, clear, begun, queued, no_gap, done]

theorem owedFrame_of_addOwed {v : FeedView} {f : Feed} (delivers : f.delivering = true)
    (clear : f.clearOwed = false) (begun : f.beginOwed = false) (queued : f.changes = []) (no_gap : f.gapOwed = none)
    (going_on : repaintDone v f = false) :
    owedFrame v f = (addOwed v f).map fun u =>
      (addFrame u, { f with cursor := u.number, shown := f.shown ++ [addEntry u], addsSent := f.addsSent + 1 }) := by
  cases add : addOwed v f <;> simp [owedFrame, delivers, clear, begun, queued, no_gap, going_on, add]

theorem repaintDone_iff (v : FeedView) (f : Feed) :
    repaintDone v f = true ↔ f.state = .repaint ∧
      ∀ u, v.units.find? (fun u => decide (f.cursor < u.number)) = some u →
        ∃ n, f.repaintTail = some n ∧ n < u.number := by
  rw [FeedView.find?_above]
  unfold repaintDone
  cases v.above f.cursor with
  | nil => simp
  | cons u us =>
    simp only [Bool.and_eq_true, decide_eq_true_eq, Feed.beyondTail_iff, List.head?_cons, Option.some.injEq,
      forall_eq']
    exact ⟨fun ⟨repaint, _, tail⟩ => ⟨repaint, tail⟩, fun ⟨repaint, tail⟩ => ⟨repaint, repaint, tail⟩⟩

theorem addOwed_eq {v : FeedView} {f : Feed} (no_gap : f.gapOwed = none) (going_on : repaintDone v f = false) :
    addOwed v f =
      (v.units.find? fun u => decide (f.cursor < u.number)).filter fun u => v.eligible u && v.showable u := by
  rw [FeedView.find?_above]
  unfold addOwed
  unfold repaintDone at going_on
  cases above : v.above f.cursor with
  | nil => rfl
  | cons u us =>
    have not_beyond : f.beyondTail u = false := by
      rw [Bool.eq_false_iff]
      intro beyond
      have repaint := ((f.beyondTail_iff u).mp beyond).1
      simp [above, repaint, beyond] at going_on
    simp only [not_beyond, no_gap, List.head?_cons, Option.filter]
    simp

/-! ### What the frames carry -/

/-- A frame is a change note's when the oldest note is queued, and else none. -/
theorem noteFrame_ne {units : List TUnit} {note : ChangeNote} {n : Nat} {c : Cls} {sp : Nat} {j par prov sus : Bool}
    {t : Bytes} : noteFrame units note ≠ .add n c sp j par prov sus t := by
  unfold noteFrame
  split
  · simp
  · simp
  · simp
  · split <;> simp

theorem noteFrame_eq_replace {units : List TUnit} {note : ChangeNote} {n : Nat} {c : Cls} {j : Bool} {t : Bytes}
    (sent : noteFrame units note = .replace n c j t) :
    note = .replace n ∧ ∃ u, units.find? (fun x => decide (x.number = n)) = some u ∧ u.cls = c ∧ u.join = j ∧ u.text = t := by
  unfold noteFrame at sent
  split at sent
  · cases sent
  · cases sent
  · cases sent
  · split at sent
    next m u found =>
      cases sent
      exact ⟨rfl, u, found, rfl, rfl, rfl⟩
    next => cases sent

/-- The frames that a change note makes. -/
def Frame.isChange : Frame → Bool
  | .retractFrom _ | .redact _ | .confirm _ | .replace _ _ _ _ => true
  | _ => false

theorem noteFrame_isChange (units : List TUnit) (note : ChangeNote) : (noteFrame units note).isChange = true := by
  unfold noteFrame
  split
  · rfl
  · rfl
  · rfl
  · split <;> rfl

/-- Where a sent frame comes from: its own flag, the oldest note, or the next unit. -/
theorem owedFrame_cases {v : FeedView} {f g : Feed} {frame : Frame} (sent : owedFrame v f = some (frame, g)) :
    (frame.isChange = false ∧ ∀ n c sp j par prov sus t, frame ≠ .add n c sp j par prov sus t) ∨
      (∃ note rest, f.delivering = true ∧ f.changes = note :: rest ∧ frame = noteFrame v.units note) ∨
      ∃ u, addOwed v f = some u ∧ frame = addFrame u := by
  unfold owedFrame at sent
  split at sent
  next => cases sent
  next delivers =>
    split at sent
    next => cases sent; exact .inl ⟨rfl, by simp⟩
    next =>
    split at sent
    next => cases sent; exact .inl ⟨rfl, by simp⟩
    next =>
    split at sent
    next note rest queued => cases sent; exact .inr (.inl ⟨note, rest, by simpa using delivers, queued, rfl⟩)
    next =>
    split at sent
    next => cases sent; exact .inl ⟨rfl, by simp⟩
    next =>
    split at sent
    next => cases sent; exact .inl ⟨rfl, by simp⟩
    next =>
    split at sent
    next u add => cases sent; exact .inr (.inr ⟨u, add, rfl⟩)
    next => cases sent

theorem addOwed_spec {v : FeedView} {f : Feed} {u : TUnit} (owed : addOwed v f = some u) :
    u ∈ v.units ∧ v.eligible u = true ∧ v.accepts u.cls = true ∧ u.text ≠ [] := by
  unfold addOwed at owed
  split at owed
  next => cases owed
  next first rest above =>
    split at owed
    next owes =>
      obtain rfl : first = u := by simpa using owed
      have shows : v.showable first = true := by simp_all
      have eligible : v.eligible first = true := by simp_all
      have mem : first ∈ v.above f.cursor := above ▸ List.mem_cons_self
      exact ⟨(FeedView.mem_above.mp mem).1, eligible, (v.showable_iff first).mp shows⟩
    next => cases owed

/-- A REPLACE of a record in form carries a held unit with an accepted class. -/
theorem replace_of_truthful {v : FeedView} {f : Feed} (form : f.truthful v) {note : ChangeNote} {rest : List ChangeNote}
    (queued : f.changes = note :: rest) {n : Nat} {c : Cls} {j : Bool} {t : Bytes}
    (sent : noteFrame v.units note = .replace n c j t) :
    v.accepts c = true ∧ ∃ u ∈ v.units, u.number = n ∧ u.cls = c ∧ u.join = j ∧ u.text = t := by
  obtain ⟨-, delayed, backed, accepted⟩ := form
  obtain ⟨rfl, u, found, rfl, rfl, rfl⟩ := noteFrame_eq_replace sent
  have number : u.number = n := by simpa using List.find?_some found
  have not_delayed : v.cfg.tier ≠ .delayed := fun tier => by simp [delayed tier] at queued
  have entry : f.textEntry n = true := backed (.replace n) (queued ▸ List.mem_cons_self)
  obtain ⟨e, shown, rfl, kind⟩ := (f.textEntry_iff n).mp entry
  have held := accepted not_delayed e shown kind
  rw [FeedView.holdsAccepted, clsOf, found] at held
  exact ⟨held, u, List.mem_of_find?_eq_some found, number, rfl, rfl, rfl⟩

/-- Settles O49: each flag, note and unit in the order of R156, and the sent frames of a record in form. -/
theorem feedsOweFramesInOrder : Obligations.FeedsOweFramesInOrder := by
  intro v f above sends noted ended adds
  have ended_iff : repaintDone v f = true ↔ ended := repaintDone_iff v f
  refine ⟨fun stopped => ?_, fun delivering => ?_, fun form frame g sent => ?_⟩
  · refine owedFrame_of_not_delivering ?_
    rcases stopped with h | h <;> simp [Feed.delivering, h]
  · have delivers : f.delivering = true := f.delivering_iff.mpr delivering
    refine ⟨owedFrame_of_clearOwed delivers, fun clear => ⟨fun n begins tail => ?_, fun begun => ?_⟩⟩
    · simpa only [tail, Option.getD_some] using owedFrame_of_beginOwed (v := v) delivers clear begins
    have of_note := fun note rest => owedFrame_of_note (v := v) (note := note) (rest := rest) delivers clear begun
    refine ⟨fun n => of_note _, fun n => of_note _, fun n => of_note _, fun n rest u queued found => ?_,
      fun queued => ⟨fun c n => owedFrame_of_gap delivers clear begun queued, fun no_gap => ⟨fun done => ?_,
        fun going_on => ?_⟩⟩⟩
    · simpa only [noteFrame, found] using of_note _ rest queued
    · exact owedFrame_of_repaintDone delivers clear begun queued no_gap (ended_iff.mpr done)
    have going_on : repaintDone v f = false := by rwa [← ended_iff, Bool.not_eq_true] at going_on
    have add := owedFrame_of_addOwed delivers clear begun queued no_gap going_on
    have add_eq := addOwed_eq no_gap going_on
    refine ⟨fun u next ⟨eligible, accepted, text⟩ => ?_, fun none_adds => ?_⟩
    · have next' : v.units.find? (fun u => decide (f.cursor < u.number)) = some u := next
      have shows := (v.showable_iff u).mpr ⟨accepted, text⟩
      simp only [sends, add, add_eq, next', Option.filter, eligible, shows]
      rfl
    · rw [add, add_eq]
      cases next : v.units.find? (fun u => decide (f.cursor < u.number)) with
      | none => rfl
      | some u =>
        have stops : (v.eligible u && v.showable u) = false := by
          rw [Bool.eq_false_iff, ne_eq, Bool.and_eq_true, FeedView.showable_iff]
          exact none_adds u next
        simp [Option.filter, stops]
  · rcases owedFrame_cases sent with ⟨no_change, no_add⟩ | ⟨note, rest, delivers, queued, rfl⟩ | ⟨u, owed, rfl⟩
    · refine ⟨fun _ n => ⟨?_, ?_, ?_, fun c j t => ?_⟩, fun n c j t same => ?_, fun n c sp j par prov sus t same => ?_⟩
      · rintro rfl; cases no_change
      · rintro rfl; cases no_change
      · rintro rfl; cases no_change
      · rintro rfl; cases no_change
      · subst same; cases no_change
      · exact absurd same (no_add n c sp j par prov sus t)
    · refine ⟨fun tier => ?_, fun n c j t => replace_of_truthful form queued, fun n c sp j par prov sus t same => ?_⟩
      · simp [form.2.1 tier] at queued
      · exact absurd same noteFrame_ne
    · obtain ⟨held, eligible, accepted, text⟩ := addOwed_spec owed
      refine ⟨fun _ n => ⟨nofun, nofun, nofun, nofun⟩, nofun, fun n c sp j par prov sus t same => ?_⟩
      rw [addFrame, Frame.add.injEq] at same
      obtain ⟨rfl, rfl, rfl, rfl, rfl, rfl, rfl, rfl⟩ := same
      refine ⟨accepted, text, fun tier => ?_, u, held, rfl, rfl, rfl, by simp, fun tier => ?_⟩
      · simpa using (FeedView.eligible_of_settled tier u).mp eligible
      · exact (FeedView.eligible_of_delayed tier u).mp eligible

end Sys2Proof.Machine
end

section
/-! What each report of the transcript manager does to a feed record (R157 to R160, R163, R167). -/

namespace Sys2Proof.Machine

theorem report_feeds_get (r : Report) (s : State) (i : FeedId) :
    (report r s).feeds.feeds.get i = onReport (s.view i) r (s.feeds.feeds.get i) := by
  rw [report, onFeeds_feeds, Five.get_mapId]

theorem report_eq (r : Report) (s : State) :
    report r s = { s with feeds := { s.feeds with feeds := (report r s).feeds.feeds } } := rfl

theorem onReport_of_off {v : FeedView} {f : Feed} (off : f.state = .off) (r : Report) : onReport v r f = f := by
  simp only [onReport, off]

theorem onReport_of_stalled {v : FeedView} {f : Feed} (stalled : f.state = .stalled) (r : Report) :
    onReport v r f = onReportStalled v f r := by
  simp only [onReport, stalled]

theorem onReport_of_delivering {v : FeedView} {f : Feed} (delivering : f.state = .active ∨ f.state = .repaint)
    (r : Report) : onReport v r f = onReportDelivering v f r := by
  rcases delivering with state | state <;> simp only [onReport, state]

/-- The queued notes after a note that is always raised has been merged with them (R158). -/
theorem raiseNote_of_raised {v : FeedView} {note : ChangeNote} {f : Feed} (raised : (mergeNote note f.changes).2 = true) :
    raiseNote v note f =
      if (mergeNote note f.changes).1.length ≤ 15 then { f with changes := (mergeNote note f.changes).1 ++ [note] }
      else beginRepaint v { f with overflows := f.overflows + 1 } := by
  rw [raiseNote_eq v note f raised]
  exact if_congr Nat.lt_succ_iff rfl rfl

theorem raiseNote_replace_of_mem {v : FeedView} {f : Feed} {n : Nat} (queued : .replace n ∈ f.changes) :
    raiseNote v (.replace n) f = f := by
  simp [raiseNote, mergeNote, queued]

theorem raiseNote_replace_of_not_mem {v : FeedView} {f : Feed} {n : Nat} (fresh : .replace n ∉ f.changes) :
    raiseNote v (.replace n) f =
      if f.changes.length ≤ 15 then { f with changes := f.changes ++ [.replace n] }
      else beginRepaint v { f with overflows := f.overflows + 1 } :=
  raiseNote_of_raised (by simpa [mergeNote] using fresh)

theorem retractMerge_confirm (n m : Nat) :
    retractMerge n (.confirm m) =
      if m < n then some (.confirm m) else if n = 1 then none else some (.confirm (n - 1)) := by
  by_cases lower : m < n
  · simp [retractMerge, lower, not_le.mpr lower]
  · simp [retractMerge, lower, not_lt.mp lower]

theorem retractMerge_other {n : Nat} {q : ChangeNote} (other : ∀ m, q ≠ .confirm m) :
    retractMerge n q = if q.number < n then some q else none := by
  by_cases lower : q.number < n
  · cases q with
    | confirm m => exact absurd rfl (other m)
    | _ => simp [retractMerge, lower, not_le.mpr lower]
  · cases q with
    | confirm m => exact absurd rfl (other m)
    | _ => simp [retractMerge, lower, not_lt.mp lower]

theorem onReclassified_of_sent {v : FeedView} {f : Feed} {n : Nat} {c : Cls} (tier : v.cfg.tier ≠ .delayed)
    (sent : f.textEntry n = true) :
    onReclassified v n c f =
      if v.accepts c = true then raiseNote v (.replace n) { f with shown := f.shown.map (reclassEntry n c false) }
      else raiseNote v (.redact n) { f with shown := f.shown.map (reclassEntry n c true) } := by
  rw [onReclassified, if_pos (by simp [tier, sent])]

/-- Settles O50: each report at an OFF, a STALLED and a delivering feed. -/
theorem reportsReachTheFeeds : Obligations.ReportsReachTheFeeds := by
  refine ⟨fun r s i => ⟨report_feeds_get r s i, report_eq r s⟩, ?_⟩
  intro v f n old repainted raised lowered sent forgotten lapped cleared
  have lowered_eq : (if n ≤ f.cursor then { f with cursor := n - 1 } else f) = lowered := by
    simp only [lowered]
    split <;> rfl
  have forgotten_eq : ({ f with
      shown := f.shown.filter fun e => decide (e.number ≠ n)
      changes := f.changes.filter fun q => decide (q ≠ .replace n ∧ q ≠ .redact n) } : Feed) = forgotten := by
    simp only [forgotten, Bool.decide_and]
  have sent_iff : f.textEntry n = true ↔ sent := f.textEntry_iff n
  refine ⟨onReport_of_off, fun stalled => ?stalled, fun delivering => ?delivering⟩
  case stalled =>
    have idle : f.delivering = false := by simp [Feed.delivering, stalled]
    have reports := onReport_of_stalled (v := v) stalled
    refine ⟨fun r mem => ?_, ?_, ?_, ?_⟩
    · rw [reports]
      simp only [List.mem_cons, List.not_mem_nil, or_false] at mem
      rcases mem with rfl | rfl | rfl | rfl | rfl <;> rfl
    · rw [reports]
      exact lowered_eq
    · rw [reports, onReportStalled, onFreed]
      dsimp only
      rw [forgotten_eq, settle_of_not_delivering (f := forgotten) idle, if_neg (c := f.delivering = true) (by simp [idle])]
    · rw [reports, onReportStalled, onCleared]
      dsimp only
      rw [if_neg (by simp [idle])]
  case delivering =>
    have delivers : f.delivering = true := f.delivering_iff.mpr delivering
    have reports := onReport_of_delivering (v := v) delivering
    refine ⟨reports _, reports _, ?committed, ?retracted, ?replaced⟩
    case committed =>
      intro confirmed others any
      have any_iff : f.shown.any (fun e => decide (e.number ≤ n ∧ e.kind = .provisional)) = true ↔ any := by
        simp only [any, List.any_eq_true, decide_eq_true_eq]
      refine ⟨fun ⟨live, shown⟩ => ?_, fun not_raised => ?_⟩
      · rw [reports, onReportDelivering, onCommitted, if_pos (Bool.and_eq_true_iff.mpr ⟨decide_eq_true live, any_iff.mpr shown⟩),
          raiseNote_of_raised rfl]
        rfl
      · rw [reports, onReportDelivering, onCommitted, if_neg]
        rw [Bool.and_eq_true, decide_eq_true_eq, any_iff]
        exact fun ⟨live, shown⟩ => not_raised.elim (absurd live) (absurd shown)
    case retracted =>
      intro kept any
      have any_iff : f.shown.any (fun e => decide (n ≤ e.number)) = true ↔ any := by simp [any]
      have kept_eq : f.changes.filterMap (retractMerge n) = kept := by
        refine List.filterMap_congr fun q _ => ?_
        cases q with
        | confirm m => exact retractMerge_confirm n m
        | _ => exact retractMerge_other (by simp)
      refine ⟨fun tier => ?_, fun tier shown => ?_, fun tier none_shown => ?_⟩
      · rw [reports, onReportDelivering, onRetracted, if_pos tier]
      · rw [reports, onReportDelivering, onRetracted, if_neg tier]
        dsimp only
        rw [if_pos (any_iff.mpr shown), lowered_eq, raiseNote_of_raised rfl]
        show settle v (if (f.changes.filterMap (retractMerge n)).length ≤ 15 then
          { lowered with
            shown := f.shown.filter fun e => decide (e.number < n)
            changes := f.changes.filterMap (retractMerge n) ++ [.retractFrom n] } else _) = _
        rw [kept_eq]
        rfl
      · rw [reports, onReportDelivering, onRetracted, if_neg tier]
        dsimp only
        rw [if_neg (mt any_iff.mp none_shown), lowered_eq]
    case replaced =>
      refine ⟨fun not_raised => ?_, fun tier shown fresh => ?_, fun u held => ?reclassified, fun passed => ?freed,
        fun ahead => ?lapped, ?cleared⟩
      · rw [reports, onReportDelivering, onReplaced]
        split
        next goes =>
          simp only [Bool.and_eq_true, decide_eq_true_eq, sent_iff] at goes
          rcases not_raised with h | h | queued
          · exact absurd h goes.1
          · exact absurd goes.2 h
          · rw [raiseNote_replace_of_mem queued]
        next => rfl
      · rw [reports, onReportDelivering, onReplaced, if_pos (by simp [tier, sent_iff.mpr shown]),
          raiseNote_replace_of_not_mem fresh]
        rfl
      case reclassified =>
        intro shown_with
        have cls : clsOf v.units n = some u.cls := by rw [clsOf, held]; rfl
        have reclass : onReport v (.reclassified n old) f = settle v (onReclassified v n u.cls f) := by
          rw [reports]
          simp only [onReportDelivering, cls]
        refine ⟨fun not_raised => ?_, fun tier shown => ⟨fun accepted queued => ?_, fun accepted fresh => ?_,
          fun excluded => ?_⟩⟩
        · rw [reclass, onReclassified, if_neg]
          rw [Bool.and_eq_true, decide_eq_true_eq, sent_iff]
          exact fun ⟨tier, shown⟩ => not_raised.elim tier (absurd shown)
        all_goals rw [reclass, onReclassified_of_sent tier (sent_iff.mpr shown)]
        · rw [if_pos accepted, raiseNote_replace_of_mem (f := { f with shown := f.shown.map (reclassEntry n u.cls false) }) queued]
          rfl
        · rw [if_pos accepted,
            raiseNote_replace_of_not_mem (f := { f with shown := f.shown.map (reclassEntry n u.cls false) }) fresh]
          rfl
        · rw [if_neg (by simp [excluded]), raiseNote_of_raised rfl]
          rfl
      case freed =>
        rw [reports, onReportDelivering, onFreed]
        dsimp only
        rw [if_pos passed, forgotten_eq]
      case lapped =>
        rw [reports, onReportDelivering, onFreed]
        dsimp only
        rw [if_neg (not_le.mpr ahead), if_pos delivers]
        rfl
      case cleared =>
        rw [reports, onReportDelivering, onCleared]
        dsimp only
        rw [if_pos delivers]

end Sys2Proof.Machine
end

section
/-! The release timer and AGED-TO (R154). -/

namespace Sys2Proof.Machine

theorem releaseUnit_iff (v : FeedView) (f : Feed) (u : TUnit) :
    releaseUnit v f = some u ↔
      f.delivering = true ∧ v.cfg.tier = .delayed ∧ u.state = .firm ∧ v.agedTo < u.number ∧
        v.units.find? (fun x => decide (f.cursor < x.number)) = some u := by
  rw [← List.head?_filter]
  unfold releaseUnit FeedView.above
  cases v.units.filter (fun x => decide (f.cursor < x.number)) with
  | nil => simp
  | cons w rest =>
    simp only [Option.ite_none_right_eq_some, Bool.and_eq_true, decide_eq_true_eq, List.head?_cons, Option.some.injEq]
    constructor
    · rintro ⟨⟨delivers, tier, firm, above⟩, rfl⟩
      exact ⟨delivers, tier, firm, above, rfl⟩
    · rintro ⟨delivers, tier, firm, above, rfl⟩
      exact ⟨⟨delivers, tier, firm, above⟩, rfl⟩

theorem State.advance_now (d : Nat) (s : State) : (s.advance d).time.now = s.time.now + BitVec.ofNat 32 d := rfl

/-- At the moment to which a run goes, the stretch it waits for has passed. -/
theorem State.le_age_runTo (s : State) (t : LocalTime) {limit : Nat} (small : limit < 2 ^ 32) :
    limit ≤ ((s.runTo t limit).time.now - t).toNat := by
  unfold State.runTo State.age since
  split
  next early =>
    rw [State.advance_now]
    have sum : s.time.now + BitVec.ofNat 32 (limit - (s.time.now - t).toNat) - t =
        (s.time.now - t) + BitVec.ofNat 32 (limit - (s.time.now - t).toNat) := by bv_omega
    rw [sum, BitVec.toNat_add, BitVec.toNat_ofNat]
    omega
  next late => exact Nat.not_lt.mp late

theorem seconds_lt {seconds : Nat} (short : seconds ≤ 120) : seconds * 1000000 < 2 ^ 32 := by omega

/-- Settles O51: the timer runs on the first unit above the cursor; at its expiry `State.le_age_runTo` gives the release. -/
theorem timedReleasesSettleTheFeeds : Obligations.TimedReleasesSettleTheFeeds := by
  intro t0 s
  refine ⟨fun i u => ?runs, fun i idle => ?idle, fun i u v runs committed run => ?expires, fun v w oldest run aged => ?ages⟩
  case runs => rw [releaseUnit_iff, Feed.delivering_iff]; rfl
  case idle =>
    show execReleaseTimerExpiry i s = _
    simp only [execReleaseTimerExpiry, idle, Option.bind_none]
  case expires =>
    obtain ⟨-, tier, firm, -, -⟩ := (releaseUnit_iff _ _ _).mp runs
    refine ⟨?_, fun short => ?_⟩
    · show execReleaseTimerExpiry i s = _
      simp only [execReleaseTimerExpiry, runs, Option.bind_some, committed, ← run]
      rfl
    · have settings_kept : v.settings = s.settings := by subst run; simp
      have tier_kept : (v.view i).cfg.tier = .delayed := by rw [State.view, settings_kept]; exact tier
      have due := s.le_age_runTo t0 (seconds_lt short)
      rw [← run, ← settings_kept] at due
      rw [FeedView.eligible_of_delayed tier_kept, FeedView.released_iff]
      exact ⟨firm, .inr ⟨t0, committed, due⟩⟩
  case ages =>
    have timer : agingUnit s = some t0 := oldest
    show execAgedToExpiry s = _
    simp only [execAgedToExpiry, timer, Config.agedLimit, ← run]
    have feeds_kept : v.feeds = s.feeds := by subst run; simp
    have units_kept : v.script = s.script := by subst run; simp
    subst aged
    rw [← units_kept, ← feeds_kept]
    rfl

end Sys2Proof.Machine
end

section
/-! The feed formatter and the frames of a display port (R171 to R173, R175). -/

namespace Sys2Proof.Machine

theorem Four.upd_upd {α : Type} (t : Four α) (p : PortId) (f g : α → α) :
    (t.upd p f).upd p g = t.upd p (fun a => g (f a)) := by cases p <;> rfl

theorem Four.upd_eq_of_get {α : Type} {t : Four α} {p : PortId} {f g : α → α} (same : f (t.get p) = g (t.get p)) :
    t.upd p f = t.upd p g := by
  cases p <;> simp only [Four.get] at same <;> simp only [Four.upd, same]

theorem requests_portFeed (s : State) (p : PortId) :
    requests s (portFeed p) = true ↔
      (owedFrame (s.view (portFeed p)) (s.feeds.feeds.get (portFeed p))).isSome = true ∧
        (s.ports.get p).state = .running ∧ (s.ports.get p).window.length < 4 := by
  cases p <;> exact (Bool.and_eq_true_iff).trans (and_congr Iff.rfl decide_eq_true_iff)

theorem requests_f0 (s : State) :
    requests s .f0 = true ↔
      (owedFrame (s.view .f0) (s.feeds.feeds.get .f0)).isSome = true ∧ s.host.textPlace = none :=
  (Bool.and_eq_true_iff).trans (and_congr Iff.rfl Option.isNone_iff_eq_none)

theorem memberRequests_low (s : State) : memberRequests s .low = true ↔ ∃ i ∈ s.fmt.low, requests s i = true :=
  List.any_eq_true

theorem find?_of_front {α : Type} {p : α → Bool} {l front back : List α} {x : α} (split : l = front ++ x :: back)
    (none_before : ∀ y ∈ front, p y = false) (holds : p x = true) : l.find? p = some x :=
  List.find?_eq_some_iff_append.mpr ⟨holds, front, back, split, fun y within => by simp [none_before y within]⟩

theorem nextGrant_feed {s : State} {front back : List Member} {i : FeedId} (high : s.fmt.high = front ++ .feed i :: back)
    (none_before : ∀ m ∈ front, memberRequests s m = false) (asks : requests s i = true) :
    nextGrant s = some (i, .feed i) := by
  have first : s.fmt.high.find? (memberRequests s) = some (.feed i) := find?_of_front high none_before asks
  simp only [nextGrant, first]

theorem nextGrant_low {s : State} {front back : List Member} {i : FeedId} {lowFront lowBack : List FeedId}
    (high : s.fmt.high = front ++ .low :: back) (none_before : ∀ m ∈ front, memberRequests s m = false)
    (low : s.fmt.low = lowFront ++ i :: lowBack) (none_before_low : ∀ j ∈ lowFront, requests s j = false)
    (asks : requests s i = true) : nextGrant s = some (i, .low) := by
  have low_asks : memberRequests s .low = true := (memberRequests_low s).mpr ⟨i, by simp [low], asks⟩
  have first : s.fmt.high.find? (memberRequests s) = some .low := find?_of_front high none_before low_asks
  have first_low : s.fmt.low.find? (requests s) = some i := find?_of_front low none_before_low asks
  simp only [nextGrant, first, first_low, Option.map_some]

theorem nextGrant_none {s : State} (quiet : ∀ i, .feed i ∈ s.fmt.high → requests s i = false)
    (quiet_low : .low ∈ s.fmt.high → ∀ i ∈ s.fmt.low, requests s i = false) : nextGrant s = none := by
  have nobody : s.fmt.high.find? (memberRequests s) = none := by
    refine List.find?_eq_none.mpr fun m within asks => ?_
    cases m with
    | feed i => exact Bool.false_ne_true ((quiet i within).symm.trans asks)
    | low =>
      obtain ⟨i, low, asks⟩ := (memberRequests_low s).mp asks
      exact Bool.false_ne_true ((quiet_low within i low).symm.trans asks)
  simp only [nextGrant, nobody]

theorem Port.begin_window (rate : Nat) (p : Port) :
    (p.begin rate).window = p.window ∧ (p.begin rate).nextSeq = p.nextSeq := by
  unfold Port.begin
  split
  · exact ⟨rfl, rfl⟩
  · dsimp only
    split
    · exact ⟨rfl, rfl⟩
    · split <;> exact ⟨rfl, rfl⟩

theorem enterOwed_textPlace (s : State) : (enterOwed s).host.textPlace = s.host.textPlace := by
  obtain ⟨owed, host⟩ := enterOwed_host s
  rw [host]

theorem chooseFrame_textPlace (s : State) : (chooseFrame s).host.textPlace = s.host.textPlace := by
  unfold chooseFrame
  split
  · rfl
  · split
    · rfl
    · split
      · exact enterOwed_textPlace _
      · split <;> rfl

theorem grantTo_of_owed {s : State} {i : FeedId} {f : Frame} {g : Feed} (m : Member)
    (owed : owedFrame (s.view i) (s.feeds.feeds.get i) = some (f, g)) :
    grantTo i m s =
      handOn i f ((s.onFmt (Formatter.granted i m)).onFeed i (fun _ => settle (s.view i) g)) := by
  simp only [grantTo, owed]
  rfl

theorem handOn_of_no_port {i : FeedId} (no_port : feedPort i = none) (f : Frame) (s : State) :
    handOn i f s = s.onHost (fun h => { h with textPlace := some f }) := by simp only [handOn, no_port]

theorem handOn_of_port {i : FeedId} {p : PortId} (port : feedPort i = some p) (f : Frame) (s : State) :
    handOn i f s = portKick p (s.onPort p (Port.enter f)) := by simp only [handOn, port]

theorem handOn_eq (i : FeedId) (f : Frame) (s : State) :
    handOn i f s = { s with ports := (handOn i f s).ports, host := (handOn i f s).host } := by
  cases port : feedPort i with
  | none => rw [handOn_of_no_port port]; rfl
  | some p => rw [handOn_of_port port]; rfl

theorem exec_grant {s : State} {i : FeedId} {m : Member} (normal : s.host.phase = .normal)
    (grant : nextGrant s = some (i, m)) : exec .grant s = .next (chooseFrame (grantTo i m s)) := by
  have not_draining : (grantTo i m s).host.phase ≠ .draining := by
    simp [normal]
  show execGrant s = _
  simp only [execGrant, grant]
  rw [transmit_of_goes_on (.inl not_draining)]

theorem exec_frameSent {s : State} {p : PortId} {x : Sending} (sending : (s.ports.get p).sending = some x) :
    exec (.frameSent p) s = .next { s with ports := s.ports.upd p (fun q =>
        Port.begin (s.settings.feed.get (portFeed p)).rate
          { q with
            sending := none
            framesSent := q.framesSent + 1
            window := if x.inWindow then markSent s.time.now q.window else q.window }) } := by
  have kicked : (s.ports.upd p (Port.sent s.time.now)).upd p (fun q => q.begin (s.settings.feed.get (portFeed p)).rate) =
      s.ports.upd p (fun q => Port.begin (s.settings.feed.get (portFeed p)).rate
        { q with
          sending := none
          framesSent := q.framesSent + 1
          window := if x.inWindow then markSent s.time.now q.window else q.window }) := by
    rw [Four.upd_upd]
    refine Four.upd_eq_of_get ?_
    simp only [Port.sent, sending]
  rw [← kicked]
  rfl

/-- Settles O53: the grant by the place of the first member that asks, its effect by `handOn_of_port` and `chooseFrame_eq`. -/
theorem grantsHandOnOwedFrames : Obligations.GrantsHandOnOwedFrames := by
  intro s normal
  refine ⟨requests_portFeed s, requests_f0 s, fun i => rfl, memberRequests_low s, fun idle => ?_,
    fun _ _ _ high before asks => nextGrant_feed high before asks,
    fun _ _ _ _ _ high before low before_low asks => nextGrant_low high before low before_low asks,
    nextGrant_none, fun i m f g grant owed => ?_, fun p x => exec_frameSent⟩
  · show execGrant s = _
    simp only [execGrant, idle]
  · refine ⟨_, exec_grant normal grant, ?_⟩
    rw [grantTo_of_owed m owed]
    refine ⟨?_, ?_, fun no_port => ?_, fun p port => ?_, ?_⟩
    · rw [chooseFrame_eq, handOn_eq]; rfl
    · rw [chooseFrame_eq, handOn_eq]; cases m <;> rfl
    · rw [handOn_of_no_port no_port]
      exact ⟨chooseFrame_textPlace _, by simp⟩
    · rw [handOn_of_port port]
      have window := Port.begin_window (s.settings.feed.get (portFeed p)).rate ((s.ports.get p).enter f)
      refine ⟨?_, ?_, by rw [chooseFrame_textPlace]; rfl⟩
      · rw [chooseFrame_eq]
        simp only [portKick, State.onPort, State.onPorts, Four.get_upd_same]
        exact window.1
      · rw [chooseFrame_eq]
        simp only [portKick, State.onPort, State.onPorts, Four.get_upd_same]
        exact window.2
    · rw [chooseFrame_eq, handOn_eq]; rfl

end Sys2Proof.Machine
end

section
/-! What the operations do to the causes of conditions (R190). -/

namespace Sys2Proof.Machine

/-- What is present of the causes: the part of a condition that its notices do not touch. -/
def State.hasCause (s : State) (c : Cond) : Bool := (s.conds.get c).cause

theorem onCond_hasCause_other (s : State) {c k : Cond} (f : CondEntry → CondEntry) (other : k ≠ c) :
    (s.onCond c f).hasCause k = s.hasCause k :=
  congrArg CondEntry.cause (Conditions.get_upd_other s.conds _ _ f other)

theorem onCond_hasCause_same (s : State) (c : Cond) (f : CondEntry → CondEntry) :
    (s.onCond c f).hasCause c = (f (s.conds.get c)).cause :=
  congrArg CondEntry.cause (Conditions.get_upd_same s.conds c f)

theorem onCond_hasCause_of_keeps (s : State) (c k : Cond) {f : CondEntry → CondEntry} (keeps : ∀ e, (f e).cause = e.cause) :
    (s.onCond c f).hasCause k = s.hasCause k := by
  by_cases same : k = c
  · subst same
    rw [onCond_hasCause_same, keeps]
    rfl
  · exact onCond_hasCause_other s f same

theorem offerCondition_hasCause (c : Cond) (raised : Bool) (s : State) (k : Cond) :
    (offerCondition c raised s).hasCause k = s.hasCause k := by
  unfold offerCondition
  split
  · rfl
  · exact onCond_hasCause_of_keeps _ _ _ fun _ => rfl

theorem setCause_hasCause_same (c : Cond) (present : Bool) (s : State) : (setCause c present s).hasCause c = present := by
  unfold setCause
  split
  next already => exact already
  next =>
    cases present with
    | true =>
      show (causePresent c s).hasCause c = true
      unfold causePresent
      split
      · exact onCond_hasCause_same s c _
      · rw [offerCondition_hasCause]; exact onCond_hasCause_same s c _
    | false =>
      show (causeAbsent c s).hasCause c = false
      unfold causeAbsent
      split
      · rw [offerCondition_hasCause]; exact onCond_hasCause_same s c _
      · exact onCond_hasCause_same s c _

theorem setCause_hasCause_other {c k : Cond} (present : Bool) (s : State) (other : k ≠ c) :
    (setCause c present s).hasCause k = s.hasCause k := by
  unfold setCause causePresent causeAbsent
  (repeat' split) <;> simp only [offerCondition_hasCause, onCond_hasCause_other _ _ other]

theorem raiseLatched_hasCause_other {c k : Cond} (s : State) (other : k ≠ c) :
    (raiseLatched c s).hasCause k = s.hasCause k := by
  unfold raiseLatched
  split <;> simp only [offerCondition_hasCause, onCond_hasCause_other _ _ other]

theorem offerNotice_hasCause (n : Notice) (s : State) {k : Cond} (other : k ≠ .noticeOverflow) :
    (offerNotice n s).hasCause k = s.hasCause k := by
  unfold offerNotice
  split
  · rfl
  · rw [raiseLatched_hasCause_other _ other]; rfl

theorem enterOwed_hasCause (s : State) (k : Cond) : (enterOwed s).hasCause k = s.hasCause k := by
  unfold enterOwed
  split
  · rfl
  · exact onCond_hasCause_of_keeps _ _ _ fun _ => rfl

theorem chooseFrame_hasCause (s : State) (k : Cond) : (chooseFrame s).hasCause k = s.hasCause k := by
  unfold chooseFrame
  split
  · rfl
  · split
    · rfl
    · split
      · exact enterOwed_hasCause _ k
      · split <;> rfl

end Sys2Proof.Machine
end

section
/-! Replies, stall and recovery of a display port (R176 to R182). -/

namespace Sys2Proof.Machine

theorem Four.upd_id {α : Type} {t : Four α} {p : PortId} {f : α → α} (same : f (t.get p) = t.get p) : t.upd p f = t := by
  cases p <;> simp only [Four.get] at same <;> simp only [Four.upd, same]

theorem Five.upd_eq_of_get {α : Type} {t : Five α} {p : FeedId} {f g : α → α} (same : f (t.get p) = g (t.get p)) :
    t.upd p f = t.upd p g := by
  cases p <;> simp only [Five.get] at same <;> simp only [Five.upd, same]

theorem Five.upd_upd {α : Type} (t : Five α) (p : FeedId) (f g : α → α) :
    (t.upd p f).upd p g = t.upd p (fun a => g (f a)) := by cases p <;> rfl

/-- One port of the state after a change that is told only for the port as it stands. -/
theorem onPort_congr {s : State} {p : PortId} {f g : Port → Port} (same : f (s.ports.get p) = g (s.ports.get p)) :
    s.onPort p f = s.onPort p g := by
  show { s with ports := s.ports.upd p f } = { s with ports := s.ports.upd p g }
  rw [Four.upd_eq_of_get same]

theorem onPort_id {s : State} {p : PortId} {f : Port → Port} (same : f (s.ports.get p) = s.ports.get p) :
    s.onPort p f = s := by
  show { s with ports := s.ports.upd p f } = s
  rw [Four.upd_id same]

theorem onPort_onPort (s : State) (p : PortId) (f g : Port → Port) :
    (s.onPort p f).onPort p g = s.onPort p (fun q => g (f q)) := by
  show { s with ports := (s.ports.upd p f).upd p g } = { s with ports := s.ports.upd p (fun q => g (f q)) }
  rw [Four.upd_upd]

/-! ### Acknowledgements -/

theorem sentFrame_eq_false {q : Byte} {w : List WinFrame} (stray : ∀ y ∈ w, y.seq = q → y.sentAt = none) :
    sentFrame q w = false := by
  simp only [sentFrame, List.any_eq_false, Bool.and_eq_true, decide_eq_true_eq]
  rintro y within ⟨seq, sent⟩
  simp [stray y within seq] at sent

theorem sentFrame_split {q : Byte} {a b : List WinFrame} {x : WinFrame} (seq : x.seq = q) (sent : x.sentAt ≠ none) :
    sentFrame q (a ++ x :: b) = true := by
  simp only [sentFrame, List.any_eq_true, Bool.and_eq_true, decide_eq_true_eq]
  exact ⟨x, by simp, seq, Option.isSome_iff_ne_none.mpr sent⟩

theorem ackWindow_split {q : Byte} {b : List WinFrame} {x : WinFrame} (seq : x.seq = q) (sent : x.sentAt ≠ none) :
    ∀ {a : List WinFrame}, (∀ y ∈ a, y.seq ≠ q) → ackWindow q (a ++ x :: b) = b
  | [], _ => by simp [ackWindow, seq, Option.isSome_iff_ne_none.mpr sent]
  | y :: a, before => by
    have other : y.seq ≠ q := before y (by simp)
    simp [ackWindow, other, ackWindow_split seq sent (a := a) fun z within => before z (by simp [within])]

theorem Port.acked_of_stray {q : Byte} {p : Port} (stray : ∀ y ∈ p.window, y.seq = q → y.sentAt = none) :
    p.acked q = { p with strayAcks := p.strayAcks + 1 } := by
  simp [Port.acked, sentFrame_eq_false stray]

theorem Port.acked_of_sent {q : Byte} {p : Port} {a b : List WinFrame} {x : WinFrame} (window : p.window = a ++ x :: b)
    (seq : x.seq = q) (sent : x.sentAt ≠ none) (before : ∀ y ∈ a, y.seq ≠ q) :
    p.acked q = { p with window := b, framesAcked := p.framesAcked + BitVec.ofNat 32 (a.length + 1) } := by
  have count : (a ++ x :: b).length - b.length = a.length + 1 := by simp; omega
  simp only [Port.acked, window, sentFrame_split seq sent, ackWindow_split seq sent before, count, if_true]

theorem exec_ack {s : State} (normal : s.host.phase = .normal) (p : PortId) (seq : Byte) :
    exec (.ack p seq) s = .next (chooseFrame (takeAck p seq (s.onPort p (fun q => { q with rx := .hunt })))) := by
  show Host.Outcome.next (transmit _) = _
  rw [transmit_of_goes_on (.inl (by simp [normal]))]

theorem exec_resync {s : State} (normal : s.host.phase = .normal) (p : PortId) (seq : Byte) :
    exec (.resync p seq) s = .next (chooseFrame (takeResync p (s.onPort p (fun q => { q with rx := .hunt })))) := by
  show Host.Outcome.next (transmit _) = _
  rw [transmit_of_goes_on (.inl (by simp [normal]))]

theorem onPort_state {s : State} {p : PortId} {f : Port → Port} {st : PortState} (state : (s.ports.get p).state = st)
    (keeps : ∀ q, (f q).state = q.state) : ((s.onPort p f).ports.get p).state = st := by
  show ((s.ports.upd p f).get p).state = st
  rw [Four.get_upd_same, keeps, state]

theorem takeAck_of_off {s : State} {p : PortId} (off : (s.ports.get p).state = .off) (q : Byte) : takeAck p q s = s := by
  simp only [takeAck, off]

theorem takeAck_of_running {s : State} {p : PortId} (running : (s.ports.get p).state = .running) (q : Byte) :
    takeAck p q s = s.onPort p (Port.acked q) := by
  simp only [takeAck, running]

theorem takeAck_of_probe {s : State} {p : PortId} {q : Byte} (stalled : (s.ports.get p).state = .stalled)
    (probe : (s.ports.get p).probeSeq = some q) : takeAck p q s = portRecover p s := by
  simp only [takeAck, stalled, probe, if_true]

theorem takeAck_of_not_probe {s : State} {p : PortId} {q : Byte} (stalled : (s.ports.get p).state = .stalled)
    (other : (s.ports.get p).probeSeq ≠ some q) :
    takeAck p q s = s.onPort p (fun p => { p with strayAcks := p.strayAcks + 1 }) := by
  simp only [takeAck, stalled, other, if_false]

theorem takeResync_of_off {s : State} {p : PortId} (off : (s.ports.get p).state = .off) : takeResync p s = s := by
  simp only [takeResync, off]

theorem takeResync_of_stalled {s : State} {p : PortId} (stalled : (s.ports.get p).state = .stalled) :
    takeResync p s = portRecover p (s.onPort p (fun q => { q with resyncs := q.resyncs + 1 })) := by
  simp only [takeResync, stalled]

theorem feedRecover_feedStall (v : FeedView) (f : Feed) :
    feedRecover v (feedStall f) = if f.state = .off then f else beginRepaint v (feedStall f) := by
  cases state : f.state <;> simp [feedRecover, feedStall, Feed.delivering, state]

theorem takeResync_of_running {s : State} {p : PortId} (running : (s.ports.get p).state = .running) :
    takeResync p s =
      { s with
        ports := s.ports.upd p (fun q =>
          { q with
            window := []
            framesLost := q.framesLost + BitVec.ofNat 32 q.window.length
            sending := q.sending.map (fun x => { x with inWindow := false })
            resyncs := q.resyncs + 1 })
        feeds := { s.feeds with feeds := s.feeds.feeds.upd (portFeed p) (fun f =>
          if f.state = .off then f else beginRepaint (s.view (portFeed p)) (feedStall f)) } } := by
  have feeds : (s.feeds.feeds.upd (portFeed p) feedStall).upd (portFeed p) (feedRecover (s.view (portFeed p))) =
      s.feeds.feeds.upd (portFeed p) (fun f =>
        if f.state = .off then f else beginRepaint (s.view (portFeed p)) (feedStall f)) := by
    rw [Five.upd_upd]
    exact Five.upd_eq_of_get (feedRecover_feedStall _ _)
  rw [← feeds]
  simp only [takeResync, running]
  rfl

/-! ### Recovery and stall -/

theorem portRecover_ports (p : PortId) (s : State) :
    (portRecover p s).ports = s.ports.upd p (fun q =>
      { q with state := .running, window := [], probeSeq := none, probeFrom := none, recoveries := q.recoveries + 1 }) := by
  simp [portRecover]

theorem portRecover_feeds (p : PortId) (s : State) :
    (portRecover p s).feeds = { s.feeds with feeds := s.feeds.feeds.upd (portFeed p) (fun f =>
      if f.state = .stalled then beginRepaint (s.view (portFeed p)) f else f) } := by
  simp [portRecover]
  rfl

theorem portRecover_hasCause (p : PortId) (s : State) : (portRecover p s).hasCause (.feedStalled p) = false :=
  setCause_hasCause_same _ _ _

theorem portRecover_eq (p : PortId) (s : State) :
    portRecover p s = { s with
      ports := (portRecover p s).ports, feeds := (portRecover p s).feeds, time := (portRecover p s).time
      host := (portRecover p s).host, conds := (portRecover p s).conds } := by
  refine State.eq_of_blocks ?_ ?_ ?_ ?_ rfl ?_ ?_ ?_ ?_ ?_ ?_ rfl ?_ rfl rfl rfl ?_ ?_ <;> simp

theorem feedStall_eq (f : Feed) :
    feedStall f = if f.state = .active ∨ f.state = .repaint then
      { f with
        state := .stalled, changes := [], shown := [], gapOwed := none, beginOwed := false
        repaintTail := none }
      else f := by
  simp only [feedStall, Feed.delivering_iff]

theorem portStall_ports (p : PortId) (s : State) :
    (portStall p s).ports = s.ports.upd p (fun q =>
      { q with
        state := .stalled
        window := []
        framesLost := q.framesLost + BitVec.ofNat 32 q.window.length
        sending := q.sending.map (fun y => { y with inWindow := false })
        stalls := q.stalls + 1
        probeFrom := some s.time.now
        probeSeq := none }) := by
  simp [portStall, Port.discardWindow]

theorem portStall_feeds (p : PortId) (s : State) :
    (portStall p s).feeds = { s.feeds with feeds := s.feeds.feeds.upd (portFeed p) feedStall } := by
  simp [portStall]

theorem portStall_hasCause (p : PortId) (s : State) : (portStall p s).hasCause (.feedStalled p) = true :=
  setCause_hasCause_same _ _ _

theorem portStall_eq (p : PortId) (s : State) :
    portStall p s = { s with
      ports := (portStall p s).ports, feeds := (portStall p s).feeds, time := (portStall p s).time
      host := (portStall p s).host, conds := (portStall p s).conds } := by
  refine State.eq_of_blocks ?_ ?_ ?_ ?_ rfl ?_ ?_ ?_ ?_ ?_ ?_ rfl ?_ rfl rfl rfl ?_ ?_ <;> simp

/-- What the state is after a reply that recovers the port, which has already changed the port by `f`. -/
theorem chooseFrame_portRecover (p : PortId) (s : State) {f g : Port → Port}
    (recovers : ∀ q, ({ f q with
      state := .running, window := [], probeSeq := none, probeFrom := none, recoveries := (f q).recoveries + 1 } : Port) = g q) :
    let t := chooseFrame (portRecover p (s.onPort p f))
    t.ports = s.ports.upd p g ∧
      t.feeds = { s.feeds with feeds := s.feeds.feeds.upd (portFeed p) (fun f =>
        if f.state = .stalled then beginRepaint (s.view (portFeed p)) f else f) } ∧
      (t.conds.get (.feedStalled p)).cause = false ∧
      t = { s with ports := t.ports, feeds := t.feeds, time := t.time, host := t.host, conds := t.conds } := by
  intro t
  refine ⟨?_, ?_, ?_, ?_⟩
  · simp only [t, chooseFrame_frame, portRecover_ports, State.onPort, State.onPorts, Four.upd_upd, recovers]
  · simp only [t, chooseFrame_frame, portRecover_feeds]
    rfl
  · exact (chooseFrame_hasCause _ _).trans (portRecover_hasCause p _)
  · refine State.eq_of_blocks ?_ ?_ ?_ ?_ rfl ?_ ?_ ?_ ?_ ?_ ?_ rfl ?_ rfl rfl rfl ?_ ?_ <;> simp [t]

/-! ### Malformed replies -/

theorem replyChars_nil (t : LocalTime) (rx : ReplyRx) (n : Nat) : replyChars t [] rx n = (rx, n) := rfl

theorem Port.badReply_of_off {t : LocalTime} {chars : Bytes} {errored : Bool} {q : Port} (off : q.state = .off) :
    q.badReply t chars errored = q := if_pos off

theorem Port.badReply_of_hunt {t : LocalTime} {errored : Bool} {q : Port} (hunt : q.rx = .hunt) :
    q.badReply t [] errored = q := by
  unfold Port.badReply
  split
  · rfl
  · cases q
    simp_all [replyChars_nil, ReplyRx.busy]

theorem Port.badReply_of_no_chars {t : LocalTime} {q : Port} : q.badReply t [] false = q := by
  unfold Port.badReply
  split
  · rfl
  · simp [replyChars_nil]

theorem Port.badReply_of_framing {t t0 : LocalTime} {held : Bytes} {q : Port} (on : q.state ≠ .off)
    (rx : q.rx = .collect held t0) : q.badReply t [] true = { q with rx := .hunt, badReplies := q.badReplies + 1 } := by
  simp [Port.badReply, on, rx, replyChars_nil, ReplyRx.busy, Port.malformed]

theorem Port.badReply_of_kind {t : LocalTime} {kind seq : Byte} {q : Port} (on : q.state ≠ .off) (hunt : q.rx = .hunt)
    (not_ack : kind.toNat ≠ 1) (not_resync : kind.toNat ≠ 2) :
    q.badReply t [0xA5#8, kind, seq] false = { q with badReplies := q.badReplies + 1 } := by
  have kinds : kind ≠ 1#8 ∧ kind ≠ 2#8 := ⟨fun h => not_ack (by simp [h]), fun h => not_resync (by simp [h])⟩
  have read : replyChars t [0xA5#8, kind, seq] .hunt 0 = (.hunt, 1) := by
    simp [replyChars, replyChar, kinds]
  simp [Port.badReply, on, hunt, read]

/-- Settles O54: `takeAck` and `takeResync` by the state of the port, the receiver by its position. -/
theorem repliesMoveThePort : Obligations.RepliesMoveThePort := by
  refine ⟨fun p seq s normal => ⟨fun off => ?off, fun running => ?running, fun stalled => ?stalled⟩,
    fun p held t0 kind seq s => ⟨fun idle => ?idle, fun hunt => ?no_gap, fun on => ⟨fun collect => ?collect, ?kind⟩⟩⟩
  all_goals try rw [exec_ack normal, exec_resync normal]
  case off =>
    have off' := onPort_state (f := fun q => { q with rx := .hunt }) off fun _ => rfl
    rw [takeAck_of_off off', takeResync_of_off off']
    exact ⟨rfl, rfl⟩
  case running =>
    have running' := onPort_state (f := fun q => { q with rx := .hunt }) running fun _ => rfl
    rw [takeAck_of_running running', takeResync_of_running running', onPort_onPort]
    refine ⟨fun a x b window named sent before => ?_, fun stray => ?_, ?_⟩
    · rw [onPort_congr (f := fun q => Port.acked seq { q with rx := .hunt })
        (g := fun q => { q with
          rx := .hunt, window := b, framesAcked := q.framesAcked + BitVec.ofNat 32 (a.length + 1) })
        (Port.acked_of_sent window named sent before)]
      rfl
    · rw [onPort_congr (f := fun q => Port.acked seq { q with rx := .hunt })
        (g := fun q => { q with rx := .hunt, strayAcks := q.strayAcks + 1 }) (Port.acked_of_stray stray)]
      rfl
    · simp only [State.onPort, State.onPorts, Four.upd_upd]
      rfl
  case stalled =>
    have stalled' := onPort_state (f := fun q => { q with rx := .hunt }) stalled fun _ => rfl
    refine ⟨fun other => ?_, fun c recovers => ?_⟩
    · rw [exec_ack normal, takeAck_of_not_probe stalled', onPort_onPort]
      · rfl
      · simpa [State.onPort, State.onPorts] using other
    · rcases recovers with ⟨rfl, probe⟩ | rfl
      · refine ⟨_, exec_ack normal p seq, ?_⟩
        rw [takeAck_of_probe stalled' (by simpa [State.onPort, State.onPorts] using probe)]
        exact chooseFrame_portRecover p s fun q => by simp
      · refine ⟨_, exec_resync normal p seq, ?_⟩
        rw [takeResync_of_stalled stalled', onPort_onPort]
        exact chooseFrame_portRecover p s fun q => by simp
  case idle =>
    show Host.Outcome.next (s.onPort p _) = _
    rw [onPort_id]
    rcases idle with off | hunt
    · exact Port.badReply_of_off off
    · exact Port.badReply_of_hunt hunt
  case no_gap =>
    show execReplyGapTimeout p [] s = _
    simp only [execReplyGapTimeout, onPort_id Port.badReply_of_no_chars, hunt]
  case collect =>
    refine ⟨?_, ?_⟩
    · show Host.Outcome.next (s.onPort p _) = _
      rw [onPort_congr (g := fun q => { q with rx := .hunt, badReplies := q.badReplies + 1 })
        (Port.badReply_of_framing on collect)]
      rfl
    · show execReplyGapTimeout p [] s = _
      simp only [execReplyGapTimeout, onPort_id Port.badReply_of_no_chars, collect]
      have ports_kept : (s.runTo t0 5001).ports = s.ports := by simp
      rw [← ports_kept]
      rfl
  case kind =>
    intro hunt not_ack not_resync
    show Host.Outcome.next (s.onPort p _) = _
    rw [onPort_congr (g := fun q => { q with badReplies := q.badReplies + 1 })
      (Port.badReply_of_kind on hunt not_ack not_resync)]
    rfl

/-! ### Overdue frames -/

theorem Port.timed_of_running {q : Port} {x : WinFrame} {w : List WinFrame} (running : q.state = .running)
    (window : q.window = x :: w) : q.timed = x.sentAt := by
  simp only [Port.timed, running, window, if_true]

/-- Settles O55: `portStall` at the moment the timeout is due, and the probe by `Port.probe`. -/
theorem overdueFramesStallThePort : Obligations.OverdueFramesStallThePort := by
  refine fun p s normal => ⟨fun x w t0 u running window sent run => ?stall, fun t0 u from_ run => ?probe⟩
  case stall =>
    have timed : (s.ports.get p).timed = some t0 := (Port.timed_of_running running window).trans sent
    have u_normal : u.host.phase = .normal := by rw [run]; simpa using normal
    have ports_kept : u.ports = s.ports := by rw [run]; simp
    have feeds_kept : u.feeds = s.feeds := by rw [run]; simp
    refine ⟨chooseFrame (portStall p u), ?_, ?_, ?_, ?_, ?_⟩
    · show execAckTimeout p s = _
      simp only [execAckTimeout, timed, ackLimit, ← run]
      rw [transmit_of_goes_on (.inl (by simp [u_normal]))]
    · simp only [chooseFrame_frame, portStall_ports, ports_kept]
    · simp only [chooseFrame_frame, portStall_feeds, feeds_kept]
      rw [funext feedStall_eq]
    · exact (chooseFrame_hasCause _ _).trans (portStall_hasCause p _)
    · refine State.eq_of_blocks ?_ ?_ ?_ ?_ rfl ?_ ?_ ?_ ?_ ?_ ?_ rfl ?_ rfl rfl rfl ?_ ?_ <;> simp
  case probe =>
    have settings_kept : u.settings = s.settings := by rw [run]; simp
    show execProbeTimerExpiry p s = _
    simp only [execProbeTimerExpiry, from_, Config.probeInterval, ← run]
    rw [portKick, onPort_onPort, ← settings_kept]
    rfl

end Sys2Proof.Machine
end

section
/-! Firmness: the oldest COMMITTED units become FIRM (R130 to R132). -/

namespace Sys2Proof.Machine

/-- The first `k` COMMITTED units of a list become FIRM. -/
def firmFirst : Nat → List TUnit → List TUnit
  | _, [] => []
  | 0, us => us
  | k + 1, u :: us =>
    if u.isCommitted then { u with state := .firm } :: firmFirst k us else u :: firmFirst (k + 1) us

theorem firmFirst_zero (us : List TUnit) : firmFirst 0 us = us := by cases us <;> rfl

theorem firmFirst_cons_committed {u : TUnit} (committed : u.isCommitted = true) (k : Nat) (us : List TUnit) :
    firmFirst (k + 1) (u :: us) = { u with state := .firm } :: firmFirst k us := if_pos committed

theorem firmFirst_cons_other {u : TUnit} (other : u.isCommitted = false) (k : Nat) (us : List TUnit) :
    firmFirst k (u :: us) = u :: firmFirst k us := by
  cases k with
  | zero => rw [firmFirst_zero, firmFirst_zero]
  | succ k => exact if_neg (by simp [other])

theorem firmFirst_firmFirst_one (k : Nat) (us : List TUnit) : firmFirst k (firmFirst 1 us) = firmFirst (k + 1) us := by
  induction us with
  | nil => cases k <;> rfl
  | cons u us ih =>
    cases committed : u.isCommitted with
    | true =>
      rw [firmFirst_cons_committed committed, firmFirst_cons_committed committed, firmFirst_zero,
        firmFirst_cons_other (by rfl)]
    | false => rw [firmFirst_cons_other committed, firmFirst_cons_other committed, firmFirst_cons_other committed, ih]

theorem firmFirst_of_none {us : List TUnit} (none_committed : us.countP TUnit.isCommitted = 0) (k : Nat) :
    firmFirst k us = us := by
  induction us with
  | nil => cases k <;> rfl
  | cons u us ih =>
    cases committed : u.isCommitted with
    | true => simp [committed] at none_committed
    | false => rw [firmFirst_cons_other committed, ih (by simpa [committed] using none_committed)]

/-- With rising numbers the change of the oldest COMMITTED unit meets that unit alone. -/
theorem changeUnit_oldest {us : List TUnit} {u : TUnit} (rising : us.Pairwise (fun x y => x.number < y.number))
    (oldest : us.find? TUnit.isCommitted = some u) :
    changeUnit u.number (fun u => { u with state := .firm }) us = firmFirst 1 us := by
  induction us with
  | nil => rfl
  | cons x us ih =>
    obtain ⟨above, rising⟩ := List.pairwise_cons.mp rising
    cases committed : x.isCommitted with
    | true =>
      obtain rfl : x = u := by simpa [List.find?_cons, committed] using oldest
      rw [firmFirst_cons_committed committed, firmFirst_zero]
      have others : changeUnit x.number (fun u => { u with state := .firm }) us = us := by
        refine (List.map_congr_left fun y within => ?_).trans (List.map_id us)
        exact if_neg (by have := above y within; omega)
      show (if x.number = x.number then _ else _) :: changeUnit x.number _ us = _
      rw [others, if_pos rfl]
    | false =>
      have oldest : us.find? TUnit.isCommitted = some u := by simpa [List.find?_cons, committed] using oldest
      have other : x.number ≠ u.number := by
        have := above u (List.mem_of_find?_eq_some oldest)
        omega
      rw [firmFirst_cons_other committed, ← ih rising oldest]
      show (if x.number = u.number then _ else _) :: changeUnit u.number _ us = _
      rw [if_neg other]

theorem firmFirst_numbers (k : Nat) (us : List TUnit) : (firmFirst k us).map TUnit.number = us.map TUnit.number := by
  induction us generalizing k with
  | nil => cases k <;> rfl
  | cons u us ih =>
    cases committed : u.isCommitted with
    | true =>
      cases k with
      | zero => rw [firmFirst_zero]
      | succ k => rw [firmFirst_cons_committed committed, List.map_cons, List.map_cons, ih]
    | false => rw [firmFirst_cons_other committed, List.map_cons, List.map_cons, ih]

theorem firmFirst_rising {k : Nat} {us : List TUnit} (rising : us.Pairwise (fun x y => x.number < y.number)) :
    (firmFirst k us).Pairwise (fun x y => x.number < y.number) := by
  have numbers : (us.map TUnit.number).Pairwise (· < ·) := List.pairwise_map.mpr rising
  rw [← firmFirst_numbers k] at numbers
  exact List.pairwise_map.mp numbers

theorem countP_firmFirst_one {us : List TUnit} {n : Nat} (count : us.countP TUnit.isCommitted = n + 1) :
    (firmFirst 1 us).countP TUnit.isCommitted = n := by
  induction us with
  | nil => simp at count
  | cons u us ih =>
    cases committed : u.isCommitted with
    | true =>
      rw [List.countP_cons_of_pos committed] at count
      rw [firmFirst_cons_committed committed, firmFirst_zero, List.countP_cons_of_neg (by simp [TUnit.isCommitted])]
      omega
    | false =>
      rw [List.countP_cons_of_neg (by simp [committed])] at count
      rw [firmFirst_cons_other committed, List.countP_cons_of_neg (by simp [committed])]
      exact ih count

theorem firmUnit_script (n : Nat) (s : State) :
    (firmUnit n s).script = { s.script with
      units := changeUnit n (fun u => { u with state := .firm }) s.script.units
      unitsFirmed := s.script.unitsFirmed + 1 } := by
  rw [firmUnit, report_eq]
  rfl

/-- What the transcript is after its `k` oldest COMMITTED units have become FIRM. -/
theorem firmOldest_script {k : Nat} {s : State} (rising : s.script.units.Pairwise (fun x y => x.number < y.number)) :
    (firmOldest k s).script = { s.script with
      units := firmFirst k s.script.units
      unitsFirmed := s.script.unitsFirmed + BitVec.ofNat 32 (min k (s.script.units.countP TUnit.isCommitted)) } := by
  induction k generalizing s with
  | zero => simp [firmOldest, firmFirst_zero]
  | succ k ih =>
    cases oldest : s.script.units.find? TUnit.isCommitted with
    | none =>
      have no_unit : s.script.units.countP TUnit.isCommitted = 0 :=
        List.countP_eq_zero.mpr (List.find?_eq_none.mp oldest)
      have stops : s.script.oldestCommitted = none := oldest
      simp [firmOldest, stops, no_unit, firmFirst_of_none no_unit]
    | some u =>
      have next : s.script.oldestCommitted = some u := oldest
      obtain ⟨n, count⟩ : ∃ n, s.script.units.countP TUnit.isCommitted = n + 1 :=
        Nat.exists_eq_succ_of_ne_zero fun none => by
          have := List.countP_eq_zero.mp none u (List.mem_of_find?_eq_some oldest)
          exact this (List.find?_some oldest)
      have units : (firmUnit u.number s).script.units = firmFirst 1 s.script.units := by
        rw [firmUnit_script]
        exact changeUnit_oldest rising oldest
      have firmed : (firmUnit u.number s).script.unitsFirmed = s.script.unitsFirmed + 1 := by rw [firmUnit_script]
      have step : firmOldest (k + 1) s = firmOldest k (firmUnit u.number s) := by simp only [firmOldest, next]
      rw [step, ih (by rw [units]; exact firmFirst_rising rising), units, firmed, countP_firmFirst_one count,
        firmFirst_firmFirst_one, count, firmUnit_script]
      have sum : s.script.unitsFirmed + 1 + BitVec.ofNat 32 (min k n) =
          s.script.unitsFirmed + BitVec.ofNat 32 (min (k + 1) (n + 1)) := by
        rw [Nat.succ_min_succ, BitVec.add_assoc, BitVec.add_comm 1, Nat.succ_eq_add_one, BitVec.ofNat_add]
        rfl
      rw [sum]

theorem firmOldest_eq (k : Nat) (s : State) :
    firmOldest k s = { s with script := (firmOldest k s).script, feeds := (firmOldest k s).feeds } := by
  refine State.eq_of_blocks ?_ ?_ ?_ ?_ ?_ ?_ ?_ ?_ ?_ ?_ rfl rfl ?_ ?_ ?_ ?_ ?_ ?_ <;> simp

/-- Where the COMMITTED units that are due come first, they are the ones that become FIRM. -/
theorem firmFirst_countP {due : TUnit → Bool} {us : List TUnit} (committed : ∀ x, due x = true → x.isCommitted = true)
    (first : us.Pairwise (fun x y => x.isCommitted = true → due y = true → due x = true)) :
    firmFirst (us.countP due) us = us.map (fun x => if due x then { x with state := .firm } else x) := by
  induction us with
  | nil => rfl
  | cons x us ih =>
    obtain ⟨before, first⟩ := List.pairwise_cons.mp first
    cases is_due : due x with
    | true =>
      rw [List.countP_cons_of_pos is_due, firmFirst_cons_committed (committed x is_due), ih first, List.map_cons,
        if_pos is_due]
    | false =>
      rw [List.countP_cons_of_neg (by simp [is_due]), List.map_cons, if_neg (by simp [is_due])]
      cases state : x.isCommitted with
      | false => rw [firmFirst_cons_other state, ih first]
      | true =>
        have none_due : ∀ y ∈ us, due y = false := fun y within => by
          by_contra is
          exact Bool.false_ne_true (is_due.symm.trans (before y within state (by simpa using is)))
        have no_more : us.countP due = 0 := List.countP_eq_zero.mpr fun y within => by simp [none_due y within]
        have kept : us.map (fun x => if due x then { x with state := .firm } else x) = us :=
          (List.map_congr_left fun y within => if_neg (by simp [none_due y within])).trans (List.map_id us)
        rw [no_more, firmFirst_zero, kept]

/-- Settles O45: the due units are the oldest COMMITTED ones, whose firming `firmOldest_script` gives. -/
theorem firmTimeMakesUnitsFirm : Obligations.FirmTimeMakesUnitsFirm := by
  intro c t0 s u oldest committed run rising due first
  have due_eq : due = fun x => x.isCommitted && x.aged u.time.now (s.settings.firmTime * 1000000) := by
    funext x
    unfold TUnit.aged
    rfl
  have script_kept : u.script = s.script := by rw [run]; simp
  have settings_kept : u.settings = s.settings := by rw [run]; simp
  have due_committed : ∀ x, due x = true → x.isCommitted = true := fun x is_due => by
    rw [due_eq] at is_due
    exact (Bool.and_eq_true_iff.mp is_due).1
  have count : firmDue u = s.script.units.countP due := by
    rw [firmDue, due_eq, settings_kept, script_kept]
  have all_committed : min (s.script.units.countP due) (s.script.units.countP TUnit.isCommitted) =
      s.script.units.countP due := Nat.min_eq_left (List.countP_mono_left fun x _ => due_committed x)
  refine ⟨firmByTime u, ?_, ?_⟩
  · have oldest : s.script.oldestCommitted = some c := oldest
    show execFirmTimeExpiry s = _
    simp only [execFirmTimeExpiry, oldest, Option.bind_some, committed, ← run]
  · have script := firmOldest_script (k := firmDue u) (s := u) (by rw [script_kept]; exact rising)
    rw [count, script_kept, all_committed, firmFirst_countP due_committed (by simpa [TUnit.isCommitted] using first)] at script
    rw [firmByTime, count]
    rw [← script]
    exact firmOldest_eq _ u

end Sys2Proof.Machine
end

section
/-! What making a notice leaves as it was: the time base but for its stamps, and the notices made before (R40, R187). -/

namespace Sys2Proof.Machine

/-- Two time bases that differ in nothing but what taking stamps leaves behind (R40). -/
def TimeBase.butStamps (a b : TimeBase) : Prop := a = { b with lastStamp := a.lastStamp, heldStamps := a.heldStamps }

theorem TimeBase.butStamps_refl (a : TimeBase) : a.butStamps a := rfl

theorem TimeBase.butStamps.trans {a b c : TimeBase} (first : a.butStamps b) (second : b.butStamps c) : a.butStamps c := by
  unfold TimeBase.butStamps at *
  rw [first, second]

theorem stamped_time (s : State) : s.stamped.time.butStamps s.time := rfl

theorem offerCondition_time (c : Cond) (raised : Bool) (s : State) : (offerCondition c raised s).time.butStamps s.time := by
  unfold offerCondition
  split <;> rfl

theorem setCause_time (c : Cond) (present : Bool) (s : State) : (setCause c present s).time.butStamps s.time := by
  unfold setCause causePresent causeAbsent
  (repeat' split)
  · rfl
  · rfl
  · exact (offerCondition_time _ _ _).trans rfl
  · exact (offerCondition_time _ _ _).trans rfl
  · rfl

theorem raiseLatched_time (c : Cond) (s : State) : (raiseLatched c s).time.butStamps s.time := by
  unfold raiseLatched
  split
  · rfl
  · exact (offerCondition_time c true _).trans rfl

theorem offerNotice_time (n : Notice) (s : State) : (offerNotice n s).time.butStamps s.time := by
  unfold offerNotice
  split
  · rfl
  · exact (raiseLatched_time _ _).trans rfl

theorem enterOwed_time (s : State) : (enterOwed s).time.butStamps s.time := by
  unfold enterOwed
  split <;> rfl

theorem chooseFrame_time (s : State) : (chooseFrame s).time.butStamps s.time := by
  unfold chooseFrame
  split
  · rfl
  · split
    · rfl
    · split
      · exact (enterOwed_time _).trans rfl
      · split <;> rfl

/-! ### The notices made before -/

theorem offerCondition_notices (c : Cond) (raised : Bool) (s : State) :
    s.host.notices <+: (offerCondition c raised s).host.notices := by
  unfold offerCondition
  split
  · exact List.prefix_append _ _
  · exact List.prefix_rfl

theorem setCause_notices (c : Cond) (present : Bool) (s : State) :
    s.host.notices <+: (setCause c present s).host.notices := by
  unfold setCause causePresent causeAbsent
  (repeat' split)
  · exact List.prefix_rfl
  · exact List.prefix_rfl
  · exact offerCondition_notices c true (s.onCond c _)
  · exact offerCondition_notices c false (s.onCond c _)
  · exact List.prefix_rfl

theorem raiseLatched_notices (c : Cond) (s : State) : s.host.notices <+: (raiseLatched c s).host.notices := by
  unfold raiseLatched
  split
  · exact List.prefix_rfl
  · exact offerCondition_notices c true (s.onCond c _)

theorem offerNotice_notices (n : Notice) (s : State) : s.host.notices <+: (offerNotice n s).host.notices := by
  unfold offerNotice
  split
  · exact List.prefix_append _ _
  · exact raiseLatched_notices .noticeOverflow (s.onHost fun h => { h with noticesDropped := h.noticesDropped + 1 })

/-- A notice that meets a place in the queue is in it. -/
theorem mem_offerNotice {n : Notice} {s : State} (room : s.host.notices.length < 32) :
    n ∈ (offerNotice n s).host.notices := by
  rw [offerNotice_of_room room]
  exact List.mem_append_right _ (List.mem_singleton_self n)

end Sys2Proof.Machine
end

section
/-! The time base: capture, re-base, holdover and SYNC-MARK (R41 to R51). -/

namespace Sys2Proof.Machine

theorem TimeBase.butStamps.sync {a b : TimeBase} (same : a.butStamps b) : a.sync = b.sync := by
  unfold TimeBase.butStamps at same
  rw [same]

/-! ### The moments of the time base -/

theorem TimeBase.settleCapture_of_fresh {t : TimeBase} (fresh : t.capture = .current → (t.now - t.captureAt).toNat ≤ 500000) :
    t.settleCapture = t := by
  rw [TimeBase.settleCapture, if_neg]
  rintro ⟨current, old⟩
  exact absurd (fresh current) (Nat.not_le.mpr old)

theorem TimeBase.rebaseIfDue_of_deferred {t : TimeBase} (current : t.capture = .current) : t.rebaseIfDue = t := by
  rw [TimeBase.rebaseIfDue, if_neg (by simp [TimeBase.rebaseDue, current])]

theorem TimeBase.rebaseIfDue_of_early {t : TimeBase} (early : ¬ 2147483648 ≤ (t.now - t.anchorAt).toNat) :
    t.rebaseIfDue = t := by
  rw [TimeBase.rebaseIfDue, if_neg]
  simp only [TimeBase.rebaseDue, decide_eq_true_eq, not_and]
  exact fun due => absurd due early

theorem TimeBase.rebaseIfDue_of_due {t : TimeBase} (due : 2147483648 ≤ (t.now - t.anchorAt).toNat)
    (free : t.capture ≠ .current) : t.rebaseIfDue = t.rebase := by
  rw [TimeBase.rebaseIfDue, if_pos]
  simp only [TimeBase.rebaseDue, decide_eq_true_eq]
  exact ⟨due, free⟩

theorem TimeBase.expire_eq (t : TimeBase) :
    t.expire = if (t.now - t.anchorAt).toNat < 2147483648 then { t with capture := .expired }
      else TimeBase.rebase { t with capture := .expired } := by
  split
  next early => exact TimeBase.rebaseIfDue_of_early (t := { t with capture := .expired }) (Nat.not_le.mpr early)
  next due =>
    exact TimeBase.rebaseIfDue_of_due (t := { t with capture := .expired }) (Nat.not_lt.mp due) (by simp)

theorem runTo_time (s : State) (t : LocalTime) (limit : Nat) :
    (s.runTo t limit).time = { s.time with now := (s.runTo t limit).time.now } := by
  unfold State.runTo
  split <;> rfl

theorem syncCauses_time (s : State) : (syncCauses s).time.butStamps s.time :=
  (setCause_time _ _ _).trans (setCause_time _ _ _)

theorem syncCauses_hasCause_holdover (s : State) :
    (syncCauses s).hasCause .syncHoldover = decide (s.time.sync = .holdover) :=
  (setCause_hasCause_other _ _ (by decide)).trans (setCause_hasCause_same _ _ _)

theorem syncCauses_notices (s : State) : s.host.notices <+: (syncCauses s).host.notices :=
  (setCause_notices _ _ _).trans (setCause_notices _ _ _)

theorem timeNotice_time (event : TimeEvent) (error : Int) (s : State) : (timeNotice event error s).time.butStamps s.time :=
  (offerNotice_time _ _).trans (stamped_time s)

theorem mem_timeNotice {event : TimeEvent} {error : Int} {s : State} (room : s.host.notices.length < 32) :
    .time event s.time.sync error s.time.anchorCode s.time.rate s.time.steps s.stamp ∈
      (timeNotice event error s).host.notices :=
  mem_offerNotice (s := s.stamped) (by simpa using room)

/-- Settles O26: each event's moment by `State.le_age_runTo`, the notice and cause of holdover by the layer of notices. -/
theorem timeBaseEventsMoveTheMapping : Obligations.TimeBaseEventsMoveTheMapping := by
  refine ⟨fun s => ?moves, fun t0 s normal from_ => ?holdover⟩
  case moves =>
    intro rebased
    have rebased_eq : rebased = TimeBase.rebase := rfl
    refine ⟨fun fresh => ?_, fun u e current run expired => ?_, fun u run => ?_, fun u valid run => ?_⟩
    · show Host.Outcome.next (s.onTime fun t => t.settleCapture.pulse) = _
      show Host.Outcome.next { s with time := s.time.settleCapture.pulse } = _
      rw [TimeBase.settleCapture_of_fresh fresh]
      rfl
    · show execCaptureExpiry s = _
      rw [execCaptureExpiry, if_pos current, ← run, expired, rebased_eq, ← TimeBase.expire_eq]
      rfl
    · have time := runTo_time s s.time.anchorAt 2147483648
      rw [← run] at time
      have due : 2147483648 ≤ (u.time.now - u.time.anchorAt).toNat := by
        rw [show u.time.anchorAt = s.time.anchorAt by rw [time], run]
        exact s.le_age_runTo _ (by omega)
      have capture_kept : u.time.capture = s.time.capture := by rw [time]
      show Host.Outcome.next ((s.runTo s.time.anchorAt 2147483648).onTime TimeBase.rebaseIfDue) = _
      rw [← run, ← capture_kept]
      show Host.Outcome.next { u with time := u.time.rebaseIfDue } = _
      by_cases current : u.time.capture = .current
      · rw [if_pos current, TimeBase.rebaseIfDue_of_deferred current]
      · rw [if_neg current, TimeBase.rebaseIfDue_of_due due current, rebased_eq]
    · show execPreviousSyncExpiry s = _
      rw [execPreviousSyncExpiry, if_pos valid, ← run]
      rfl
  case holdover =>
    intro u
    have time := runTo_time s t0 5000000
    have held_notices : u.host = s.host := by simp [u]
    let v := u.onTime fun t => { t with sync := .holdover, holdoverFrom := none }
    refine ⟨chooseFrame (syncCauses (timeNotice .holdover 0 v)), ?_, ?_, ?_, fun room => ⟨v.stamp, ?_⟩, ?_⟩
    · show execHoldoverExpiry s = _
      simp only [execHoldoverExpiry, from_, Config.holdoverLimit]
      rw [transmit_of_goes_on (.inl (by simp [normal]))]
    · exact (chooseFrame_time _).trans ((syncCauses_time _).trans (timeNotice_time _ _ v))
    · refine (chooseFrame_hasCause _ _).trans ((syncCauses_hasCause_holdover _).trans ?_)
      rw [(timeNotice_time .holdover 0 v).sync]
      rfl
    · have told := mem_timeNotice (event := .holdover) (error := 0) (s := v) (by rw [show v.host = s.host from held_notices]; exact room)
      have queued := (syncCauses_notices (timeNotice .holdover 0 v)).subset told
      have sent := mem_noticeLine_chooseFrame queued
      rw [show v.time.anchorCode = s.time.anchorCode from (congrArg TimeBase.anchorCode time :),
        show v.time.rate = s.time.rate from (congrArg TimeBase.rate time :),
        show v.time.steps = s.time.steps from (congrArg TimeBase.steps time :)] at sent
      exact sent
    · refine State.eq_of_blocks ?_ ?_ ?_ ?_ rfl ?_ ?_ ?_ ?_ ?_ ?_ ?_ ?_ ?_ rfl rfl ?_ ?_ <;> simp [v]

end Sys2Proof.Machine
end

section
/-! SYNC-MARK (R44 to R47). -/

namespace Sys2Proof.Machine

theorem mem_replyLine_addReply (tag : Byte) (r : Result) (after : AfterSent) (s : State) :
    ∃ w ∈ (chooseFrame (addReply tag r after s)).host.replyLine, w.tag = tag ∧ w.result = r := by
  refine ⟨⟨tag, r, after⟩, ?_, rfl, rfl⟩
  rw [chooseFrame_replyLine]
  exact List.mem_append_right _ (List.mem_append_right _ (List.mem_singleton_self _))

theorem exec_syncMark {s : State} (taken : s.accepts) (tag : Byte) (r : Nat) :
    exec (.syncMark tag (be 4 r)) s = .next (chooseFrame (addReply tag (syncMarkRule (be 4 r) s.counted).2 .nothing
      (syncMarkRule (be 4 r) s.counted).1)) := by
  show Host.Outcome.next (transmit (takeRequest tag true false (syncMarkRule (be 4 r)) noAfter s)) = _
  rw [takeRequest_taken _ _ _ _ _ taken, transmit_of_goes_on (.inl ?_)]
  · rfl
  · simp [addReply, taken.1, State.counted]

/-! ### Refusals -/

theorem exec_syncMark_of_refused {s : State} (taken : s.accepts) {tag : Byte} {r : Nat} {reason : Reason} {t : TimeBase}
    (rule : syncMarkRule (be 4 r) s.counted = ({ s.counted with time := t }, .refused reason)) :
    exec (.syncMark tag (be 4 r)) s = .next (State.reply { s with time := t } tag (.refused reason)) := by
  rw [exec_syncMark taken, rule]
  exact congrArg Host.Outcome.next (chooseFrame_addReply tag (.refused reason) .nothing { s with time := t } _ rfl)

theorem syncMarkRule_of_none {r : Nat} {s : State} (none : s.time.capture = .none) :
    syncMarkRule (be 4 r) s =
      ({ s with time := { s.time with syncNoCapture := s.time.syncNoCapture + 1 } }, .refused .noCapture) := by
  have kept : s.time.settleCapture = s.time := TimeBase.settleCapture_of_fresh (by simp [none])
  simp only [syncMarkRule, State.onTime, kept, none]

theorem TimeBase.settleCapture_of_late {t : TimeBase} (late : t.capture = .expired ∨
      t.capture = .current ∧ 500000 < (t.now - t.captureAt).toNat)
    (early : ¬ 2147483648 ≤ (t.now - t.anchorAt).toNat) : t.settleCapture = { t with capture := .expired } := by
  rcases late with expired | ⟨current, old⟩
  · rw [TimeBase.settleCapture_of_fresh (by simp [expired]), ← expired]
  · rw [TimeBase.settleCapture, if_pos ⟨current, old⟩]
    exact TimeBase.rebaseIfDue_of_early (t := { t with capture := .expired }) early

theorem syncMarkRule_of_late {r : Nat} {s : State} (late : s.time.capture = .expired ∨
      s.time.capture = .current ∧ 500000 < (s.time.now - s.time.captureAt).toNat)
    (early : ¬ 2147483648 ≤ (s.time.now - s.time.anchorAt).toNat) :
    syncMarkRule (be 4 r) s =
      ({ s with time := { s.time with capture := .none, syncLate := s.time.syncLate + 1 } }, .refused .late) := by
  have no_rebase := TimeBase.rebaseIfDue_of_early
    (t := { s.time with capture := .none, syncLate := s.time.syncLate + 1 }) early
  simp only [syncMarkRule, State.onTime, TimeBase.settleCapture_of_late late early]
  simp only [no_rebase]

/-! ### Discipline -/

theorem syncMarkRule_of_current {r : Nat} (r_lt : r < 4294967296) {s : State} (current : s.time.capture = .current)
    (fresh : ¬ 500000 < (s.time.now - s.time.captureAt).toNat) : syncMarkRule (be 4 r) s = acceptSync r s := by
  have kept : s.time.settleCapture = s.time := TimeBase.settleCapture_of_fresh fun _ => Nat.not_lt.mp fresh
  have field : be4At (be 4 r) 0 = r := by simpa using be4At_here r [] r_lt
  simp only [syncMarkRule, State.onTime, kept, current, field]

theorem limitRate_eq_iff (q : Nat) : limitRate q = q ↔ ¬ (q < 16760439 ∨ 16793993 < q) := by
  unfold limitRate Config.rateMin Config.rateMax
  omega

theorem TimeBase.measure_of_usable {r : Nat} {t : TimeBase} (usable : t.prevValid = true ∧
      200000 ≤ (t.captureAt - t.prevAt).toNat ∧ (t.captureAt - t.prevAt).toNat ≤ 10000000) :
    t.measure r = t.newRate ((3 * t.rate + Machine.measured ((r : Int) - (t.prevCode : Int)) (since t.captureAt t.prevAt)) / 4) := by
  obtain ⟨valid, span⟩ := usable
  exact if_pos (Bool.and_eq_true_iff.mpr ⟨valid, decide_eq_true span⟩)

theorem TimeBase.measure_of_not_usable {r : Nat} {t : TimeBase} (not_usable : ¬ (t.prevValid = true ∧
      200000 ≤ (t.captureAt - t.prevAt).toNat ∧ (t.captureAt - t.prevAt).toNat ≤ 10000000)) : t.measure r = t := by
  refine if_neg fun usable => ?_
  obtain ⟨valid, span⟩ := Bool.and_eq_true_iff.mp usable
  exact not_usable ⟨valid, of_decide_eq_true span⟩

theorem TimeBase.action_of_unlocked {r : Nat} {t : TimeBase} (unlocked : t.sync = .unlocked) : t.action r = .lock :=
  if_pos unlocked

theorem TimeBase.action_of_step {r : Nat} {t : TimeBase} (running : t.sync ≠ .unlocked)
    (far : 250 < (t.error r).natAbs) : t.action r = .step := (if_neg running).trans (if_pos far)

theorem TimeBase.action_of_slew {r : Nat} {t : TimeBase} (running : t.sync ≠ .unlocked)
    (near : ¬ 250 < (t.error r).natAbs) : t.action r = .slew := (if_neg running).trans (if_neg near)

/-- The mapping that an accepted SYNC-MARK leaves, field by field (R45 to R47). -/
theorem TimeBase.discipline_eq (r : Nat) (t : TimeBase) :
    let e := t.error r
    let dt := (t.captureAt - t.prevAt).toNat
    let q := (3 * t.rate + Machine.measured ((r : Int) - (t.prevCode : Int)) dt) / 4
    let usable := t.prevValid = true ∧ 200000 ≤ dt ∧ dt ≤ 10000000
    t.discipline r =
      { t with
        anchorAt := t.captureAt
        anchorCode :=
          if t.sync = .unlocked ∨ 250 < e.natAbs then r
          else min ((t.tc t.captureAt : Int) + e.tdiv 2).toNat 4294967295
        rate :=
          if t.sync ≠ .unlocked ∧ e.natAbs ≤ 250 ∧ usable then max 16760439 (min 16793993 q) else t.rate
        rateUpdates :=
          if t.sync ≠ .unlocked ∧ e.natAbs ≤ 250 ∧ usable then t.rateUpdates + 1 else t.rateUpdates
        rateClamps :=
          if t.sync ≠ .unlocked ∧ e.natAbs ≤ 250 ∧ usable ∧ (q < 16760439 ∨ 16793993 < q) then t.rateClamps + 1
          else t.rateClamps
        steps := if t.sync ≠ .unlocked ∧ 250 < e.natAbs then t.steps + 1 else t.steps
        prevAt := t.captureAt
        prevCode := r
        prevValid := true
        sync := .locked
        holdoverFrom := some t.now
        capture := .none
        syncAccepted := t.syncAccepted + 1 } := by
  intro e dt q usable
  by_cases unlocked : t.sync = .unlocked
  · simp only [TimeBase.discipline, TimeBase.action_of_unlocked unlocked]
    simp [unlocked, TimeBase.accepted]
  · by_cases far : 250 < e.natAbs
    · simp only [TimeBase.discipline, TimeBase.action_of_step unlocked far]
      simp [unlocked, far, Nat.not_le.mpr far, TimeBase.accepted]
    · simp only [TimeBase.discipline, TimeBase.action_of_slew unlocked far]
      by_cases can : usable
      · have clamps : (if limitRate q = q then t.rateClamps else t.rateClamps + 1) =
            if q < 16760439 ∨ 16793993 < q then t.rateClamps + 1 else t.rateClamps := by
          by_cases outside : q < 16760439 ∨ 16793993 < q
          · rw [if_pos outside, if_neg (by rw [limitRate_eq_iff]; exact not_not_intro outside)]
          · rw [if_neg outside, if_pos ((limitRate_eq_iff q).mpr outside)]
        have near : e.natAbs ≤ 250 := Nat.not_lt.mp far
        rw [TimeBase.measure_of_usable can]
        simp only [unlocked, far, near, can, TimeBase.accepted, TimeBase.newRate, ne_eq, not_false_eq_true, true_and,
          or_self, if_true, if_false, and_false]
        rw [← clamps]
        rfl
      · rw [TimeBase.measure_of_not_usable can]
        simp only [unlocked, far, can, TimeBase.accepted, or_self, if_false, and_false, false_and]
        rfl

theorem TimeBase.butStamps.rate {a b : TimeBase} (same : a.butStamps b) : a.rate = b.rate := by
  unfold TimeBase.butStamps at same
  rw [same]

theorem acceptSync_time (r : Nat) (s : State) : (acceptSync r s).1.time.butStamps (s.time.discipline r) := by
  unfold acceptSync
  dsimp only
  refine (syncCauses_time _).trans ?_
  split
  · exact timeNotice_time _ _ _
  · rfl

theorem acceptSync_hasCause (r : Nat) (s : State) : (acceptSync r s).1.hasCause .syncHoldover = false := by
  have sync : (s.time.discipline r).sync = .locked := by rw [TimeBase.discipline_eq]
  unfold acceptSync
  dsimp only
  refine (syncCauses_hasCause_holdover _).trans ?_
  split
  · rw [(timeNotice_time _ _ _).sync]
    simp [State.onTime, sync]
  · simp [State.onTime, sync]

theorem acceptSync_eq (r : Nat) (s : State) :
    (acceptSync r s).1 = { s with
      time := (acceptSync r s).1.time, host := (acceptSync r s).1.host, conds := (acceptSync r s).1.conds } := by
  refine State.eq_of_blocks ?_ ?_ ?_ ?_ rfl ?_ ?_ ?_ ?_ ?_ ?_ ?_ ?_ ?_ rfl rfl ?_ ?_ <;> simp

theorem acceptSync_result (r : Nat) (s : State) :
    (acceptSync r s).2 = .done
      (byte (if s.time.sync = .unlocked then 0 else if 250 < (s.time.error r).natAbs then 1 else 2) ::
        beSigned (if s.time.sync = .unlocked then 0 else s.time.error r) ++ be 4 (acceptSync r s).1.time.rate ++ [1#8]) := by
  have rate : (acceptSync r s).1.time.rate = (s.time.discipline r).rate :=
    (acceptSync_time r s).rate
  have sync : (s.time.discipline r).sync = .locked := by rw [TimeBase.discipline_eq]
  have result : (acceptSync r s).2 = .done
      (byte (actionCode (s.time.action r)) :: beSigned (syncError (s.time.action r) (s.time.error r)) ++
        be 4 (s.time.discipline r).rate ++ [1#8]) := by
    unfold acceptSync
    dsimp only
    split
    · rw [(timeNotice_time _ _ _).sync, (timeNotice_time _ _ _).rate]
      simp only [State.onTime, sync]
      rfl
    · simp only [State.onTime, sync]
      rfl
  rw [result, rate]
  by_cases unlocked : s.time.sync = .unlocked
  · simp only [TimeBase.action_of_unlocked unlocked, unlocked, if_true]
    rfl
  · by_cases far : 250 < (s.time.error r).natAbs
    · simp only [TimeBase.action_of_step unlocked far, unlocked, far, if_true, if_false]
      rfl
    · simp only [TimeBase.action_of_slew unlocked far, unlocked, far, if_false]
      rfl

/-- Settles O27: the rule by the capture, an accepted SYNC-MARK by `TimeBase.discipline_eq`. -/
theorem syncMarkDisciplinesTheTimeBase : Obligations.SyncMarkDisciplinesTheTimeBase := by
  intro tag r s taken r_lt p late due code e dt m q usable
  refine ⟨fun none => ?_, fun too_late early => ?_, fun current fresh => ?_⟩
  · exact exec_syncMark_of_refused taken (syncMarkRule_of_none (s := s.counted) none)
  · exact exec_syncMark_of_refused taken (syncMarkRule_of_late (s := s.counted) too_late early)
  · have rule := syncMarkRule_of_current r_lt (s := s.counted) current fresh
    refine ⟨_, exec_syncMark taken tag r, ?_, ?_, ?_, ?_⟩
    all_goals rw [rule]
    · refine State.eq_of_blocks ?_ ?_ ?_ ?_ rfl ?_ ?_ ?_ ?_ ?_ ?_ ?_ ?_ ?_ rfl rfl ?_ ?_ <;> simp [addReply, State.counted]
    · have told := mem_replyLine_addReply tag (acceptSync r s.counted).2 .nothing (acceptSync r s.counted).1
      have rate : (chooseFrame (addReply tag (acceptSync r s.counted).2 .nothing (acceptSync r s.counted).1)).time.rate =
          (acceptSync r s.counted).1.time.rate := (chooseFrame_time _).rate
      obtain ⟨w, sent, tagged, result⟩ := told
      refine ⟨w, sent, tagged, result.trans ?_⟩
      rw [rate, acceptSync_result]
      rfl
    · exact (chooseFrame_hasCause _ _).trans (acceptSync_hasCause r s.counted)
    · have time := (chooseFrame_time (addReply tag (acceptSync r s.counted).2 .nothing (acceptSync r s.counted).1)).trans
        (acceptSync_time r s.counted)
      rw [TimeBase.discipline_eq] at time
      exact time

end Sys2Proof.Machine
end

section
/-! Damaged key reports (R1, R2, R4, R14). -/

namespace Sys2Proof.Machine

theorem Two.upd_upd {α : Type} (t : Two α) (p : Pos) (f g : α → α) :
    (t.upd p f).upd p g = t.upd p (fun a => g (f a)) := by cases p <;> rfl

theorem Two.upd_eq_of_get {α : Type} {t : Two α} {p : Pos} {f g : α → α} (same : f (t.get p) = g (t.get p)) :
    t.upd p f = t.upd p g := by
  cases p <;> simp only [Two.get] at same <;> simp only [Two.upd, same]

theorem Two.upd_id {α : Type} {t : Two α} {p : Pos} {f : α → α} (same : f (t.get p) = t.get p) : t.upd p f = t := by
  cases p <;> simp only [Two.get] at same <;> simp only [Two.upd, same]

/-- The formers once the open stroke of a position that is not OFF has been marked DAMAGED (R14, R17). -/
def State.markedFormers (s : State) (p : Pos) : Two Former :=
  if (s.posRec p).state = .off then s.formers
  else s.formers.upd p (fun f => { f with openStroke := f.openStroke.map (fun o => { o with damaged := true }) })

theorem formerDamaged_eq (p : Pos) (s : State) : formerDamaged p s = { s with formers := s.markedFormers p } := by
  unfold formerDamaged State.markedFormers
  split <;> rfl

theorem damagedReport_eq (p : Pos) (s : State) :
    damagedReport p s = { s with
      links := s.links.upd p (fun l => { l with rx := .hunt, damagedReports := l.damagedReports + 1 })
      formers := s.markedFormers p } := by
  rw [damagedReport, formerDamaged_eq]
  rfl

theorem damageProgress_of_hunt {p : Pos} {s : State} (hunt : (s.links.get p).rx = .hunt) : damageProgress p s = s := by
  simp [damageProgress, hunt, KeyRx.collecting]

theorem damageProgress_of_collect {p : Pos} {s : State} {held : Bytes} (collect : (s.links.get p).rx = .collect held) :
    damageProgress p s = damagedReport p s := by
  simp [damageProgress, collect, KeyRx.collecting]

theorem keyChar_of_lead {p : Pos} {c : Byte} {s : State} (no_break : (s.links.get p).inBreak = false)
    (lead : c.msb = true) : keyChar p c s = (damageProgress p s).onLink p (fun l => { l with rx := .collect [c] }) := by
  simp only [keyChar, no_break, lead, if_true, Bool.false_eq_true, if_false]

theorem keyChar_of_fourth {p : Pos} {c b0 b1 b2 : Byte} {s : State} (no_break : (s.links.get p).inBreak = false)
    (rx : (s.links.get p).rx = .collect [b0, b1, b2]) (last : c.msb = false) :
    keyChar p c s = completeReport p b0 b1 b2 c s := by
  simp only [keyChar, no_break, last, rx, Bool.false_eq_true, if_false]

theorem exec_leadByte {s t : State} {p : Pos} {c : Byte} (effect : keyChar p c s = t) (calm : t.calm) :
    exec (.leadByte p c) s = .next t.settled := by
  show Host.Outcome.next (finishStep (keyChar p c s)) = _
  rw [effect, finishStep_calm t calm]

theorem exec_erroredByte {s : State} {p : Pos} (no_break : (s.links.get p).inBreak = false) :
    exec (.erroredByte p) s =
      .next (damageProgress p (s.onLink p (fun l => { l with framingErrors := l.framingErrors + 1 }))) := by
  show execErroredByte p s = _
  rw [execErroredByte, if_neg (by simp [no_break])]

/-- Settles O22: a report in progress by `damageProgress_of_collect`, a failed check by `completeReport`. -/
theorem damagedReportsAreCounted : Obligations.DamagedReportsAreCounted := by
  intro p c s calm no_break marked
  have errored := exec_erroredByte no_break
  refine ⟨fun hunt => ⟨fun lead => ?_, ?_⟩, fun held collect => ⟨fun lead => ?_, ?_⟩, fun b0 b1 b2 rx last wrong => ?_⟩
  · exact exec_leadByte ((keyChar_of_lead no_break lead).trans (by rw [damageProgress_of_hunt hunt]; rfl)) calm
  · rw [errored, damageProgress_of_hunt (by simpa [State.onLink] using hunt)]
    rfl
  · refine exec_leadByte ((keyChar_of_lead no_break lead).trans ?_) calm
    rw [damageProgress_of_collect collect, damagedReport_eq]
    simp only [State.onLink, State.onLinks, Two.upd_upd]
    rfl
  · rw [errored, damageProgress_of_collect (held := held) (by simpa [State.onLink] using collect), damagedReport_eq]
    simp only [State.onLink, State.onLinks, Two.upd_upd]
    rfl
  · show Host.Outcome.next (finishStep (keyChar p c s)) = _
    rw [keyChar_of_fourth no_break rx last, completeReport, if_neg wrong, damagedReport_eq]
    exact congrArg Host.Outcome.next (finishStep_calm _ calm)

end Sys2Proof.Machine
end

section
/-! The age of the OPEN log page and LOG-FLUSH (R75, R78). -/

namespace Sys2Proof.Machine

/-- A request whose rule reads nothing of what counting it changes, and whose step ends with what the store takes up. -/
theorem finishStep_request_counted {s u : State} {tag : Byte} {r : Result} {rule : State → State × Result}
    (taken : s.accepts) (acts : rule s.counted = (u.counted, r)) (host_kept : u.host = s.host)
    (no_flush : u.log.flush = .none) :
    finishStep (takeRequest tag true false rule noAfter s) = u.replyAndTakeUp tag r := by
  have kept : u.counted.host = s.counted.host := by rw [State.counted, State.counted, onHost_host, onHost_host, host_kept]
  rw [finishStep_request tag false rule noAfter s u.counted r taken acts kept no_flush]
  have taken_up : u.counted.takeUp = u.takeUp.counted := takeUp_onHost _ _ rfl
  rw [taken_up, State.replyAndTakeUp, host_kept]
  rfl

theorem finishStep_request_refused {s : State} {tag : Byte} {r : Result} {rule : State → State × Result}
    (taken : s.accepts) (calm : s.calm) (refuses : rule s.counted = (s.counted, r)) :
    finishStep (takeRequest tag true false rule noAfter s) = s.replyAndTakeUp tag r :=
  finishStep_request_counted taken refuses rfl calm.2

/-- Settles O32: the expiry closes the page at its moment, the request by the state of the store. -/
theorem logPagesCloseByAgeAndFlush : Obligations.LogPagesCloseByAgeAndFlush := by
  intro tag s calm closed
  refine ⟨fun page opened => ?age, fun taken => ?request⟩
  case age =>
    show execLogAgeExpiry s = _
    simp only [execLogAgeExpiry, opened]
    have log_kept : (s.runTo page.since (s.settings.logAge * 1000)).log = s.log := by simp
    rw [finishStep_calm]
    · simp only [State.onLog, LogWriter.closePage, log_kept]
      rfl
    · exact ⟨by simpa using calm.1, by simpa using calm.2⟩
  case request =>
    show Host.Outcome.next (finishStep (takeRequest tag true false (logFlushRule tag) noAfter s)) = _
    have answers : ∀ r, logFlushRule tag s.counted = (s.counted, r) →
        finishStep (takeRequest tag true false (logFlushRule tag) noAfter s) = s.replyAndTakeUp tag r :=
      fun r refuses => finishStep_request_refused taken calm refuses
    have mounted : logFlushRule tag s.counted =
          (if s.log.flushTag.isSome then (s.counted, .refused .busy)
          else if s.log.pages.isEmpty then (s.counted, .done [])
          else (State.counted { s with log := { s.log with pages := closed, flushTag := some (tag, s.log.pages.length) } },
            .accepted)) →
        finishStep (takeRequest tag true false (logFlushRule tag) noAfter s) =
          if s.log.flushTag ≠ none then s.replyAndTakeUp tag (.refused .busy)
          else if s.log.pages = [] then s.replyAndTakeUp tag (.done [])
          else State.replyAndTakeUp
            { s with log := { s.log with pages := closed, flushTag := some (tag, s.log.pages.length) } } tag .accepted := by
      intro rule
      by_cases outstanding : s.log.flushTag ≠ none
      · rw [if_pos outstanding]
        exact answers _ (rule.trans (if_pos (Option.isSome_iff_ne_none.mpr outstanding)))
      · rw [if_neg outstanding]
        rw [if_neg (mt Option.isSome_iff_ne_none.mp outstanding)] at rule
        by_cases none : s.log.pages = []
        · rw [if_pos none]
          exact answers _ (rule.trans (if_pos (List.isEmpty_iff.mpr none)))
        · rw [if_neg none]
          exact finishStep_request_counted taken (rule.trans (if_neg (mt List.isEmpty_iff.mp none))) rfl calm.2
    have store_kept : s.counted.store = s.store := rfl
    congr 1
    cases state : s.store.state with
    | unmounted => exact answers _ (by simp only [logFlushRule, store_kept, state])
    | mounting => exact answers _ (by simp only [logFlushRule, store_kept, state])
    | unformatted => exact answers _ (by simp only [logFlushRule, store_kept, state])
    | fault => exact answers _ (by simp only [logFlushRule, store_kept, state])
    | formatting => exact mounted (by simp only [logFlushRule, store_kept, state]; rfl)
    | ready => exact mounted (by simp only [logFlushRule, store_kept, state]; rfl)

end Sys2Proof.Machine
end

section
/-! What the operations of the store controller tell the host and leave in the store (R67, R68, R70, R71, R78). -/

namespace Sys2Proof.Machine

/-! ### Notices alone -/

/-- From `s` to `t` at most `n` notices have been made or dropped, and nothing else has changed but the flags of conditions
and the stamp. -/
structure Tells (n : Nat) (s t : State) : Prop where
  kept : t = { s with time := t.time, host := t.host, conds := t.conds }
  stamps : t.time.butStamps s.time
  notices : s.host.notices <+: t.host.notices
  few : t.host.notices.length ≤ s.host.notices.length + n
  link : t.host = { s.host with notices := t.host.notices, noticesDropped := t.host.noticesDropped }

theorem Tells.refl (n : Nat) (s : State) : Tells n s s := ⟨rfl, rfl, List.prefix_rfl, Nat.le_add_right _ _, rfl⟩

theorem Tells.trans {m n : Nat} {s t u : State} (first : Tells m s t) (second : Tells n t u) : Tells (m + n) s u where
  kept := by rw [second.kept, first.kept]
  stamps := second.stamps.trans first.stamps
  notices := first.notices.trans second.notices
  few := by have := first.few; have := second.few; omega
  link := by rw [second.link, first.link]

theorem Tells.weaken {m n : Nat} {s t : State} (tells : Tells m s t) (le : m ≤ n) : Tells n s t :=
  { tells with few := tells.few.trans (by omega) }

theorem Tells.of_onCond (c : Cond) (f : CondEntry → CondEntry) (s : State) : Tells 0 s (s.onCond c f) :=
  ⟨rfl, rfl, List.prefix_rfl, Nat.le_refl _, rfl⟩

theorem Tells.of_dropped (s : State) :
    Tells 0 s (s.onHost fun h => { h with noticesDropped := h.noticesDropped + 1 }) :=
  ⟨rfl, rfl, List.prefix_rfl, Nat.le_refl _, rfl⟩

theorem offerCondition_tells (c : Cond) (raised : Bool) (s : State) : Tells 1 s (offerCondition c raised s) := by
  unfold offerCondition
  split
  · exact ⟨rfl, rfl, List.prefix_append _ _, by simp [HostLink.push], rfl⟩
  · exact ⟨rfl, rfl, List.prefix_rfl, Nat.le_succ _, rfl⟩

theorem setCause_tells (c : Cond) (present : Bool) (s : State) : Tells 1 s (setCause c present s) := by
  unfold setCause causePresent causeAbsent
  (repeat' split)
  · exact Tells.refl 1 s
  · exact (Tells.of_onCond c _ s).weaken (Nat.zero_le 1)
  · exact (Tells.of_onCond c _ s).trans (offerCondition_tells c true _)
  · exact (Tells.of_onCond c _ s).trans (offerCondition_tells c false _)
  · exact (Tells.of_onCond c _ s).weaken (Nat.zero_le 1)

theorem raiseLatched_tells (c : Cond) (s : State) : Tells 1 s (raiseLatched c s) := by
  unfold raiseLatched
  split
  · exact (Tells.of_onCond c _ s).weaken (Nat.zero_le 1)
  · exact ((Tells.of_onCond c _ s).trans (offerCondition_tells c true _)).trans (Tells.of_onCond c _ _)

theorem offerNotice_tells (n : Notice) (s : State) : Tells 1 s (offerNotice n s) := by
  unfold offerNotice
  split
  · exact ⟨rfl, rfl, List.prefix_append _ _, by simp [HostLink.push], rfl⟩
  · exact (Tells.of_dropped s).trans (raiseLatched_tells .noticeOverflow _)

theorem complete_tells (tag kind : Byte) (failed : Option Reason) (data : Bytes) (s : State) :
    Tells 1 s (complete tag kind failed data s) := offerNotice_tells _ s

theorem completeIf_tells (tag : Option Byte) (kind : Byte) (failed : Option Reason) (data : Bytes) (s : State) :
    Tells 1 s (completeIf tag kind failed data s) := by
  cases tag with
  | none => exact Tells.refl 1 s
  | some t => exact complete_tells t kind failed data s

theorem logCauses_tells (s : State) : Tells 2 s (logCauses s) := (setCause_tells _ _ s).trans (setCause_tells _ _ _)

theorem mem_complete {tag kind : Byte} {failed : Option Reason} {data : Bytes} {s : State}
    (room : s.host.notices.length < 32) :
    .completion tag kind failed 1 true data ∈ (complete tag kind failed data s).host.notices := mem_offerNotice room

theorem mem_completeIf {t : Byte} {tag : Option Byte} {kind : Byte} {failed : Option Reason} {data : Bytes} {s : State}
    (waits : tag = some t) (room : s.host.notices.length < 32) :
    .completion t kind failed 1 true data ∈ (completeIf tag kind failed data s).host.notices := by
  subst waits
  exact mem_complete room

/-! ### Completions of the store's requests -/

@[simp] theorem completeRecover_store (failed : Option Reason) (s : State) :
    (completeRecover failed s).store = { s.store with recoverTag := none } := by
  simp [completeRecover]

@[simp] theorem completeErase_store (failed : Option Reason) (s : State) :
    (completeErase failed s).store = { s.store with eraseTag := none } := by
  simp [completeErase]

@[simp] theorem completeFormat_store (failed : Option Reason) (data : Bytes) (s : State) :
    (completeFormat failed data s).store = { s.store with formatTag := none } := by
  simp [completeFormat]

@[simp] theorem completeFlush_log (failed : Option Reason) (s : State) :
    (completeFlush failed s).log = { s.log with flushTag := none } := by
  unfold completeFlush
  split
  next none => rw [← none]
  · simp

/-- The host's side of a completion: that of its notice. -/
theorem completeRecover_tells (failed : Option Reason) (s : State) :
    Tells 1 (s.onStore fun st => { st with recoverTag := none }) (completeRecover failed s) := by
  have tells := completeIf_tells s.store.recoverTag 0x12 failed [] s
  refine ⟨?_, tells.stamps, tells.notices, tells.few, tells.link⟩
  rw [completeRecover, tells.kept]
  rfl

theorem completeErase_tells (failed : Option Reason) (s : State) :
    Tells 1 (s.onStore fun st => { st with eraseTag := none }) (completeErase failed s) := by
  have tells := completeIf_tells s.store.eraseTag 0x10 failed [] s
  refine ⟨?_, tells.stamps, tells.notices, tells.few, tells.link⟩
  rw [completeErase, tells.kept]
  rfl

theorem completeFormat_tells (failed : Option Reason) (data : Bytes) (s : State) :
    Tells 1 (s.onStore fun st => { st with formatTag := none }) (completeFormat failed data s) := by
  have tells := completeIf_tells s.store.formatTag 0x11 failed data s
  refine ⟨?_, tells.stamps, tells.notices, tells.few, tells.link⟩
  rw [completeFormat, tells.kept]
  rfl

theorem completeFlush_of_none {s : State} (none : s.log.flushTag = none) (failed : Option Reason) :
    completeFlush failed s = s := by simp only [completeFlush, none]

theorem completeFlush_of_some {s : State} {tag : Byte} {n : Nat} (waits : s.log.flushTag = some (tag, n))
    (failed : Option Reason) :
    completeFlush failed s = complete tag 0x14 failed [] (s.onLog fun w => { w with flushTag := .none }) := by
  simp only [completeFlush, waits]

theorem completeFlush_tells (failed : Option Reason) (s : State) :
    Tells 1 (s.onLog fun w => { w with flushTag := none }) (completeFlush failed s) := by
  cases waits : s.log.flushTag with
  | none =>
    have same : (s.onLog fun w => { w with flushTag := none }) = s := by
      show { s with log := { s.log with flushTag := none } } = s
      rw [← waits]
    rw [completeFlush_of_none waits, same]
    exact Tells.refl 1 s
  | some x =>
    rw [completeFlush_of_some (tag := x.1) (n := x.2) waits]
    exact complete_tells _ _ _ _ _

theorem mem_completeRecover {tag : Byte} {failed : Option Reason} {s : State} (waits : s.store.recoverTag = some tag)
    (room : s.host.notices.length < 32) :
    .completion tag 0x12 failed 1 true [] ∈ (completeRecover failed s).host.notices := mem_completeIf waits room

theorem mem_completeErase {tag : Byte} {failed : Option Reason} {s : State} (waits : s.store.eraseTag = some tag)
    (room : s.host.notices.length < 32) :
    .completion tag 0x10 failed 1 true [] ∈ (completeErase failed s).host.notices := mem_completeIf waits room

theorem mem_completeFormat {tag : Byte} {failed : Option Reason} {data : Bytes} {s : State}
    (waits : s.store.formatTag = some tag) (room : s.host.notices.length < 32) :
    .completion tag 0x11 failed 1 true data ∈ (completeFormat failed data s).host.notices := mem_completeIf waits room

theorem mem_completeFlush {tag : Byte} {n : Nat} {failed : Option Reason} {s : State}
    (waits : s.log.flushTag = some (tag, n)) (room : s.host.notices.length < 32) :
    .completion tag 0x14 failed 1 true [] ∈ (completeFlush failed s).host.notices := by
  rw [completeFlush_of_some waits]
  exact mem_complete room

/-! ### The host link under notices -/

theorem Tells.phase {n : Nat} {s t : State} (tells : Tells n s t) : t.host.phase = s.host.phase := by rw [tells.link]

theorem Tells.replyLine {n : Nat} {s t : State} (tells : Tells n s t) : t.host.replyLine = s.host.replyLine := by
  rw [tells.link]
  rfl

theorem Tells.mem_notices {n : Nat} {s t : State} (tells : Tells n s t) {x : Notice} (told : x ∈ s.host.notices) :
    x ∈ t.host.notices := tells.notices.subset told

end Sys2Proof.Machine
end

section
/-! What the drain hands to the store and what the store takes up, by the fields of the store they change (R62 to R64,
R94 to R97); and the ends of operations of the note memory (R55, R65). -/

namespace Sys2Proof.Machine

/-- The store but for the programs and reads that the dictionary block hands to it. -/
def Store.onlyHanded (a b : Store) : Prop := a = { b with dictWork := a.dictWork, waiting := a.waiting }

theorem Store.onlyHanded.refl (a : Store) : a.onlyHanded a := rfl

theorem Store.onlyHanded.trans {a b c : Store} (first : a.onlyHanded b) (second : b.onlyHanded c) : a.onlyHanded c := by
  unfold Store.onlyHanded at *
  rw [first, second]

/-- The store but for the work that is started, suspended or resumed. -/
def Store.onlyTaken (a b : Store) : Prop :=
  a = { b with
    reading := a.reading, waiting := a.waiting, reads := a.reads, inProgress := a.inProgress, programs := a.programs
    erases := a.erases, suspended := a.suspended, sinceResume := a.sinceResume, suspendAt := a.suspendAt
    dictWork := a.dictWork }

theorem Store.onlyTaken.refl (a : Store) : a.onlyTaken a := rfl

theorem Store.onlyTaken.eq {a b : Store} (same : a.onlyTaken b) :
    a = { b with
      reading := a.reading, waiting := a.waiting, reads := a.reads, inProgress := a.inProgress, programs := a.programs
      erases := a.erases, suspended := a.suspended, sinceResume := a.sinceResume, suspendAt := a.suspendAt
      dictWork := a.dictWork } := same

theorem Store.onlyHanded.eq {a b : Store} (same : a.onlyHanded b) :
    a = { b with dictWork := a.dictWork, waiting := a.waiting } := same

theorem Store.onlyTaken.trans {a b c : Store} (first : a.onlyTaken b) (second : b.onlyTaken c) : a.onlyTaken c := by
  unfold Store.onlyTaken at *
  rw [first, second]

theorem Store.onlyHanded.taken {a b : Store} (handed : a.onlyHanded b) : a.onlyTaken b := by
  unfold Store.onlyHanded Store.onlyTaken at *
  rw [handed]

/-! ### The drain -/

theorem handRecord_handed (o : StagedOp) (s : State) : (handRecord o s).store.onlyHanded s.store := by
  unfold handRecord
  dsimp only
  split <;> rfl

theorem drainStep_handed (s : State) : (drainStep s).store.onlyHanded s.store := by
  unfold drainStep
  split
  · rfl
  · split
    · split
      · rfl
      · exact handRecord_handed _ _
    · exact handRecord_handed _ _

theorem drainNext_handed (s : State) : (drainNext s).store.onlyHanded s.store := by
  unfold drainNext
  split
  · rfl
  · split
    · exact drainStep_handed _
    · rfl

theorem drainBegin_handed (s : State) : (drainBegin s).store.onlyHanded s.store :=
  (drainNext_handed _).trans ((drainNext_handed _).trans (drainNext_handed s))

theorem prefixChecked_handed (met : Bool) (s : State) : (prefixChecked met s).store.onlyHanded s.store := by
  unfold prefixChecked
  (repeat' split)
  · rfl
  · exact drainStep_handed _
  · exact handRecord_handed _ _
  · rfl

theorem stepDone_handed (o : StagedOp) (s : State) : (stepDone o s).store.onlyHanded s.store := by
  unfold stepDone
  split
  · exact drainStep_handed _
  · rfl

theorem recordSuccess_handed (p : DictProg) (s : State) : (recordSuccess p s).store.onlyHanded s.store := by
  unfold recordSuccess
  split
  · rfl
  · exact stepDone_handed _ _

/-! ### The store controller -/

theorem Store.begin_taken (op : FlashOp) (w : Work) (st : Store) : (st.begin op w).onlyTaken st := by
  unfold Store.begin
  cases op <;> rfl

theorem startRead_taken (s : State) : (startRead s).store.onlyTaken s.store := by
  unfold startRead
  split <;> rfl

theorem startLog_taken (p : BufPage) (s : State) : (startLog p s).store.onlyTaken s.store :=
  Store.begin_taken (.program (s.logBase + p.page * Config.pageBytes) p.records.flatten) .logPage s.store

theorem startDict_taken (p : DictProg) (s : State) : (startDict p s).store.onlyTaken s.store :=
  (Store.begin_taken (dictOp s p) (.dictRecord p) _).trans rfl

theorem startJob_taken (j : Job) (s : State) : (startJob j s).store.onlyTaken s.store :=
  Store.begin_taken (jobOp s j) .job s.store

theorem pumpIdle_taken (s : State) : (pumpIdle s).store.onlyTaken s.store := by
  unfold pumpIdle
  (repeat' split) <;> simp only [startLog_taken, startDict_taken, startJob_taken, startRead_taken, Store.onlyTaken.refl]

theorem pumpSuspended_taken (r : Running) (s : State) : (pumpSuspended r s).store.onlyTaken s.store := by
  unfold pumpSuspended
  dsimp only
  generalize (match r.op with | .erase _ => true | .program .. => false) = erasing
  have resumed : (s.onStore Store.resume).store.onlyTaken s.store := rfl
  (repeat' split) <;> simp only [startLog_taken, startDict_taken, startRead_taken, resumed]

theorem pumpRunning_taken (r : Running) (s : State) : (pumpRunning r s).store.onlyTaken s.store := by
  unfold pumpRunning
  split <;> rfl

theorem storePump_taken (s : State) : (storePump s).store.onlyTaken s.store := by
  unfold storePump
  have resumed : (s.onStore Store.resume).store.onlyTaken s.store := rfl
  (repeat' split) <;>
    simp only [pumpIdle_taken, pumpSuspended_taken, pumpRunning_taken, startRead_taken, startJob_taken, resumed,
      Store.onlyTaken.refl]

theorem takeUp_taken (s : State) : s.takeUp.store.onlyTaken s.store :=
  (storePump_taken _).trans (drainBegin_handed s).taken

end Sys2Proof.Machine
end

section
/-! The ends of programs and erases: what the memory holds, what is counted (R55, R65, R75). -/

namespace Sys2Proof.Machine

/-! ### The note memory -/

theorem readByte_filter_outside {p : Host.Cell → Bool} {m : List Host.Cell} {a : Nat}
    (kept : ∀ c ∈ m, c.1 = a → p c = true) {lo : Nat} (wf : cellsWf lo m = true) :
    readByte (m.filter p) a = readByte m a := by
  induction m generalizing lo with
  | nil => rfl
  | cons c rest ih =>
    obtain ⟨k, v⟩ := c
    simp only [cellsWf, Bool.and_eq_true, decide_eq_true_eq] at wf
    have rest_kept : readByte (rest.filter p) a = readByte rest a :=
      ih (fun c within => kept c (List.mem_cons_of_mem _ within)) wf.2
    cases keeps : p (k, v) with
    | true => rw [List.filter_cons_of_pos keeps, readByte, readByte, rest_kept]
    | false =>
      have other : k ≠ a := fun same => by simp [kept (k, v) (by simp) same] at keeps
      rw [List.filter_cons_of_neg (by simp [keeps]), rest_kept, readByte, if_neg other]
      split
      next above => exact readByte_below rest (k + 1) a (by omega) wf.2
      next => rfl

theorem readByte_of_absent {m : List Host.Cell} {a : Nat} (absent : ∀ c ∈ m, c.1 ≠ a) : readByte m a = erasedByte := by
  induction m with
  | nil => rfl
  | cons c rest ih =>
    obtain ⟨k, v⟩ := c
    rw [readByte, if_neg (absent (k, v) (by simp)), ih fun c within => absent c (List.mem_cons_of_mem _ within)]
    exact ite_self _

theorem readByte_eraseBlock_outside {m : List Host.Cell} {b a : Nat} (wf : cellsWf 0 m = true)
    (outside : a < b * 65536 ∨ (b + 1) * 65536 ≤ a) : readByte (eraseBlock m b) a = readByte m a :=
  readByte_filter_outside (fun c _ same => by rw [same]; exact decide_eq_true outside) wf

theorem readByte_eraseBlock_inside {m : List Host.Cell} {b a : Nat} (at_least : b * 65536 ≤ a) (below : a < (b + 1) * 65536) :
    readByte (eraseBlock m b) a = 0xFF#8 := by
  refine readByte_of_absent fun c within same => ?_
  have outside := of_decide_eq_true (List.mem_filter.mp within).2
  rw [same] at outside
  omega

theorem readByte_leave_outside {op : FlashOp} {a : Nat} (outside : op.covers a = false) (left : List Host.Cell)
    {m : List Host.Cell} (wf : cellsWf 0 m = true) : readByte (op.leave m left) a = readByte m a := by
  induction left generalizing m with
  | nil => rfl
  | cons c rest ih =>
    obtain ⟨k, v⟩ := c
    rw [FlashOp.leave]
    cases covers : op.covers k with
    | false => simpa using ih wf
    | true =>
      rw [if_pos rfl, ih (writeByte_wf m k v wf), readByte_writeByte m k a v wf, if_neg]
      rintro rfl
      exact Bool.false_ne_true (outside.symm.trans covers)

/-- A byte outside the span of an operation is as before, whatever its end (R55). -/
theorem readByte_settle_outside {op : FlashOp} {a : Nat} (outside : op.covers a = false) (error : Bool)
    (left : List Host.Cell) {m : List Host.Cell} (wf : cellsWf 0 m = true) :
    readByte (op.settle error left m) a = readByte m a := by
  unfold FlashOp.settle
  split
  · exact readByte_leave_outside outside left wf
  · cases op with
    | program addr data =>
      refine readByte_writeBytes_outside data m addr a wf ?_
      have not_in := of_decide_eq_false outside
      omega
    | erase b =>
      refine readByte_eraseBlock_outside wf ?_
      have not_in := of_decide_eq_false outside
      omega

/-! ### The end of an operation -/

@[simp] theorem workFailed_flash (w : Work) (s : State) : (workFailed w s).flash = s.flash := by simp

@[simp] theorem clearOp_flash (r : Running) (error : Bool) (left : List Host.Cell) (s : State) :
    (clearOp r error left s).flash = { s.flash with cells := r.op.settle error left s.flash.cells } := rfl

theorem opEnded_flash (r : Running) (error : Bool) (left : List Host.Cell) (s : State) :
    (opEnded r error left s).flash = { s.flash with cells := r.op.settle error left s.flash.cells } := by
  unfold opEnded
  dsimp only
  (repeat' split) <;> simp

/-- The counts of failed programs and erases. -/
def Store.failures (st : Store) : Count × Count := (st.programFailures, st.eraseFailures)

theorem Store.failures_updRegion (st : Store) (d : Dict) (f : Region → Region) : (st.updRegion d f).failures = st.failures := by
  cases d <;> rfl

theorem Store.onlyHanded.failures {a b : Store} (same : a.onlyHanded b) : a.failures = b.failures :=
  (congrArg Store.failures same.eq :)

theorem Store.onlyTaken.failures {a b : Store} (same : a.onlyTaken b) : a.failures = b.failures :=
  (congrArg Store.failures same.eq :)

theorem enterFault_store_job (s : State) :
    (enterFault .job s).store =
      { s.store.blankJob with
        formatTag := none, eraseTag := none, state := .fault, failed := some .job, recovering := none
        logRelocated := false, suspendAt := none, recoverTag := none } := by
  simp [enterFault, failJob]

theorem enterFault_store_of_ne {f : FailedWork} (other : f ≠ .job) (s : State) :
    (enterFault f s).store =
      { s.store with
        state := .fault, failed := some f, recovering := none, logRelocated := false, suspendAt := none
        recoverTag := none } := by
  cases f with
  | job => exact absurd rfl other
  | logPage lacked => simp [enterFault, failJob]
  | dictRecord p => simp [enterFault, failJob]

theorem Store.blankJob_failures (st : Store) : st.blankJob.failures = st.failures := by
  unfold Store.blankJob
  split
  · rfl
  · exact Store.failures_updRegion _ _ _
  · rfl

theorem enterFault_failures (f : FailedWork) (s : State) : (enterFault f s).store.failures = s.store.failures := by
  by_cases job : f = .job
  · subst job
    rw [enterFault_store_job]
    exact Store.blankJob_failures s.store
  · rw [enterFault_store_of_ne job]
    rfl

theorem shiftLog_store (s : State) :
    (shiftLog s).store = { s.store with
      log := { s.store.log with append := s.store.log.append.map (· + 1) }, logRelocated := true } := by
  simp [shiftLog]

theorem moveDict_store (p : DictProg) (s : State) :
    (moveDict p s).store = { s.store.updRegion p.dict (Region.appendAt (nextPageOf p)) with
      dictWork := { p with offset := nextPageOf p, relocated := true } :: s.store.dictWork } := by
  cases p with
  | mk dict => cases dict <;> rfl

theorem workFailed_failures (w : Work) (s : State) : (workFailed w s).store.failures = s.store.failures := by
  cases w with
  | logPage =>
    show (logFailed s).store.failures = _
    unfold logFailed
    split
    · exact enterFault_failures _ s
    · split
      · show (shiftLog s).store.failures = _
        rw [shiftLog_store]
        rfl
      · exact enterFault_failures _ s
  | dictRecord p =>
    show (dictFailed p s).store.failures = _
    unfold dictFailed
    split
    · exact enterFault_failures _ s
    · split
      · show (moveDict p s).store.failures = _
        rw [moveDict_store]
        exact Store.failures_updRegion _ _ _
      · exact enterFault_failures _ s
  | job => exact enterFault_failures _ s
  | abandoned => rfl

@[simp] theorem flushProgress_store (s : State) : (flushProgress s).store = s.store := by
  unfold flushProgress
  (repeat' split) <;> simp

theorem logDone_store (s : State) : (logDone s).store = { s.store with logRelocated := false } := by
  simp [logDone]

theorem eraseDone_store (d : Dict) (s : State) :
    (eraseDone d s).store =
      { s.store.updRegion d (fun _ => { state := .ready, append := some Config.pageBytes }) with
        job := none, eraseTag := none } := by
  simp [eraseDone]

theorem jobDone_failures (s : State) : (jobDone s).store.failures = s.store.failures := by
  unfold jobDone
  split
  · rfl
  · dsimp only
    split
    · rfl
    · rfl
    · rw [eraseDone_store]
      exact Store.failures_updRegion _ _ _

theorem dictDone_failures (p : DictProg) (s : State) : (dictDone p s).store.failures = s.store.failures := by
  unfold dictDone
  dsimp only
  split
  · exact Store.failures_updRegion _ _ _
  · exact (recordSuccess_handed _ _).failures.trans (Store.failures_updRegion _ _ _)

theorem recovered_store (s : State) : (recovered s).store = { s.store with recovering := none, recoverTag := none } := by
  simp [recovered]

/-- The work of an operation that has succeeded, before a retry is reported. -/
def workEffect (w : Work) (s : State) : State :=
  match w with
  | .logPage => logDone s
  | .dictRecord p => dictDone p s
  | .job => jobDone s
  | .abandoned => s

theorem workDone_of_retry {w : Work} {s : State} (retried : endsRetry s.store w = true) :
    workDone w s = recovered (workEffect w s) := by
  simp only [workDone, retried, if_true]
  rfl

theorem workDone_of_first {w : Work} {s : State} (first : endsRetry s.store w = false) : workDone w s = workEffect w s := by
  simp only [workDone, first, Bool.false_eq_true, if_false]
  rfl

theorem workDone_failures (w : Work) (s : State) : (workDone w s).store.failures = s.store.failures := by
  have effect : (workEffect w s).store.failures = s.store.failures := by
    cases w with
    | logPage =>
      show (logDone s).store.failures = _
      rw [logDone_store]
      rfl
    | dictRecord p => exact dictDone_failures p s
    | job => exact jobDone_failures s
    | abandoned => rfl
  cases retried : endsRetry s.store w with
  | true =>
    rw [workDone_of_retry retried, recovered_store]
    exact effect
  | false => rw [workDone_of_first retried, effect]

theorem clearOp_failures (r : Running) (error : Bool) (left : List Host.Cell) (s : State) :
    (clearOp r error left s).store.failures =
      ((if error && !r.timedOut then s.store.countFailure r.op else s.store)).failures := by
  show ((if error && !r.timedOut then Store.countFailure r.op { s.store with inProgress := none, suspendAt := none }
    else { s.store with inProgress := none, suspendAt := none }) : Store).failures = _
  cases r.op <;> cases error && !r.timedOut <;> rfl

theorem opEnded_failures (r : Running) (error : Bool) (left : List Host.Cell) (s : State) :
    (opEnded r error left s).store.failures =
      ((if error && !r.timedOut then s.store.countFailure r.op else s.store)).failures := by
  rw [← clearOp_failures r error left s]
  unfold opEnded
  dsimp only
  split
  · rfl
  · split
    · exact workFailed_failures _ _
    · exact workDone_failures _ _

theorem opEnded_of_done {r : Running} {left : List Host.Cell} {s : State} (in_time : r.timedOut = false)
    (known : r.work ≠ .abandoned) : opEnded r false left s = workDone r.work (clearOp r false left s) := by
  unfold opEnded
  dsimp only
  rw [if_neg known, if_neg (by simp [in_time])]

theorem opEnded_of_failed {r : Running} {error : Bool} {left : List Host.Cell} {s : State}
    (failed : error = true ∨ r.timedOut = true) (known : r.work ≠ .abandoned) :
    opEnded r error left s = workFailed r.work (clearOp r error left s) := by
  unfold opEnded
  dsimp only
  rw [if_neg known, if_pos (by simpa using failed)]

theorem flushProgress_log_pages (s : State) : (flushProgress s).log.pages = s.log.pages := by
  unfold flushProgress
  (repeat' split) <;> simp

theorem workDone_logPage_pages (s : State) : (workDone .logPage s).log.pages = s.log.pages.drop 1 := by
  have done : (workEffect .logPage s).log.pages = s.log.pages.drop 1 := flushProgress_log_pages _
  cases retried : endsRetry s.store .logPage with
  | true =>
    rw [workDone_of_retry retried, ← done]
    simp [recovered]
  | false => rw [workDone_of_first retried, done]

theorem calm_opEnded {r : Running} {error : Bool} {left : List Host.Cell} {s : State} (calm : s.calm) :
    (opEnded r error left s).calm := ⟨by simpa using calm.1, by simpa using calm.2⟩

theorem exec_pageProgramEnd {s : State} {addr : Nat} {data : Bytes} {w : Work} {ran : Nat} {out : Bool} (calm : s.calm)
    (runs : s.store.inProgress = some { op := .program addr data, work := w, ran := ran, timedOut := out })
    (error : Bool) (left : List Host.Cell) :
    exec (.pageProgramEnd error left) s =
      .next (State.settled (opEnded { op := .program addr data, work := w, ran := ran, timedOut := out } error left s)) := by
  show execPageProgramEnd error left s = _
  simp only [execPageProgramEnd, runs]
  rw [finishStep_calm _ (calm_opEnded calm)]

theorem exec_blockEraseEnd {s : State} {b : Nat} {w : Work} {ran : Nat} {out : Bool} (calm : s.calm)
    (runs : s.store.inProgress = some { op := .erase b, work := w, ran := ran, timedOut := out })
    (error : Bool) (left : List Host.Cell) :
    exec (.blockEraseEnd error left) s =
      .next (State.settled (opEnded { op := .erase b, work := w, ran := ran, timedOut := out } error left s)) := by
  show execBlockEraseEnd error left s = _
  simp only [execBlockEraseEnd, runs]
  rw [finishStep_calm _ (calm_opEnded calm)]

@[simp] theorem settled_flash (s : State) : s.settled.flash = s.flash := by simp [State.settled, State.takeUp]

@[simp] theorem settled_store (s : State) : s.settled.store = s.takeUp.store := by simp [State.settled]

@[simp] theorem settled_log (s : State) : s.settled.log = s.takeUp.log := by simp [State.settled]

theorem settled_failures (s : State) : s.settled.store.failures = s.store.failures := by
  rw [settled_store]
  exact (takeUp_taken s).failures

theorem settled_log_pages (s : State) :
    s.settled.log.pages.map (fun x => (x.page, x.records)) = s.log.pages.map (fun x => (x.page, x.records)) := by
  rw [settled_log]
  have same := congrArg (List.map fun x : Nat × List Bytes × LocalTime => (x.1, x.2.1)) (takeUp_log s).2
  rw [List.map_map, List.map_map] at same
  exact same

/-- Settles O29: the memory by `opEnded_flash`, the counts by `opEnded_failures`, the page by `workDone_logPage_pages`. -/
theorem endedOperationsChangeTheirSpan : Obligations.EndedOperationsChangeTheirSpan := by
  intro w ran timedOut error left s calm wf
  refine ⟨fun addr data runs => ⟨_, exec_pageProgramEnd calm runs error left, ?_, ?_, ?_, ?_⟩,
    fun b runs => ⟨_, exec_blockEraseEnd calm runs error left, ?_, ?_, ?_⟩⟩
  · intro a outside
    rw [settled_flash, opEnded_flash]
    refine readByte_settle_outside ?_ error left wf
    exact decide_eq_false (by omega)
  · intro no_error i within
    subst no_error
    rw [settled_flash, opEnded_flash]
    refine (readByte_writeBytes_inside data _ addr i wf within).trans ?_
    rw [List.getD_eq_getElem?_getD, List.getElem?_eq_getElem within, Option.getD_some]
  · have failures := congrArg Prod.fst ((settled_failures _).trans (opEnded_failures
      { op := .program addr data, work := w, ran := ran, timedOut := timedOut } error left s))
    refine failures.trans ?_
    cases error <;> cases timedOut <;> rfl
  · intro no_error in_time page
    subst no_error in_time page
    rw [settled_log_pages, opEnded_of_done rfl (by simp), workDone_logPage_pages]
    rfl
  · intro a outside
    rw [settled_flash, opEnded_flash]
    refine readByte_settle_outside ?_ error left wf
    exact decide_eq_false (by omega)
  · intro no_error a at_least below
    subst no_error
    rw [settled_flash, opEnded_flash]
    exact readByte_eraseBlock_inside at_least below
  · have failures := congrArg Prod.snd ((settled_failures _).trans (opEnded_failures
      { op := .erase b, work := w, ran := ran, timedOut := timedOut } error left s))
    refine failures.trans ?_
    cases error <;> cases timedOut <;> rfl

end Sys2Proof.Machine
end

section
/-! Suspension, resumption and timeouts of operations (R63, R65, R67). -/

namespace Sys2Proof.Machine

/-! ### The cause of STORE-FAULT -/

theorem completeIf_hasCause (tag : Option Byte) (kind : Byte) (failed : Option Reason) (data : Bytes) (s : State) {c : Cond}
    (other : c ≠ .noticeOverflow) : (completeIf tag kind failed data s).hasCause c = s.hasCause c := by
  cases tag with
  | none => rfl
  | some t => exact offerNotice_hasCause _ s other

theorem completeRecover_hasCause (failed : Option Reason) (s : State) {c : Cond} (other : c ≠ .noticeOverflow) :
    (completeRecover failed s).hasCause c = s.hasCause c := completeIf_hasCause _ _ _ _ s other

theorem completeErase_hasCause (failed : Option Reason) (s : State) {c : Cond} (other : c ≠ .noticeOverflow) :
    (completeErase failed s).hasCause c = s.hasCause c := completeIf_hasCause _ _ _ _ s other

theorem completeFormat_hasCause (failed : Option Reason) (data : Bytes) (s : State) {c : Cond}
    (other : c ≠ .noticeOverflow) : (completeFormat failed data s).hasCause c = s.hasCause c :=
  completeIf_hasCause _ _ _ _ s other

theorem completeFlush_hasCause (failed : Option Reason) (s : State) {c : Cond} (other : c ≠ .noticeOverflow) :
    (completeFlush failed s).hasCause c = s.hasCause c := by
  unfold completeFlush
  split
  · rfl
  · exact offerNotice_hasCause _ _ other

theorem failJob_hasCause (f : FailedWork) (s : State) {c : Cond} (other : c ≠ .noticeOverflow) :
    (failJob f s).hasCause c = s.hasCause c := by
  cases f with
  | job => exact (completeErase_hasCause _ _ other).trans (completeFormat_hasCause _ _ s other)
  | logPage lacked => rfl
  | dictRecord p => rfl

theorem enterFault_hasCause (f : FailedWork) (s : State) : (enterFault f s).hasCause .storeFault = true := by
  unfold enterFault
  dsimp only
  rw [completeRecover_hasCause _ _ (by decide), completeFlush_hasCause _ _ (by decide), failJob_hasCause _ _ (by decide)]
  exact setCause_hasCause_same _ _ _

theorem settled_hasCause (s : State) (c : Cond) : s.settled.hasCause c = s.hasCause c := by
  rw [State.settled, chooseFrame_hasCause, State.hasCause, takeUp_eq]
  rfl

/-! ### What is left running in FAULT -/

theorem storePump_of_fault {s : State} {r : Running} (fault : s.store.state = .fault)
    (runs : s.store.inProgress = some r) : storePump s = s := by
  unfold storePump
  split
  · rfl
  · simp only [fault, runs]

theorem takeUp_inProgress_of_fault {s : State} {r : Running} (fault : s.store.state = .fault)
    (runs : s.store.inProgress = some r) : s.takeUp.store.inProgress = some r := by
  have drained := drainBegin_handed s
  have kept : (drainBegin s).store.inProgress = some r := (congrArg Store.inProgress drained.eq).trans runs
  have state : (drainBegin s).store.state = .fault := (congrArg Store.state drained.eq).trans fault
  rw [State.takeUp, storePump_of_fault state kept, kept]

theorem enterFault_inProgress (f : FailedWork) (s : State) :
    (enterFault f s).store.inProgress = s.store.inProgress := by
  by_cases job : f = .job
  · subst job
    rw [enterFault_store_job]
    show s.store.blankJob.inProgress = _
    unfold Store.blankJob
    split
    · rfl
    · exact (by cases ‹Dict› <;> rfl)
    · rfl
  · rw [enterFault_store_of_ne job]

theorem enterFault_state (f : FailedWork) (s : State) :
    (enterFault f s).store.state = .fault ∧ (enterFault f s).store.failed = some f := by
  by_cases job : f = .job
  · subst job
    rw [enterFault_store_job]
    exact ⟨rfl, rfl⟩
  · rw [enterFault_store_of_ne job]
    exact ⟨rfl, rfl⟩

/-! ### Time that passes with an operation -/

theorem advance_calm {s : State} (calm : s.calm) (d : Nat) : (s.advance d).calm :=
  ⟨by simpa using calm.1, by simpa using calm.2⟩

theorem runTo_calm {s : State} (calm : s.calm) (t : LocalTime) (limit : Nat) : (s.runTo t limit).calm :=
  ⟨by simpa using calm.1, by simpa using calm.2⟩

theorem runTo_inProgress {s : State} {r : Running} (runs : s.store.inProgress = some r) (t : LocalTime) (limit : Nat) :
    ∃ ran, (s.runTo t limit).store.inProgress = some { r with ran := ran } := by
  unfold State.runTo
  split
  · exact ⟨_, congrArg (Option.map _) runs⟩
  · exact ⟨r.ran, runs⟩

theorem runOpTo_inProgress {s : State} {r : Running} (runs : s.store.inProgress = some r) (limit ran : Nat) :
    ∃ ran', (runOpTo limit ran s).store.inProgress = some { r with ran := ran' } := by
  unfold runOpTo
  split
  · exact ⟨_, congrArg (Option.map _) runs⟩
  · exact ⟨r.ran, runs⟩

theorem runOpTo_calm {s : State} (calm : s.calm) (limit ran : Nat) : (runOpTo limit ran s).calm := by
  unfold runOpTo
  split
  · exact advance_calm calm _
  · exact calm

theorem exec_suspendLatency_busy {s : State} {t0 : LocalTime} {z : Timing} {r : Running} (calm : s.calm)
    (issued : s.store.suspendAt = some t0) (timing : s.store.timing = some z) (runs : s.store.inProgress = some r) :
    let u := s.runTo t0 z.suspendLatency
    exec (.suspendLatencyExpiry .busy) s = .next (State.settled { u with store := { u.store with
      suspendAt := none, suspended := u.store.inProgress, inProgress := none, suspends := u.store.suspends + 1 } }) := by
  intro u
  obtain ⟨ran, still⟩ := runTo_inProgress runs t0 z.suspendLatency
  have took : suspendTook .busy u = { u with store := { u.store with
      suspendAt := none, suspended := u.store.inProgress, inProgress := none, suspends := u.store.suspends + 1 } } := by
    have still : u.store.inProgress = some { r with ran := ran } := still
    simp only [suspendTook, onStore_store, still]
    rw [← still]
    rfl
  show execSuspendLatencyExpiry .busy s = _
  simp only [execSuspendLatencyExpiry, issued, timing, Option.map_some, Option.getD_some]
  rw [took]
  exact congrArg Host.Outcome.next (finishStep_calm _ (runTo_calm calm t0 z.suspendLatency))

/-- Settles O31: each moment's effect on the store, and FAULT by the lemmas on `enterFault`. -/
theorem operationsSuspendAndTimeOut : Obligations.OperationsSuspendAndTimeOut := by
  intro s calm
  refine ⟨fun t0 z r issued timing runs => exec_suspendLatency_busy calm issued timing runs, fun e z since_ timing => ?resume,
    fun op w ran z timing => ?timeout⟩
  case resume =>
    show execResumeIntervalExpiry s = _
    simp only [execResumeIntervalExpiry, since_, timing, Option.map_some, Option.getD_some]
    rw [finishStep_calm _ (advance_calm calm _)]
  case timeout =>
    intro limit
    have limit_eq : runLimit s op = limit := by cases op <;> simp only [runLimit, timing, limit]
    refine ⟨fun runs => ?_, fun runs known => ?_⟩
    · intro u
      have run : u = runOpTo (limit + 1) ran s := rfl
      obtain ⟨ran', still⟩ := runOpTo_inProgress runs (limit + 1) ran
      show execOperationTimeout s = _
      simp only [execOperationTimeout, runs, limit_eq]
      rw [← run] at still ⊢
      rw [finishStep_calm (u.onStore _) (runOpTo_calm calm (limit + 1) ran)]
      congr 2
      show { u with store := timeoutOp op u.store } = _
      cases op <;> simp only [timeoutOp, Store.countFailure, still, Option.map_some, add_zero]
    · let u := runOpTo limit ran s
      obtain ⟨ran', still⟩ := runOpTo_inProgress runs limit ran
      let v := u.onStore fun st => { st with inProgress := st.inProgress.map Running.abandon }
      have abandoned : v.store.inProgress = some { op := op, work := .abandoned, ran := ran', timedOut := true } :=
        congrArg (Option.map Running.abandon) still
      have effect : stillBusy ⟨op, w, ran, true⟩ u = enterFault w.kept v := by
        simp only [stillBusy, if_neg known]
        rfl
      have v_calm : (enterFault w.kept v).calm := by
        have u_calm : u.calm := runOpTo_calm calm limit ran
        exact ⟨by rw [enterFault_host_phase]; exact u_calm.1, by rw [enterFault_log_flush]; exact u_calm.2⟩
      have fault := enterFault_state w.kept v
      have taken := takeUp_taken (enterFault w.kept v)
      refine ⟨(enterFault w.kept v).settled, ?_, ?_, ?_, ?_, ?_⟩
      · show execTimeoutStillBusy s = _
        simp only [execTimeoutStillBusy, runs, limit_eq]
        rw [effect, finishStep_calm _ v_calm]
      · rw [settled_store]
        exact (congrArg Store.state taken.eq).trans fault.1
      · rw [settled_store]
        exact (congrArg Store.failed taken.eq).trans fault.2
      · rw [settled_store, takeUp_inProgress_of_fault fault.1 ((enterFault_inProgress _ v).trans abandoned)]
        rfl
      · exact (settled_hasCause _ _).trans (enterFault_hasCause _ v)

end Sys2Proof.Machine
end

section
/-! The failure of a program or an erase: relocation, or FAULT with the work kept (R66, R67). -/

namespace Sys2Proof.Machine

/-! ### Notices about a state that is then changed outside the host link -/

theorem Tells.onStore {n : Nat} {s t : State} (tells : Tells n s t) (f : Store → Store) :
    Tells n (s.onStore f) (t.onStore f) where
  kept := by rw [tells.kept]; rfl
  stamps := tells.stamps
  notices := tells.notices
  few := tells.few
  link := tells.link

theorem Tells.onLog {n : Nat} {s t : State} (tells : Tells n s t) (f : LogWriter → LogWriter) :
    Tells n (s.onLog f) (t.onLog f) where
  kept := by rw [tells.kept]; rfl
  stamps := tells.stamps
  notices := tells.notices
  few := tells.few
  link := tells.link

theorem Tells.store {n : Nat} {s t : State} (tells : Tells n s t) : t.store = s.store := by rw [tells.kept]

theorem Tells.log {n : Nat} {s t : State} (tells : Tells n s t) : t.log = s.log := by rw [tells.kept]

/-- What notices about an ended operation leave: the flash, the store and the log are those the operation leaves. -/
theorem Tells.after_end {n : Nat} {s u : State} {m : List Host.Cell} {st : Store} {w : LogWriter}
    (tells : Tells n { s with flash := { s.flash with cells := m }, store := st, log := w } u) :
    u = { s with
      flash := { s.flash with cells := u.flash.cells }
      store := st
      log := w
      host := u.host, conds := u.conds, time := u.time } := by
  have flash : u.flash.cells = m := by rw [tells.kept]
  rw [flash]
  exact tells.kept

/-! ### FAULT -/

/-- The store once it has entered FAULT and STORE-RECOVER has been completed. -/
def Store.faulted (f : FailedWork) (st : Store) : Store :=
  { st with
    state := .fault, failed := some f, recovering := none, logRelocated := false, suspendAt := none, recoverTag := none }

/-- The state in which the requests that waited on the failed work are answered. -/
def faultRaised (f : FailedWork) (s : State) : State :=
  setCause .storeFault true (s.onStore fun st =>
    let st := if f = .job then st.blankJob else st
    { st with state := .fault, failed := some f, recovering := none, logRelocated := false, suspendAt := none })

theorem enterFault_eq (f : FailedWork) (s : State) :
    enterFault f s =
      completeRecover (some .storeFault) (completeFlush (some (flushReason (some f))) (failJob f (faultRaised f s))) := rfl

theorem failJob_of_ne {f : FailedWork} (other : f ≠ .job) (s : State) : failJob f s = s := by
  cases f with
  | job => exact absurd rfl other
  | logPage lacked => rfl
  | dictRecord p => rfl

/-- FAULT with a page or a record kept changes the store and the outstanding flush alone. -/
theorem enterFault_tells {f : FailedWork} (other : f ≠ .job) (s : State) :
    Tells 3 { s with store := s.store.faulted f, log := { s.log with flushTag := none } } (enterFault f s) := by
  rw [enterFault_eq, failJob_of_ne other]
  have raised := setCause_tells .storeFault true (s.onStore fun st =>
    { st with state := .fault, failed := some f, recovering := none, logRelocated := false, suspendAt := none })
  have same : faultRaised f s = setCause .storeFault true (s.onStore fun st =>
      { st with state := .fault, failed := some f, recovering := none, logRelocated := false, suspendAt := none }) := by
    simp only [faultRaised, if_neg other]
  rw [same]
  exact (((raised.onLog _).trans (completeFlush_tells _ _)).onStore _).trans (completeRecover_tells _ _)

theorem faultRaised_notices_length (f : FailedWork) (s : State) :
    (faultRaised f s).host.notices.length ≤ s.host.notices.length + 1 :=
  (setCause_tells .storeFault true _).few

/-- A LOG-FLUSH that waits is completed at FAULT. -/
theorem mem_enterFault_flush {f : FailedWork} {s : State} {tag : Byte} {n : Nat} (waits : s.log.flushTag = some (tag, n))
    (room : s.host.notices.length < 28) (other : f ≠ .job) :
    .completion tag 0x14 (some (flushReason (some f))) 1 true [] ∈ (enterFault f s).host.notices := by
  rw [enterFault_eq, failJob_of_ne other]
  have log : (faultRaised f s).log = s.log := (setCause_tells .storeFault true _).log
  have few := faultRaised_notices_length f s
  have told := mem_completeFlush (failed := some (flushReason (some f))) (by rw [log]; exact waits)
    (show (faultRaised f s).host.notices.length < 32 by omega)
  exact (completeRecover_tells _ _).notices.subset told

/-! ### A failed format or region erase -/

theorem Store.blankJob_of_format {st : Store} {hd : Header} {z : Timing} {step : JobStep}
    (job : st.job = some { kind := .format hd z, step := step }) :
    st.blankJob = { st with log := .blank, j := .blank, pa := .blank, pb := .blank } := by
  simp only [Store.blankJob, job, Option.map_some]

theorem Store.blankJob_of_region {st : Store} {d : Dict} {step : JobStep}
    (job : st.job = some { kind := .region d, step := step }) : st.blankJob = st.updRegion d (fun _ => .blank) := by
  simp only [Store.blankJob, job, Option.map_some]

theorem faultRaised_job_store (s : State) :
    (faultRaised .job s).store =
      { s.store.blankJob with
        state := .fault, failed := some .job, recovering := none, logRelocated := false, suspendAt := none } :=
  (setCause_tells .storeFault true _).store

theorem Store.blankJob_formatTag (st : Store) : st.blankJob.formatTag = st.formatTag := by
  unfold Store.blankJob
  split
  · rfl
  · next d _ => cases d <;> rfl
  · rfl

theorem Store.blankJob_eraseTag (st : Store) : st.blankJob.eraseTag = st.eraseTag := by
  unfold Store.blankJob
  split
  · rfl
  · next d _ => cases d <;> rfl
  · rfl

theorem mem_enterFault_format {s : State} {tag : Byte} (waits : s.store.formatTag = some tag)
    (room : s.host.notices.length < 28) :
    .completion tag 0x11 (some .storeFault) 1 true [] ∈ (enterFault .job s).host.notices := by
  rw [enterFault_eq]
  have few := faultRaised_notices_length .job s
  have tag_kept : (faultRaised .job s).store.formatTag = some tag := by
    rw [faultRaised_job_store]
    exact (Store.blankJob_formatTag _).trans waits
  have told := mem_completeFormat (failed := some .storeFault) (data := []) tag_kept (by omega)
  exact (completeRecover_tells _ _).notices.subset ((completeFlush_tells _ _).notices.subset
    ((completeErase_tells _ _).notices.subset told))

theorem mem_enterFault_erase {s : State} {tag : Byte} (waits : s.store.eraseTag = some tag)
    (room : s.host.notices.length < 28) :
    .completion tag 0x10 (some .storeFault) 1 true [] ∈ (enterFault .job s).host.notices := by
  rw [enterFault_eq]
  have few := faultRaised_notices_length .job s
  have few_format : (completeFormat (some .storeFault) [] (faultRaised .job s)).host.notices.length ≤
      (faultRaised .job s).host.notices.length + 1 := (completeFormat_tells _ _ _).few
  have tag_kept : (completeFormat (some .storeFault) [] (faultRaised .job s)).store.eraseTag = some tag := by
    rw [completeFormat_store, faultRaised_job_store]
    exact (Store.blankJob_eraseTag _).trans waits
  have told := mem_completeErase (failed := some .storeFault) tag_kept (by omega)
  exact (completeRecover_tells _ _).notices.subset ((completeFlush_tells _ _).notices.subset told)

theorem enterFault_log_pages (f : FailedWork) (s : State) : (enterFault f s).log.pages = s.log.pages := by
  have flushed : (completeFlush (some (flushReason (some f))) (failJob f (faultRaised f s))).log.pages = s.log.pages := by
    rw [completeFlush_log]
    cases f <;> simp [failJob, faultRaised]
  rw [enterFault_eq, ← flushed]
  simp

/-! ### Relocation -/

theorem canShift_iff {s : State} {h : Header} (header : s.store.header = some h) :
    canShift s = true ↔ ∃ page, s.log.pages.getLast? = some page ∧ page.page + 1 < h.log.len * 256 := by
  have pages : s.store.logPages = h.log.len * 256 := by simp only [Store.logPages, header]
  unfold canShift
  rw [pages]
  cases s.log.pages.getLast? with
  | none => simp
  | some page => simp

theorem canMove_iff {s : State} {h : Header} (header : s.store.header = some h) (p : DictProg) :
    canMove s p = true ↔ (p.offset / 256 + 1) * 256 + p.data.length ≤ (h.span p.dict).len * 65536 := by
  simp only [canMove, State.regionEnd, header, decide_eq_true_eq]
  rfl

/-- The shift of the buffer pages, with the conditions of the log told. -/
theorem shiftLog_tells (s : State) :
    Tells 2
      { s with
        store := { s.store with
          log := { s.store.log with append := s.store.log.append.map (· + 1) }, logRelocated := true }
        log := { s.log with pages := s.log.pages.map (fun p => { p with page := p.page + 1 }) } }
      (shiftLog s) := logCauses_tells _

end Sys2Proof.Machine
end

section
/-! What a programmed record leaves in the dictionary block (R83, R95, R96). -/

namespace Sys2Proof.Machine

/-! ### A bucket that is entered -/

theorem enterBucket_find_same (b off : Nat) (l : List Bucket) :
    ∃ x, (enterBucket b off l).find? (fun x => decide (x.index = b)) = some x ∧ x.head = off := by
  induction l with
  | nil => exact ⟨{ index := b, head := off, count := 1 }, by simp [enterBucket], rfl⟩
  | cons x l ih =>
    unfold enterBucket
    split
    next here => exact ⟨{ x with head := off, count := x.count + 1 }, by simp [here], rfl⟩
    next elsewhere =>
      split
      · exact ⟨{ index := b, head := off, count := 1 }, by simp, rfl⟩
      · simpa [elsewhere] using ih

theorem enterBucket_find_other {b k : Nat} (other : k ≠ b) (off : Nat) (l : List Bucket) :
    (enterBucket b off l).find? (fun x => decide (x.index = k)) = l.find? (fun x => decide (x.index = k)) := by
  induction l with
  | nil => simp [enterBucket, Ne.symm other]
  | cons x l ih =>
    unfold enterBucket
    split
    next here => simp [here, Ne.symm other]
    next elsewhere =>
      split
      · simp [Ne.symm other]
      · simp only [List.find?_cons, ih]

/-- The number of records a directory counts in a bucket. -/
def countIn (l : List Bucket) (k : Nat) : Nat := ((l.find? (fun x => decide (x.index = k))).map Bucket.count).getD 0

theorem countIn_enterBucket_same {b off : Nat} {l : List Bucket} (order : l.Pairwise (fun x y => x.index < y.index)) :
    countIn (enterBucket b off l) b = countIn l b + 1 := by
  induction l with
  | nil => simp [enterBucket, countIn]
  | cons x l ih =>
    obtain ⟨above, order⟩ := List.pairwise_cons.mp order
    unfold enterBucket
    split
    next here => simp [countIn, here]
    next elsewhere =>
      split
      next before =>
        have absent : l.find? (fun x => decide (x.index = b)) = none := by
          refine List.find?_eq_none.mpr fun y within => ?_
          have := above y within
          simp only [decide_eq_true_eq]
          omega
        simp [countIn, elsewhere, absent]
      next => simpa [countIn, elsewhere] using ih order

theorem DictRec.countOf_eq (r : DictRec) (b : Nat) : r.countOf b = countIn r.directory b := rfl

theorem DictRec.headOf_congr {r q : DictRec} (same : r.directory = q.directory) (b : Nat) : r.headOf b = q.headOf b := by
  simp only [DictRec.headOf, DictRec.bucket?, same]

theorem DictRec.countOf_congr {r q : DictRec} (same : r.directory = q.directory) (b : Nat) : r.countOf b = q.countOf b := by
  simp only [DictRec.countOf, DictRec.bucket?, same]

theorem DictRec.headOf_entered {r q : DictRec} {k off : Nat} (entered : r.directory = enterBucket k off q.directory) (b : Nat) :
    r.headOf b = if b = k then some off else q.headOf b := by
  simp only [DictRec.headOf, DictRec.bucket?, entered]
  split
  next same =>
    obtain ⟨x, found, head⟩ := enterBucket_find_same k off q.directory
    rw [same, found, Option.map_some, head]
  next other => rw [enterBucket_find_other other]

theorem DictRec.countOf_entered {r q : DictRec} {k off : Nat} (entered : r.directory = enterBucket k off q.directory)
    (order : q.inOrder) (b : Nat) : r.countOf b = q.countOf b + (if b = k then 1 else 0) := by
  rw [DictRec.countOf_eq, DictRec.countOf_eq, entered]
  split
  next same => rw [same, countIn_enterBucket_same order]
  next other =>
    simp only [countIn, enterBucket_find_other other]
    rfl

/-! ### What the drain leaves of the dictionary block -/

/-- What a staged operation keeps while it drains. -/
def StagedOp.shape (o : StagedOp) : Dict × List Nat × Option Bytes × List (Nat × Nat) :=
  (o.dict, o.outline, o.text, o.reserves)

/-- What the handing over of the next record leaves of the dictionary block: the staged operations but for their progress,
the directories and the counts of what has been programmed. -/
def Dictionary.tally (x : Dictionary) :
    List (Dict × List Nat × Option Bytes × List (Nat × Nat)) × (Dict → List Bucket) × Count × Count × Count :=
  (x.staging.map StagedOp.shape, fun d => (x.get d).directory, x.recordsProgrammed, x.prefixesWritten, x.opsDrained)

theorem changeFirst_split {p : StagedOp → Bool} (f : StagedOp → StagedOp) {front back : List StagedOp} {o : StagedOp}
    (before : ∀ x ∈ front, p x = false) (here : p o = true) :
    changeFirst p f (front ++ o :: back) = front ++ f o :: back := by
  induction front with
  | nil => simp [changeFirst, here]
  | cons x front ih =>
    have skips : p x = false := before x (by simp)
    simp [changeFirst, skips, ih fun y within => before y (by simp [within])]

theorem changeFirst_shape {p : StagedOp → Bool} {f : StagedOp → StagedOp} (keeps : ∀ o, (f o).shape = o.shape)
    (l : List StagedOp) : (changeFirst p f l).map StagedOp.shape = l.map StagedOp.shape := by
  induction l with
  | nil => rfl
  | cons o l ih =>
    unfold changeFirst
    split
    · simp [keeps]
    · simp [ih]

theorem Dictionary.tally_upd_stalled (x : Dictionary) (d : Dict) (b : Bool) :
    (x.upd d (fun r => { r with stalled := b })).tally = x.tally := by
  unfold Dictionary.tally
  have directories : (fun e => ((x.upd d (fun r => { r with stalled := b })).get e).directory) =
      fun e => (x.get e).directory := by
    funext e
    cases d <;> cases e <;> rfl
  rw [directories]
  cases d <;> rfl

theorem Dictionary.tally_stall (d : Dict) (x : Dictionary) : (x.stall d).tally = x.tally :=
  (show (x.stall d).tally = (x.upd d (fun r => { r with stalled := true })).tally from by cases d <;> rfl).trans
    (Dictionary.tally_upd_stalled x d true)

theorem Dictionary.tally_staging {x : Dictionary} {l : List StagedOp}
    (same : l.map StagedOp.shape = x.staging.map StagedOp.shape) : ({ x with staging := l } : Dictionary).tally = x.tally := by
  show (l.map StagedOp.shape, _) = _
  rw [same]
  rfl

theorem handRecord_tally (o : StagedOp) (s : State) : (handRecord o s).dict.tally = s.dict.tally := by
  unfold handRecord
  dsimp only
  split
  · rfl
  · exact Dictionary.tally_stall _ _

theorem drainStep_tally (s : State) : (drainStep s).dict.tally = s.dict.tally := by
  unfold drainStep
  split
  · rfl
  · split
    · split
      · rfl
      · exact (handRecord_tally _ _).trans rfl
    · exact handRecord_tally _ _

theorem drainNext_tally (s : State) : (drainNext s).dict.tally = s.dict.tally := by
  unfold drainNext
  split
  · rfl
  · split
    · refine (drainStep_tally _).trans (Dictionary.tally_staging ?_)
      exact changeFirst_shape (f := fun o => { o with draining := true, next := o.firstStep }) (fun _ => rfl) _
    · rfl

theorem takeUp_dict_tally (s : State) : s.takeUp.dict.tally = s.dict.tally := by
  have drained : (drainBegin s).dict.tally = s.dict.tally :=
    (drainNext_tally _).trans ((drainNext_tally _).trans (drainNext_tally s))
  rw [← drained, State.takeUp]
  simp

/-! ### The success of a record -/

/-- The operation that is being drained. -/
def Dictionary.drains (x : Dictionary) (o : StagedOp) : Bool := o.draining && !(x.get o.dict).stalled

theorem Dictionary.drains_of_stalls {x y : Dictionary} (same : ∀ d, (x.get d).stalled = (y.get d).stalled) (o : StagedOp) :
    x.drains o = y.drains o := by
  simp only [Dictionary.drains, same]

/-- The dictionary block once a record of the operation being drained is in its bucket. -/
def Dictionary.programmed (p : DictProg) (o : StagedOp) (front back : List StagedOp) (x : Dictionary) : Dictionary :=
  { x.enter p.dict p.bucket p.offset with
    staging := front ++ o.release (stepReserve o) :: back
    recordsProgrammed := x.recordsProgrammed + 1
    prefixesWritten := if p.isPrefix then x.prefixesWritten + 1 else x.prefixesWritten }

section
variable {p : DictProg} {o : StagedOp} {front back : List StagedOp} {s : State}
  (staging : s.dict.staging = front ++ o :: back) (before : ∀ x ∈ front, s.dict.drains x = false)
  (here : s.dict.drains o = true)

theorem Dictionary.enter_stalled (x : Dictionary) (d : Dict) (b off : Nat) (e : Dict) :
    ((x.enter d b off).get e).stalled = (x.get e).stalled := by cases d <;> cases e <;> rfl

include staging before here in
theorem recordSuccess_eq :
    recordSuccess p s = stepDone o (s.onDict (Dictionary.programmed p o front back)) := by
  have active : s.dict.active = some o := find?_of_front staging before here
  have released : (s.dict.enter p.dict p.bucket p.offset).onActive (fun o => o.release (stepReserve o)) =
      { s.dict.enter p.dict p.bucket p.offset with staging := front ++ o.release (stepReserve o) :: back } := by
    have same := Dictionary.drains_of_stalls (Dictionary.enter_stalled s.dict p.dict p.bucket p.offset)
    have staged : (s.dict.enter p.dict p.bucket p.offset).staging = front ++ o :: back := by
      rw [← staging]
      cases p with
      | mk dict => cases dict <;> rfl
    have changed : changeFirst (s.dict.enter p.dict p.bucket p.offset).drains (fun o => o.release (stepReserve o))
        (s.dict.enter p.dict p.bucket p.offset).staging = front ++ o.release (stepReserve o) :: back := by
      rw [staged, changeFirst_split _ (fun x within => (same x).trans (before x within)) ((same o).trans here)]
    rw [← changed]
    rfl
  simp only [recordSuccess, active, State.onDict, released]
  cases p with
  | mk dict => cases dict <;> rfl

include before here in
theorem Dictionary.drains_programmed :
    (∀ x ∈ front, (s.dict.programmed p o front back).drains x = false) ∧
      (s.dict.programmed p o front back).drains (o.release (stepReserve o)) = true := by
  have same : ∀ x, (s.dict.programmed p o front back).drains x = s.dict.drains x :=
    Dictionary.drains_of_stalls fun d => (show ((s.dict.programmed p o front back).get d).stalled =
      ((s.dict.enter p.dict p.bucket p.offset).get d).stalled from by cases d <;> rfl).trans
        (Dictionary.enter_stalled _ _ _ _ d)
  exact ⟨fun x within => (same x).trans (before x within), (same _).trans here⟩

include staging before here in
theorem recordSuccess_tally_of_pfx {j : Nat} (step : o.next = .pfx j) :
    (recordSuccess p s).dict.tally = (s.dict.programmed p o front back).tally := by
  rw [recordSuccess_eq staging before here]
  simp only [stepDone, step]
  refine (drainStep_tally _).trans (Dictionary.tally_staging ?_)
  exact changeFirst_shape (f := fun o => { o with next := o.stepAfter j }) (fun _ => rfl) _

include staging before here in
theorem recordSuccess_tally_of_last (step : o.next = .entry ∨ o.next = .tombstone) :
    (recordSuccess p s).dict.tally =
      ({ s.dict.programmed p o front back with
        staging := front ++ back, opsDrained := s.dict.opsDrained + 1 } : Dictionary).tally := by
  obtain ⟨others, it⟩ := Dictionary.drains_programmed (p := p) (back := back) before here
  have left : (s.dict.programmed p o front back).drained =
      { s.dict.programmed p o front back with staging := front ++ back, opsDrained := s.dict.opsDrained + 1 } := by
    have erased : (front ++ o.release (stepReserve o) :: back).eraseP (s.dict.programmed p o front back).drains =
        front ++ back := by
      rw [List.eraseP_append_right _ fun x within => by simp [others x within], List.eraseP_cons_of_pos it]
    have count : (s.dict.programmed p o front back).opsDrained = s.dict.opsDrained := by
      cases p with
      | mk dict => cases dict <;> rfl
    show ({ s.dict.programmed p o front back with
      staging := (front ++ o.release (stepReserve o) :: back).eraseP (s.dict.programmed p o front back).drains
      opsDrained := (s.dict.programmed p o front back).opsDrained + 1 } : Dictionary) = _
    rw [erased, count]
  rw [recordSuccess_eq staging before here, ← left]
  rcases step with step | step <;> simp only [stepDone, step] <;> rfl

end

theorem Dictionary.programmed_directory (p : DictProg) (o : StagedOp) (front back : List StagedOp) (x : Dictionary) (d : Dict) :
    ((x.programmed p o front back).get d).directory =
      if d = p.dict then enterBucket p.bucket p.offset (x.get d).directory else (x.get d).directory := by
  cases p with
  | mk dict => cases dict <;> cases d <;> rfl

end Sys2Proof.Machine
end

section
/-! What follows the end of an operation (R65 to R67, R70, R71, R95). -/

namespace Sys2Proof.Machine

/-! ### A format's next step -/

theorem drainNext_of_not_ready {s : State} (not_ready : s.store.state ≠ .ready) : drainNext s = s := by
  unfold drainNext
  split
  · rfl
  · rw [if_neg]
    simp [drainReady, not_ready]

theorem drainBegin_of_not_ready {s : State} (not_ready : s.store.state ≠ .ready) : drainBegin s = s := by
  unfold drainBegin
  rw [drainNext_of_not_ready not_ready, drainNext_of_not_ready not_ready, drainNext_of_not_ready not_ready]

theorem takeUp_of_format {s : State} {j : Job} (formatting : s.store.state = .formatting) (reading : s.store.reading = none)
    (idle : s.store.inProgress = none) (no_suspended : s.store.suspended = none) (job : s.store.job = some j) :
    s.takeUp = startJob j s := by
  rw [State.takeUp, drainBegin_of_not_ready (by simp [formatting])]
  simp only [storePump, reading, formatting, idle, no_suspended, job]

theorem jobDone_of_format_step {s : State} {hd : Header} {z : Timing} {step next : JobStep}
    (job : s.store.job = some { kind := .format hd z, step := step })
    (after : Job.after { kind := .format hd z, step := step } ⟨0, 0⟩ = some next) :
    jobDone s = { s with store := { s.store with job := some { kind := .format hd z, step := next } } } := by
  simp only [jobDone, job, after]
  rfl

theorem jobDone_of_region_step {s : State} {d : Dict} {step next : JobStep}
    (job : s.store.job = some { kind := .region d, step := step })
    (after : Job.after { kind := .region d, step := step } (jobSpan s (.region d) d) = some next) :
    jobDone s = { s with store := { s.store with job := some { kind := .region d, step := next } } } := by
  simp only [jobDone, job, after]
  rfl

theorem jobDone_of_format_end {s : State} {hd : Header} {z : Timing} {step : JobStep}
    (job : s.store.job = some { kind := .format hd z, step := step })
    (last : Job.after { kind := .format hd z, step := step } ⟨0, 0⟩ = none) : jobDone s = beginMount s := by
  simp only [jobDone, job, last]

theorem jobDone_of_region_end {s : State} {d : Dict} {step : JobStep}
    (job : s.store.job = some { kind := .region d, step := step })
    (last : Job.after { kind := .region d, step := step } (jobSpan s (.region d) d) = none) : jobDone s = eraseDone d s := by
  simp only [jobDone, job, last]

theorem eraseDone_tells (d : Dict) (s : State) :
    Tells 1
      { s with
        store := Store.updRegion { s.store with job := none, eraseTag := none } d
          (fun _ => { state := .ready, append := some 256 }) }
      (eraseDone d s) := by
  have told := completeErase_tells none (s.onStore fun st =>
    { st.updRegion d (fun _ => { state := .ready, append := some Config.pageBytes }) with job := none })
  have same : { s with
        store := Store.updRegion { s.store with job := none, eraseTag := none } d
          (fun _ => { state := .ready, append := some 256 }) } =
      (s.onStore fun st => { st.updRegion d (fun _ => { state := .ready, append := some Config.pageBytes }) with
        job := none }).onStore fun st => { st with eraseTag := none } := by
    cases d <;> rfl
  rw [same]
  exact told

theorem endsRetry_of_none {st : Store} (none : st.recovering = none) (w : Work) : endsRetry st w = false := by
  simp only [endsRetry, none]

theorem dictDone_of_discarded {p : DictProg} (discarded : p.discarded = true) (s : State) :
    dictDone p s = { s with store := s.store.updRegion p.dict (Region.appendAt (p.offset + p.data.length)) } := by
  simp only [dictDone, discarded, if_true]
  rfl

theorem dictDone_of_kept {p : DictProg} (kept : p.discarded = false) (s : State) :
    dictDone p s = recordSuccess p
      { s with store := s.store.updRegion p.dict (Region.appendAt (p.offset + p.data.length)) } := by
  simp only [dictDone, kept, Bool.false_eq_true, if_false]
  rfl

/-! ### The region of a record -/

theorem Store.onlyHanded.region {a b : Store} (same : a.onlyHanded b) (d : Dict) : a.region d = b.region d := by
  have regions := congrArg (fun st : Store => st.region d) same.eq
  cases d <;> exact regions

theorem Store.onlyTaken.region {a b : Store} (same : a.onlyTaken b) (d : Dict) : a.region d = b.region d := by
  have regions := congrArg (fun st : Store => st.region d) same.eq
  cases d <;> exact regions

theorem workDone_dictRecord_region {p : DictProg} (kept : p.discarded = false) (s : State) (d : Dict) :
    (workDone (.dictRecord p) s).store.region d =
      (s.store.updRegion p.dict (Region.appendAt (p.offset + p.data.length))).region d := by
  have effect : (dictDone p s).store.region d =
      (s.store.updRegion p.dict (Region.appendAt (p.offset + p.data.length))).region d := by
    rw [dictDone_of_kept kept]
    exact (recordSuccess_handed p _).region d
  cases retried : endsRetry s.store (.dictRecord p) with
  | true =>
    rw [workDone_of_retry retried, recovered_store, ← effect]
    cases d <;> rfl
  | false =>
    rw [workDone_of_first retried]
    exact effect

theorem workDone_dictRecord_dict {p : DictProg} (kept : p.discarded = false) (s : State) :
    (workDone (.dictRecord p) s).dict = (recordSuccess p
      { s with store := s.store.updRegion p.dict (Region.appendAt (p.offset + p.data.length)) }).dict := by
  cases retried : endsRetry s.store (.dictRecord p) with
  | true =>
    rw [workDone_of_retry retried, ← dictDone_of_kept kept]
    simp [recovered]
    rfl
  | false => rw [workDone_of_first retried, ← dictDone_of_kept kept]; rfl

theorem exec_opEnd {s : State} {op : FlashOp} {w : Work} {ran : Nat} {timedOut error : Bool} {left : List Host.Cell}
    {c : Instr} (calm : s.calm)
    (runs : s.store.inProgress = some { op := op, work := w, ran := ran, timedOut := timedOut })
    (program : ∀ addr data, op = .program addr data → c = .pageProgramEnd error left)
    (erase : ∀ b, op = .erase b → c = .blockEraseEnd error left) :
    exec c s = .next
      (State.settled (opEnded { op := op, work := w, ran := ran, timedOut := timedOut } error left s)) := by
  cases op with
  | program addr data =>
    rw [program addr data rfl]
    exact exec_pageProgramEnd calm runs error left
  | erase b =>
    rw [erase b rfl]
    exact exec_blockEraseEnd calm runs error left

end Sys2Proof.Machine
end

section
/-! The effect of an ended operation on its work, case by case (R65 to R67, R70, R71, R95). -/

namespace Sys2Proof.Machine

/-- The state of an ended operation before its work is acted on. -/
theorem clearOp_eq {s : State} {op : FlashOp} {w : Work} {ran : Nat} {timedOut error : Bool} {left : List Host.Cell}
    {programs erases : Count} (fresh_program : programs = if error && !timedOut then
      (s.store.countFailure op).programFailures else s.store.programFailures)
    (fresh_erase : erases = if error && !timedOut then
      (s.store.countFailure op).eraseFailures else s.store.eraseFailures) :
    clearOp { op := op, work := w, ran := ran, timedOut := timedOut } error left s =
      { s with
        flash := { s.flash with cells := op.settle error left s.flash.cells }
        store := { s.store with
          inProgress := none, suspendAt := none, programFailures := programs, eraseFailures := erases } } := by
  subst fresh_program fresh_erase
  cases op <;> cases error <;> cases timedOut <;> rfl

section
variable {s : State} {m : List Host.Cell} {st : Store}

/-- A state whose operation has ended: its note memory and its store. -/
def State.ended (s : State) (m : List Host.Cell) (st : Store) : State :=
  { s with flash := { s.flash with cells := m }, store := st }

theorem workFailed_logPage_shift {h : Header} {page : BufPage} (header : st.header = some h)
    (first : st.logRelocated = false) (last : s.log.pages.getLast? = some page) (room : page.page + 1 < h.log.len * 256) :
    let u := workFailed .logPage (s.ended m st)
    u = { s with
      flash := { s.flash with cells := u.flash.cells }
      store := { st with
        relocations := st.relocations + 1
        log := { st.log with append := st.log.append.map (· + 1) }
        logRelocated := true }
      log := { s.log with pages := s.log.pages.map (fun q => { q with page := q.page + 1 }) }
      host := u.host, conds := u.conds, time := u.time } := by
  have shifts : canShift (s.ended m st) = true := (canShift_iff (s := s.ended m st) header).mpr ⟨page, last, room⟩
  have moved : workFailed .logPage (s.ended m st) = countRelocation (shiftLog (s.ended m st)) := by
    show logFailed (s.ended m st) = _
    unfold logFailed
    rw [if_neg (by simp [State.ended, first]), if_pos shifts]
  rw [moved]
  exact Tells.after_end ((shiftLog_tells (s.ended m st)).onStore fun st => { st with relocations := st.relocations + 1 })

theorem workFailed_logPage_fault {h : Header} (header : st.header = some h)
    (stuck : st.logRelocated = true ∨ ∀ page, s.log.pages.getLast? = some page → h.log.len * 256 ≤ page.page + 1) :
    workFailed .logPage (s.ended m st) = enterFault (.logPage (!st.logRelocated)) (s.ended m st) := by
  show logFailed (s.ended m st) = _
  unfold logFailed
  cases relocated : st.logRelocated with
  | true => exact if_pos relocated
  | false =>
    have stays : ¬ canShift (s.ended m st) = true := fun shifts => by
      obtain ⟨page, last, room⟩ := (canShift_iff (s := s.ended m st) header).mp shifts
      rcases stuck with again | full
      · simp [relocated] at again
      · exact absurd (full page last) (by omega)
    rw [if_neg (by simp [State.ended, relocated]), if_neg stays]
    rfl

theorem workFailed_dictRecord_move {h : Header} {p : DictProg} (header : st.header = some h) (first : p.relocated = false)
    (room : (p.offset / 256 + 1) * 256 + p.data.length ≤ (h.span p.dict).len * 65536) :
    workFailed (.dictRecord p) (s.ended m st) = s.ended m (Store.updRegion
      { st with
        relocations := st.relocations + 1
        dictWork := { p with offset := (p.offset / 256 + 1) * 256, relocated := true } :: st.dictWork }
      p.dict (Region.appendAt ((p.offset / 256 + 1) * 256))) := by
  have moves : canMove (s.ended m st) p = true := (canMove_iff (s := s.ended m st) header p).mpr room
  show dictFailed p (s.ended m st) = _
  unfold dictFailed
  rw [if_neg (by simp [first]), if_pos moves]
  cases p with
  | mk dict => cases dict <;> rfl

theorem workFailed_dictRecord_fault {h : Header} {p : DictProg} (header : st.header = some h)
    (stuck : p.relocated = true ∨ ¬ (p.offset / 256 + 1) * 256 + p.data.length ≤ (h.span p.dict).len * 65536) :
    workFailed (.dictRecord p) (s.ended m st) = enterFault (.dictRecord p) (s.ended m st) := by
  show dictFailed p (s.ended m st) = _
  unfold dictFailed
  cases relocated : p.relocated with
  | true => rw [if_pos rfl]
  | false =>
    have stays : ¬ canMove (s.ended m st) p = true := fun moves =>
      stuck.elim (fun again => by simp [relocated] at again) fun full =>
        full ((canMove_iff (s := s.ended m st) header p).mp moves)
    rw [if_neg (by simp), if_neg stays]

theorem enterFault_ended {f : FailedWork} (other : f ≠ .job) (idle : st.suspendAt = none) :
    let u := enterFault f (s.ended m st)
    u = { s with
      flash := { s.flash with cells := u.flash.cells }
      store := { st with state := .fault, failed := some f, recovering := none, logRelocated := false, recoverTag := none }
      log := { s.log with flushTag := none }
      host := u.host, conds := u.conds, time := u.time } := by
  have tells := enterFault_tells other (s.ended m st)
  have same : st.faulted f =
      { st with
        state := .fault, failed := some f, recovering := none, logRelocated := false, recoverTag := none } := by
    rw [Store.faulted, ← idle]
  rw [show (s.ended m st).store = st from rfl, same] at tells
  exact tells.after_end

theorem workDone_of_none {w : Work} (none : st.recovering = none) :
    workDone w (s.ended m st) = workEffect w (s.ended m st) :=
  workDone_of_first (endsRetry_of_none (st := st) none w)

/-- A format's step that starts its next one. -/
theorem settled_format_step {hd : Header} {z : Timing} {next : JobStep} {x : FlashOp} (formatting : st.state = .formatting)
    (reading : st.reading = none) (idle : st.inProgress = none) (no_suspended : st.suspended = none)
    (job : st.job = some { kind := .format hd z, step := next })
    (op : jobOp (s.ended m st) { kind := .format hd z, step := next } = x) :
    (s.ended m st).settled = chooseFrame (s.ended m (st.begin x .job)) := by
  rw [State.settled, takeUp_of_format formatting reading idle no_suspended job, startJob, op]
  rfl

end

@[simp] theorem settled_dict (s : State) : s.settled.dict = s.takeUp.dict := by simp [State.settled]

section
variable {p : DictProg} {o : StagedOp} {front back : List StagedOp} {s : State}
  (staging : s.dict.staging = front ++ o :: back) (before : ∀ x ∈ front, s.dict.drains x = false)
  (here : s.dict.drains o = true)

theorem Dictionary.programmed_counts (p : DictProg) (o : StagedOp) (front back : List StagedOp) (x : Dictionary) :
    (x.programmed p o front back).recordsProgrammed = x.recordsProgrammed + 1 ∧
      (x.programmed p o front back).prefixesWritten = x.prefixesWritten + (if p.isPrefix = true then 1 else 0) ∧
      (x.programmed p o front back).opsDrained = x.opsDrained := by
  refine ⟨rfl, ?_, ?_⟩
  · show (if p.isPrefix then x.prefixesWritten + 1 else x.prefixesWritten) = _
    split <;> simp
  · cases p with
    | mk dict => cases dict <;> rfl

include staging before here in
/-- The directories and the counts after a record, whichever step comes next. -/
theorem recordSuccess_directories :
    (∀ d, ((recordSuccess p s).dict.tally.2.1 d) = ((s.dict.programmed p o front back).get d).directory) ∧
      (recordSuccess p s).dict.tally.2.2.1 = s.dict.recordsProgrammed + 1 ∧
      (recordSuccess p s).dict.tally.2.2.2.1 = s.dict.prefixesWritten + (if p.isPrefix = true then 1 else 0) := by
  obtain ⟨records, prefixes, -⟩ := Dictionary.programmed_counts p o front back s.dict
  cases step : o.next with
  | pfx j =>
    rw [recordSuccess_tally_of_pfx staging before here step]
    exact ⟨fun d => rfl, records, prefixes⟩
  | entry =>
    rw [recordSuccess_tally_of_last staging before here (.inl step)]
    exact ⟨fun d => by cases d <;> rfl, records, prefixes⟩
  | tombstone =>
    rw [recordSuccess_tally_of_last staging before here (.inr step)]
    exact ⟨fun d => by cases d <;> rfl, records, prefixes⟩

end

/-- What a successful record leaves, whatever is drained next: its region and the tally of the dictionary block. -/
theorem settled_dictRecord {s : State} {p : DictProg} (kept : p.discarded = false) :
    (∀ d, (workDone (.dictRecord p) s).settled.store.region d =
      (s.store.updRegion p.dict (Region.appendAt (p.offset + p.data.length))).region d) ∧
    (workDone (.dictRecord p) s).settled.dict.tally = (recordSuccess p
      { s with store := s.store.updRegion p.dict (Region.appendAt (p.offset + p.data.length)) }).dict.tally := by
  refine ⟨fun d => ?_, ?_⟩
  · rw [settled_store, (takeUp_taken _).region, workDone_dictRecord_region kept]
  · rw [← workDone_dictRecord_dict kept, settled_dict, takeUp_dict_tally]

/-- Settles O30: the state with the operation ended, then each work's failure or success. -/
theorem endedWorkIsCarriedOn : Obligations.EndedWorkIsCarriedOn := by
  intro op w ran timedOut error left h c s calm header runs command failed fresh ended faulted
  obtain ⟨m, m_eq⟩ : ∃ m, m = op.settle error left s.flash.cells := ⟨_, rfl⟩
  have runs_as : exec c s = .next
      (State.settled (opEnded { op := op, work := w, ran := ran, timedOut := timedOut } error left s)) :=
    exec_opEnd calm runs (fun addr data is => by rw [command, is]) (fun b is => by rw [command, is])
  have cleared : clearOp { op := op, work := w, ran := ran, timedOut := timedOut } error left s = s.ended m ended := by
    rw [m_eq]
    refine clearOp_eq ?_ ?_ <;> cases op <;> cases error <;> cases timedOut <;>
      simp [fresh, Store.countFailure]
  have fails : failed → w ≠ .abandoned → exec c s = .next (State.settled (workFailed w (s.ended m ended))) :=
    fun failed known => by rw [runs_as, opEnded_of_failed failed known, cleared]
  have succeeds : ¬ failed → w ≠ .abandoned → exec c s = .next (State.settled (workDone w (s.ended m ended))) :=
    fun succeeded known => by
      have no_error : error = false := by simpa using fun is => succeeded (.inl is)
      have in_time : timedOut = false := by simpa using fun is => succeeded (.inr is)
      rw [runs_as]
      subst no_error in_time
      rw [opEnded_of_done rfl known, cleared]
  have ended_header : ended.header = some h := header
  refine ⟨fun failed page_work => ?page, fun p failed record => ?record, fun failed job => ?job,
    fun p succeeded record => ?programmed, fun succeeded job first => ?step⟩
  case page =>
    subst page_work
    refine ⟨fun page first last room => ⟨_, fails failed (by simp), ?_⟩, fun stuck => ⟨_, fails failed (by simp), ?_⟩⟩
    · exact workFailed_logPage_shift ended_header first last room
    · rw [workFailed_logPage_fault ended_header stuck]
      refine ⟨enterFault_ended (by simp) rfl, enterFault_hasCause _ _, fun tag n waits room => ?_⟩
      have told := mem_enterFault_flush (f := .logPage (!ended.logRelocated)) (s := s.ended m ended) waits room (by simp)
      have reason : flushReason (some (.logPage (!ended.logRelocated))) =
          if s.store.logRelocated = true then .storeFault else .regionFull := by
        show flushReason (some (.logPage (!s.store.logRelocated))) = _
        cases s.store.logRelocated <;> rfl
      rwa [reason] at told
  case record =>
    subst record
    intro next room
    refine ⟨fun first fits => ?_, fun stuck => ⟨_, fails failed (by simp), ?_⟩⟩
    · intro queued moved
      refine ⟨_, fails failed (by simp), ?_⟩
      rw [workFailed_dictRecord_move ended_header first fits]
      rfl
    · rw [workFailed_dictRecord_fault ended_header stuck]
      exact ⟨enterFault_ended (by simp) rfl, enterFault_hasCause _ _⟩
  case job =>
    subst job
    refine ⟨_, fails failed (by simp), fun hd z step is => ⟨?_, fun tag waits room => ?_⟩,
      fun d step is => ⟨?_, fun tag waits room => ?_⟩, enterFault_hasCause _ _, ?_, ?_⟩
    · show (enterFault .job (s.ended m ended)).store = _
      rw [enterFault_store_job, show (s.ended m ended).store = ended from rfl, Store.blankJob_of_format (st := ended) is]
    · exact mem_enterFault_format (s := s.ended m ended) waits room
    · show (enterFault .job (s.ended m ended)).store = _
      rw [enterFault_store_job, show (s.ended m ended).store = ended from rfl, Store.blankJob_of_region (st := ended) is]
      cases d <;> rfl
    · exact mem_enterFault_erase (s := s.ended m ended) waits room
    · show (enterFault .job (s.ended m ended)).dict = s.dict
      simp [State.ended]
    · exact enterFault_log_pages .job (s.ended m ended)
  case programmed =>
    subst record
    refine ⟨fun discarded first => ⟨_, succeeds succeeded (by simp), ?_⟩,
      fun front o back kept staging draining runs_on before => ⟨_, succeeds succeeded (by simp), ?_⟩⟩
    · have effect : workDone (.dictRecord p) (s.ended m ended) = _ :=
        (workDone_of_none (st := ended) first).trans (dictDone_of_discarded discarded (s.ended m ended))
      rw [effect]
      rfl
    · obtain ⟨regions, tally⟩ := settled_dictRecord (s := s.ended m ended) kept
      have region_kept : ended.region p.dict = s.store.region p.dict := by cases p.dict <;> rfl
      have region := (regions p.dict).trans (Store.region_updRegion_same ended p.dict _)
      rw [region_kept] at region
      have skipped : ∀ q ∈ front, s.dict.drains q = false := fun q within => by
        cases draining : q.draining with
        | false => simp [Dictionary.drains, draining]
        | true => simp [Dictionary.drains, before q within draining]
      have drains : s.dict.drains o = true := by simp [Dictionary.drains, draining, runs_on]
      let v := { s.ended m ended with
        store := ended.updRegion p.dict (Region.appendAt (p.offset + p.data.length)) }
      obtain ⟨directories, records, prefixes⟩ := recordSuccess_directories (p := p) (s := v) staging skipped drains
      have directory : ∀ d, ((workDone (.dictRecord p) (s.ended m ended)).settled.dict.get d).directory =
          if d = p.dict then enterBucket p.bucket p.offset (s.dict.get d).directory else (s.dict.get d).directory :=
        fun d => (congrFun (congrArg (fun x => x.2.1) tally) d).trans
          ((directories d).trans (Dictionary.programmed_directory p o front back s.dict d))
      have own := (directory p.dict).trans (if_pos rfl)
      refine ⟨fun ready => ?_, fun not_ready => ?_, fun b => ?_, fun order b => ?_, fun e other => ?_, ?_, ?_, ?_⟩
      · rw [region, Region.appendAt, if_pos ready, ← ready]
      · rw [region, Region.appendAt, if_neg not_ready]
      · exact DictRec.headOf_entered own b
      · exact DictRec.countOf_entered own order b
      · exact (directory e).trans (if_neg other)
      · exact (congrArg (fun x => x.2.2.1) tally).trans records
      · exact (congrArg (fun x => x.2.2.2.1) tally).trans prefixes
      · intro shape
        refine ⟨fun j step => ?_, fun step => ?_⟩
        · intro y
          have counted := tally.trans (recordSuccess_tally_of_pfx (p := p) (s := v) staging skipped drains step)
          refine ⟨?_, ?_⟩
          · exact (congrArg (fun x => x.2.2.2.2) counted).trans (Dictionary.programmed_counts p o front back s.dict).2.2
          · have reserve : stepReserve o = (bucketOf y, 2 * (8 + 3 * y.length) - 1) := by
              simp only [stepReserve, step, stepRecord, reserveOf, recordSize, List.length_nil, Nat.add_zero, y]
            rw [← reserve]
            exact congrArg (fun x => x.1) counted
        · have counted := tally.trans (recordSuccess_tally_of_last (p := p) (s := v) staging skipped drains step)
          exact ⟨congrArg (fun x => x.2.2.2.2) counted, congrArg (fun x => x.1) counted⟩
  case step =>
    subst job
    refine ⟨fun hd z step is => ?_, fun d step is => ⟨fun b at_erase => ?_, fun at_ready => ?_⟩⟩
    · intro goesOn
      have effect := workDone_of_none (w := .job) (s := s) (m := m) (st := ended) first
      have goes : ∀ next x, Job.after { kind := .format hd z, step := step } ⟨0, 0⟩ = some next →
          jobOp (s.ended m ended) { kind := .format hd z, step := next } = x → goesOn next x := by
        intro next x after op_eq formatting reading no_suspended
        have stepped : workDone .job (s.ended m ended) =
            s.ended m { ended with job := some { kind := .format hd z, step := next } } :=
          effect.trans (jobDone_of_format_step (s := s.ended m ended) is after)
        let taken : Store := { ended with job := some { kind := .format hd z, step := next } }
        have reached : (s.ended m taken).settled = chooseFrame (s.ended m (taken.begin x .job)) :=
          settled_format_step formatting reading rfl no_suspended rfl (by rw [← op_eq]; cases next <;> rfl)
        refine ⟨s.ended m (taken.begin x .job), ?_, ?_⟩
        · rw [succeeds succeeded (by simp), stepped, reached]
        · cases x <;> simp only [State.ended, Store.begin, add_zero] <;> rfl
      refine ⟨fun b at_erase more => ?_, fun b at_erase last => ?_, fun at_header => ?_, fun at_j => ?_, fun at_pa => ?_,
        fun at_pb => ?_⟩
      · exact goes _ _ (by rw [at_erase]; simp only [Job.after, if_pos more]) rfl
      · exact goes _ _ (by rw [at_erase]; simp only [Job.after, if_neg (Nat.not_lt.mpr last)]) rfl
      · exact goes _ _ (by rw [at_header]; rfl) rfl
      · exact goes _ _ (by rw [at_j]; rfl) rfl
      · exact goes _ _ (by rw [at_pa]; rfl) rfl
      · refine ⟨_, succeeds succeeded (by simp), ?_⟩
        rw [effect.trans (jobDone_of_format_end (s := s.ended m ended) is (by rw [at_pb]; rfl))]
        rfl
    · intro next
      have span : jobSpan (s.ended m ended) (.region d) d = h.span d := by
        simp only [jobSpan, show (s.ended m ended).store.header = some h from header]
      refine ⟨_, succeeds succeeded (by simp), ?_⟩
      have effect : workDone .job (s.ended m ended) = _ := (workDone_of_none (st := ended) first).trans
        (jobDone_of_region_step (s := s.ended m ended) (next := next) is (by rw [at_erase, span]; rfl))
      rw [effect]
      rfl
    · intro ready
      have effect : workDone .job (s.ended m ended) = eraseDone d (s.ended m ended) :=
        (workDone_of_none (w := .job) (s := s) (m := m) (st := ended) first).trans
          (jobDone_of_region_end (s := s.ended m ended) is (by rw [at_ready]; rfl))
      refine ⟨_, succeeds succeeded (by simp), ?_, fun tag waits room => ?_⟩
      · rw [effect]
        exact (eraseDone_tells d (s.ended m ended)).after_end
      · rw [effect]
        exact mem_completeErase (by cases d <;> exact waits) room

end Sys2Proof.Machine
end

section
/-! STORE-RECOVER and the end of the retry (R68). -/

namespace Sys2Proof.Machine

/-! ### A request that ends its step in the store -/

theorem settled_addReply (tag : Byte) (r : Result) (after : AfterSent) (s : State) :
    (addReply tag r after s).settled = chooseFrame (addReply tag r after s.takeUp) :=
  congrArg chooseFrame (takeUp_onHost _ s rfl)

theorem settled_addReply_store (tag : Byte) (r : Result) (after : AfterSent) (s : State) :
    (addReply tag r after s).settled.store = s.takeUp.store := by
  rw [settled_addReply]
  simp [addReply]

theorem settled_addReply_log (tag : Byte) (r : Result) (after : AfterSent) (s : State) :
    (addReply tag r after s).settled.log = s.takeUp.log := by
  rw [settled_addReply]
  simp [addReply]

theorem settled_addReply_hasCause (tag : Byte) (r : Result) (after : AfterSent) (s : State) (c : Cond) :
    (addReply tag r after s).settled.hasCause c = s.hasCause c := settled_hasCause _ c

theorem mem_settled_addReply (tag : Byte) (r : Result) (after : AfterSent) (s : State) :
    { tag := tag, result := r, after := after } ∈ (addReply tag r after s).settled.host.replyLine := by
  rw [settled_addReply, chooseFrame_replyLine]
  exact List.mem_append_right _ (List.mem_append_right _ (List.mem_singleton_self _))

theorem takeUp_host (s : State) : s.takeUp.host = s.host := by rw [takeUp_eq]

theorem mem_settled_notices {n : Notice} {s : State} (queued : n ∈ s.host.notices) : n ∈ s.settled.host.noticeLine :=
  mem_noticeLine_chooseFrame (by rw [takeUp_host]; exact queued)

/-- A request that is taken and whose step ends with what the store takes up. -/
theorem finishStep_request_taken {s u : State} {tag : Byte} {r : Result} {rule : State → State × Result}
    (taken : s.accepts) (acts : rule s.counted = (u, r)) (calm : u.calm) :
    finishStep (takeRequest tag true false rule noAfter s) = (addReply tag r .nothing u).settled := by
  rw [takeRequest_taken _ _ _ _ _ taken, acts]
  exact finishStep_calm _ ⟨calm.1, calm.2⟩

/-! ### The retry -/

theorem Store.formatFailed_iff (st : Store) :
    st.formatFailed = true ↔ st.failed = some .job ∧ ∃ h z step, st.job = some { kind := .format h z, step := step } := by
  unfold Store.formatFailed
  constructor
  · intro failed
    split at failed
    next job kind =>
      obtain ⟨j, is, format⟩ := Option.map_eq_some_iff.mp kind
      obtain ⟨k, step⟩ := j
      obtain rfl : k = .format _ _ := format
      exact ⟨job, _, _, step, is⟩
    · exact absurd failed Bool.false_ne_true
  · rintro ⟨job, h, z, step, is⟩
    simp only [job, is, Option.map_some]

/-- The state in which the failed work is retried. -/
def recovering (tag : Byte) (s : State) : State :=
  setCause .storeFault false (s.onStore fun st =>
    { st with state := if st.formatFailed then .formatting else .ready, failed := none, recoverTag := some tag })

theorem recovering_store (tag : Byte) (s : State) :
    (recovering tag s).store = { s.store with
      state := if s.store.formatFailed then .formatting else .ready, failed := none, recoverTag := some tag } :=
  (setCause_tells _ _ _).store

theorem recovering_log (tag : Byte) (s : State) : (recovering tag s).log = s.log := (setCause_tells _ _ _).log

theorem recovering_calm {s : State} (calm : s.calm) (tag : Byte) : (recovering tag s).calm :=
  ⟨by simpa [recovering] using calm.1, by rw [recovering_log]; exact calm.2⟩

theorem storeRecoverRule_of_fault {s : State} {f : FailedWork} (fault : s.store.state = .fault)
    (failed : s.store.failed = some f) (tag : Byte) :
    storeRecoverRule tag s = (retryWork f (recovering tag s), .accepted) := by
  have in_fault : ¬ s.store.state ≠ .fault := not_not_intro fault
  simp only [storeRecoverRule, if_neg in_fault, failed]
  rfl

theorem canShift_congr {s t : State} (pages : t.log.pages = s.log.pages) (header : t.store.header = s.store.header) :
    canShift t = canShift s := by
  have room : t.store.logPages = s.store.logPages := by unfold Store.logPages; rw [header]
  unfold canShift
  rw [pages, room]

theorem canMove_congr {s t : State} (header : t.store.header = s.store.header) (p : DictProg) :
    canMove t p = canMove s p := by
  have room : t.regionEnd p.dict = s.regionEnd p.dict := by unfold State.regionEnd; rw [header]
  unfold canMove
  rw [room]

theorem canShift_iff_header (s : State) :
    canShift s = true ↔ ∃ page h, s.log.pages.getLast? = some page ∧ s.store.header = some h ∧
      page.page + 1 < h.log.len * 256 := by
  cases header : s.store.header with
  | none =>
    have no_pages : s.store.logPages = 0 := by simp only [Store.logPages, header]
    refine iff_of_false (fun shifts => ?_) (by simp)
    unfold canShift at shifts
    split at shifts
    · exact Bool.false_ne_true shifts
    · rw [no_pages] at shifts
      exact absurd (of_decide_eq_true shifts) (Nat.not_lt_zero _)
  | some h => rw [canShift_iff header]; simp

theorem canMove_iff_header (s : State) (p : DictProg) :
    canMove s p = true ↔ ∃ h, s.store.header = some h ∧
      (p.offset / 256 + 1) * 256 + p.data.length ≤ (h.span p.dict).len * 65536 := by
  cases header : s.store.header with
  | none =>
    refine iff_of_false (fun moves => ?_) (by simp)
    simp only [canMove, State.regionEnd, header, nextPageOf, Config.pageBytes, decide_eq_true_eq] at moves
    omega
  | some h => rw [canMove_iff header]; simp

/-- The work can be retried as the store and the log stand. -/
def FailedWork.retriable (s : State) : FailedWork → Prop
  | .logPage _ => canShift s = true
  | .dictRecord p => canMove s p = true
  | .job => True

/-- What the retry itself leaves alone in the store. -/
structure Retried (f : FailedWork) (s t : State) : Prop where
  state : t.store.state = s.store.state
  failed : t.store.failed = s.store.failed
  recovering : t.store.recovering = some f
  recoverTag : t.store.recoverTag = s.store.recoverTag
  relocations : t.store.relocations = s.store.relocations
  cause : t.hasCause .storeFault = s.hasCause .storeFault
  phase : t.host.phase = s.host.phase
  flush : t.log.flush = s.log.flush

theorem logCauses_hasCause (s : State) {c : Cond} (not_full : c ≠ .logFull) (not_nearly : c ≠ .logNearlyFull) :
    (logCauses s).hasCause c = s.hasCause c :=
  (setCause_hasCause_other _ _ not_full).trans (setCause_hasCause_other _ _ not_nearly)

theorem retryWork_logPage {s : State} (shifts : canShift s = true) (lacked : Bool) :
    retryWork (.logPage lacked) s = shiftLog (s.onStore fun st => { st with recovering := some (.logPage lacked) }) := by
  simp only [retryWork, if_pos shifts]

theorem retryWork_dictRecord {s : State} {p : DictProg} (moves : canMove s p = true) :
    retryWork (.dictRecord p) s = moveDict p (s.onStore fun st => { st with recovering := some (.dictRecord p) }) := by
  simp only [retryWork, if_pos moves]

theorem Store.eraseAgain_kept (st : Store) :
    st.eraseAgain.state = st.state ∧ st.eraseAgain.failed = st.failed ∧ st.eraseAgain.recovering = st.recovering ∧
      st.eraseAgain.recoverTag = st.recoverTag ∧ st.eraseAgain.relocations = st.relocations := by
  unfold Store.eraseAgain
  dsimp only
  split
  · exact ⟨rfl, rfl, rfl, rfl, rfl⟩
  · next d _ => cases d <;> exact ⟨rfl, rfl, rfl, rfl, rfl⟩
  · exact ⟨rfl, rfl, rfl, rfl, rfl⟩

theorem retryWork_retried {f : FailedWork} {s : State} (can : f.retriable s) : Retried f s (retryWork f s) := by
  cases f with
  | logPage lacked =>
    rw [retryWork_logPage can]
    have tells := shiftLog_tells (s.onStore fun st => { st with recovering := some (.logPage lacked) })
    have store := tells.store
    exact
      { state := by rw [store]; rfl, failed := by rw [store]; rfl, recovering := by rw [store]; rfl
        recoverTag := by rw [store]; rfl, relocations := by rw [store]; rfl
        cause := logCauses_hasCause _ (by decide) (by decide)
        phase := by simp, flush := by simp }
  | dictRecord p =>
    rw [retryWork_dictRecord can]
    have store := moveDict_store p (s.onStore fun st => { st with recovering := some (.dictRecord p) })
    have kept : ∀ (st : Store) (g : Region → Region), (st.updRegion p.dict g).state = st.state ∧
        (st.updRegion p.dict g).failed = st.failed ∧ (st.updRegion p.dict g).recovering = st.recovering ∧
        (st.updRegion p.dict g).recoverTag = st.recoverTag ∧ (st.updRegion p.dict g).relocations = st.relocations :=
      fun st g => by cases p.dict <;> exact ⟨rfl, rfl, rfl, rfl, rfl⟩
    obtain ⟨state, failed, recovering, recoverTag, relocations⟩ :=
      kept { s.store with recovering := some (.dictRecord p) } (Region.appendAt (nextPageOf p))
    exact
      { state := by rw [store]; exact state, failed := by rw [store]; exact failed
        recovering := by rw [store]; exact recovering, recoverTag := by rw [store]; exact recoverTag
        relocations := by rw [store]; exact relocations, cause := rfl, phase := rfl, flush := rfl }
  | job =>
    obtain ⟨state, failed, recovering, recoverTag, relocations⟩ :=
      Store.eraseAgain_kept { s.store with recovering := some .job }
    exact ⟨state, failed, recovering, recoverTag, relocations, rfl, rfl, rfl⟩

/-! ### What a step of FAULT takes up -/

theorem takeUp_of_fault {s : State} (fault : s.store.state = .fault) :
    s.takeUp.store.inProgress = s.store.inProgress ∧ s.takeUp.store.dictWork = s.store.dictWork := by
  rw [State.takeUp, drainBegin_of_not_ready (by simp [fault])]
  have read : (startRead s).store.inProgress = s.store.inProgress ∧ (startRead s).store.dictWork = s.store.dictWork := by
    unfold startRead
    split <;> exact ⟨rfl, rfl⟩
  unfold storePump
  split
  · exact ⟨rfl, rfl⟩
  · simp only [fault]
    split
    · exact ⟨rfl, rfl⟩
    · exact read

theorem faultRaised_recoverTag (f : FailedWork) (s : State) : (faultRaised f s).store.recoverTag = s.store.recoverTag := by
  have store : (faultRaised f s).store = _ := (setCause_tells .storeFault true _).store
  rw [store]
  show (if f = .job then s.store.blankJob else s.store).recoverTag = _
  split
  · unfold Store.blankJob
    split
    · rfl
    · next d _ => cases d <;> rfl
    · rfl
  · rfl

theorem failJob_recoverTag (f : FailedWork) (s : State) : (failJob f s).store.recoverTag = s.store.recoverTag := by
  cases f <;> simp [failJob]

theorem failJob_notices_length (f : FailedWork) (s : State) :
    (failJob f s).host.notices.length ≤ s.host.notices.length + 2 := by
  cases f with
  | job =>
    have format : (completeFormat (some .storeFault) [] s).host.notices.length ≤ s.host.notices.length + 1 :=
      (completeFormat_tells _ _ _).few
    have erase : (failJob .job s).host.notices.length ≤
        (completeFormat (some .storeFault) [] s).host.notices.length + 1 := (completeErase_tells _ _).few
    omega
  | logPage lacked => exact Nat.le_add_right _ _
  | dictRecord p => exact Nat.le_add_right _ _

/-- The STORE-RECOVER whose retry fails is completed at FAULT. -/
theorem mem_enterFault_recover {f : FailedWork} {s : State} {tag : Byte} (waits : s.store.recoverTag = some tag)
    (room : s.host.notices.length < 28) :
    .completion tag 0x12 (some .storeFault) 1 true [] ∈ (enterFault f s).host.notices := by
  rw [enterFault_eq]
  have raised := faultRaised_notices_length f s
  have answered := failJob_notices_length f (faultRaised f s)
  have flushed : (completeFlush (some (flushReason (some f))) (failJob f (faultRaised f s))).host.notices.length ≤
      (failJob f (faultRaised f s)).host.notices.length + 1 := (completeFlush_tells _ _).few
  refine mem_completeRecover ?_ (by omega)
  simp [failJob_recoverTag, faultRaised_recoverTag, waits]

theorem mem_enterFault_recover_of_ne {f : FailedWork} {s : State} {tag : Byte} (other : f ≠ .job)
    (waits : s.store.recoverTag = some tag) (room : s.host.notices.length < 30) :
    .completion tag 0x12 (some .storeFault) 1 true [] ∈ (enterFault f s).host.notices := by
  rw [enterFault_eq, failJob_of_ne other]
  have raised := faultRaised_notices_length f s
  have flushed : (completeFlush (some (flushReason (some f))) (faultRaised f s)).host.notices.length ≤
      (faultRaised f s).host.notices.length + 1 := (completeFlush_tells _ _).few
  refine mem_completeRecover ?_ (by omega)
  simp [faultRaised_recoverTag, waits]

theorem enterFault_ends_recovery (f : FailedWork) (s : State) :
    (enterFault f s).store.recovering = none ∧ (enterFault f s).store.recoverTag = none := by
  by_cases job : f = .job
  · subst job
    rw [enterFault_store_job]
    exact ⟨rfl, rfl⟩
  · rw [enterFault_store_of_ne job]
    exact ⟨rfl, rfl⟩

/-! ### The request -/

theorem recovering_counted (tag : Byte) (s : State) :
    (recovering tag s.counted).store = (recovering tag s).store ∧ (recovering tag s.counted).log = s.log :=
  ⟨by rw [recovering_store, recovering_store]; rfl, recovering_log tag s.counted⟩

/-- A STORE-RECOVER that is taken in FAULT. -/
theorem exec_storeRecover_of_fault {s : State} {f : FailedWork} {tag : Byte} (taken : s.accepts) (fault : s.store.state = .fault)
    (failed : s.store.failed = some f) (calm : (retryWork f (recovering tag s.counted)).calm) :
    exec (.storeRecover tag []) s =
      .next (addReply tag .accepted .nothing (retryWork f (recovering tag s.counted))).settled := by
  show Host.Outcome.next (finishStep (takeRequest tag true false (storeRecoverRule tag) noAfter s)) = _
  rw [finishStep_request_taken taken (storeRecoverRule_of_fault (s := s.counted) fault failed tag) calm]

theorem retriable_recovering {f : FailedWork} {tag : Byte} {s : State} (can : f.retriable s) :
    f.retriable (recovering tag s.counted) := by
  obtain ⟨store, log⟩ := recovering_counted tag s
  have header : (recovering tag s.counted).store.header = s.store.header := by rw [store, recovering_store]
  have pages : (recovering tag s.counted).log.pages = s.log.pages := by rw [log]
  cases f with
  | logPage lacked => exact (canShift_congr pages header).trans can
  | dictRecord p => exact (canMove_congr header p).trans can
  | job => trivial

theorem exec_storeRecover_retries {s : State} {f : FailedWork} {tag : Byte} (taken : s.accepts) (calm : s.calm)
    (fault : s.store.state = .fault) (failed : s.store.failed = some f) (can : f.retriable s) :
    ∃ t, exec (.storeRecover tag []) s = .next t ∧
      { tag := tag, result := .accepted, after := .nothing } ∈ t.host.replyLine ∧
      (t.store.state = .formatting ↔
        f = .job ∧ ∃ h z step, s.store.job = some { kind := .format h z, step := step }) ∧
      (t.store.state = .formatting ∨ t.store.state = .ready) ∧
      t.store.failed = none ∧ t.store.recovering = some f ∧ t.store.recoverTag = some tag ∧
      (t.conds.get .storeFault).cause = false ∧ t.store.relocations = s.store.relocations ∧
      (∀ x, f = .logPage x →
        t.log.pages.map (fun q => (q.page, q.records)) = s.log.pages.map (fun q => (q.page + 1, q.records))) := by
  obtain ⟨v, v_eq⟩ : ∃ v, v = recovering tag s.counted := ⟨_, rfl⟩
  have v_store : v.store = _ := v_eq ▸ (recovering_counted tag s).1.trans (recovering_store tag s)
  have v_log : v.log = s.log := v_eq ▸ (recovering_counted tag s).2
  have v_calm : v.calm := v_eq ▸ recovering_calm (s := s.counted) calm tag
  have v_can : f.retriable v := v_eq ▸ retriable_recovering can
  have retried := retryWork_retried v_can
  have runs := exec_storeRecover_of_fault (tag := tag) taken fault failed
    (v_eq ▸ ⟨retried.phase.trans v_calm.1, retried.flush.trans v_calm.2⟩)
  rw [← v_eq] at runs
  have store := takeUp_taken (retryWork f v)
  have state : (retryWork f v).takeUp.store.state = if s.store.formatFailed then .formatting else .ready :=
    (congrArg Store.state store.eq).trans (retried.state.trans (by rw [v_store]))
  have formats : s.store.formatFailed = true ↔
      f = .job ∧ ∃ h z step, s.store.job = some { kind := .format h z, step := step } := by
    rw [Store.formatFailed_iff, failed, Option.some.injEq]
  refine ⟨_, runs, mem_settled_addReply _ _ _ _, ?_⟩
  rw [settled_addReply_store, settled_addReply_log]
  refine ⟨?_, ?_, ?_, ?_, ?_, ?_, ?_, fun x page => ?_⟩
  · rw [state, ← formats]
    cases s.store.formatFailed <;> simp
  · rw [state]
    cases s.store.formatFailed <;> simp
  · exact (congrArg Store.failed store.eq).trans (retried.failed.trans (by rw [v_store]))
  · exact (congrArg Store.recovering store.eq).trans retried.recovering
  · exact (congrArg Store.recoverTag store.eq).trans (retried.recoverTag.trans (by rw [v_store]))
  · refine (settled_addReply_hasCause _ _ _ _ _).trans (retried.cause.trans ?_)
    rw [v_eq]
    exact setCause_hasCause_same _ _ _
  · exact (congrArg Store.relocations store.eq).trans (retried.relocations.trans (by rw [v_store]))
  · subst page
    have kept := settled_log_pages (retryWork (.logPage x) v)
    rw [settled_log] at kept
    rw [kept, retryWork_logPage v_can, (shiftLog_tells _).log]
    show (v.log.pages.map _).map _ = _
    rw [v_log, List.map_map]
    rfl

/-- The work kept when there is no page for the retry. -/
theorem retryWork_stuck {f kept : FailedWork} {s : State}
    (stuck : (∃ x, f = .logPage x) ∧ canShift s = false ∧ kept = .logPage true ∨
      ∃ p, f = .dictRecord p ∧ canMove s p = false ∧ kept = f) : retryWork f s = enterFault kept s ∧ kept ≠ .job := by
  rcases stuck with ⟨⟨x, rfl⟩, stays, rfl⟩ | ⟨p, rfl, stays, rfl⟩
  · exact ⟨by simp only [retryWork, stays, Bool.false_eq_true, if_false], by simp⟩
  · exact ⟨by simp only [retryWork, stays, Bool.false_eq_true, if_false], by simp⟩

theorem exec_storeRecover_stays {s : State} {f kept : FailedWork} {tag : Byte} (taken : s.accepts) (calm : s.calm)
    (fault : s.store.state = .fault) (failed : s.store.failed = some f)
    (stuck : (∃ x, f = .logPage x) ∧ canShift s = false ∧ kept = .logPage true ∨
      ∃ p, f = .dictRecord p ∧ canMove s p = false ∧ kept = f) :
    ∃ t, exec (.storeRecover tag []) s = .next t ∧
      { tag := tag, result := .accepted, after := .nothing } ∈ t.host.replyLine ∧
      t.store.state = .fault ∧ t.store.failed = some kept ∧ t.store.recovering = none ∧ t.store.recoverTag = none ∧
      t.store.inProgress = s.store.inProgress ∧ t.store.relocations = s.store.relocations ∧
      t.store.dictWork = s.store.dictWork ∧ t.store.job = s.store.job ∧ (t.conds.get .storeFault).cause = true ∧
      t.log.pages.map (fun q => (q.page, q.records)) = s.log.pages.map (fun q => (q.page, q.records)) ∧
      (s.host.notices.length < 28 → .completion tag 0x12 (some .storeFault) 1 true [] ∈ t.host.noticeLine) := by
  obtain ⟨v, v_eq⟩ : ∃ v, v = recovering tag s.counted := ⟨_, rfl⟩
  have v_store : v.store = _ := v_eq ▸ (recovering_counted tag s).1.trans (recovering_store tag s)
  have v_log : v.log = s.log := v_eq ▸ (recovering_counted tag s).2
  have v_calm : v.calm := v_eq ▸ recovering_calm (s := s.counted) calm tag
  have v_header : v.store.header = s.store.header := by rw [v_store]
  have v_few : v.host.notices.length ≤ s.host.notices.length + 1 := v_eq ▸ (setCause_tells .storeFault false _).few
  have v_stuck : (∃ x, f = .logPage x) ∧ canShift v = false ∧ kept = .logPage true ∨
      ∃ p, f = .dictRecord p ∧ canMove v p = false ∧ kept = f := by
    rw [canShift_congr (by rw [v_log]) v_header]
    simpa only [canMove_congr v_header] using stuck
  obtain ⟨faults, not_job⟩ := retryWork_stuck v_stuck
  have fault_calm : (enterFault kept v).calm :=
    ⟨by rw [enterFault_host_phase]; exact v_calm.1, by rw [enterFault_log_flush]; exact v_calm.2⟩
  have runs := exec_storeRecover_of_fault (tag := tag) taken fault failed (by rw [← v_eq, faults]; exact fault_calm)
  rw [← v_eq, faults] at runs
  have taken_up := takeUp_taken (enterFault kept v)
  have store := enterFault_store_of_ne not_job v
  have waiting := takeUp_of_fault (enterFault_state kept v).1
  refine ⟨_, runs, mem_settled_addReply _ _ _ _, ?_⟩
  rw [settled_addReply_store, settled_addReply_log]
  refine ⟨?_, ?_, ?_, ?_, ?_, ?_, ?_, ?_, ?_, ?_, fun room => ?_⟩
  · exact (congrArg Store.state taken_up.eq).trans (enterFault_state kept v).1
  · exact (congrArg Store.failed taken_up.eq).trans (enterFault_state kept v).2
  · exact (congrArg Store.recovering taken_up.eq).trans (enterFault_ends_recovery kept v).1
  · exact (congrArg Store.recoverTag taken_up.eq).trans (enterFault_ends_recovery kept v).2
  · rw [waiting.1, store, v_store]
  · refine (congrArg Store.relocations taken_up.eq).trans ?_
    show (enterFault kept v).store.relocations = _
    rw [store, v_store]
  · rw [waiting.2, store, v_store]
  · refine (congrArg Store.job taken_up.eq).trans ?_
    show (enterFault kept v).store.job = _
    rw [store, v_store]
  · exact (settled_addReply_hasCause _ _ _ _ _).trans (enterFault_hasCause kept v)
  · have pages := settled_log_pages (enterFault kept v)
    rw [settled_log, enterFault_log_pages, v_log] at pages
    exact pages
  · have told := mem_enterFault_recover_of_ne (s := v) (tag := tag) not_job (by rw [v_store]) (by omega)
    exact mem_settled_notices (s := addReply tag .accepted .nothing (enterFault kept v)) told


/-! ### The end of the retry -/

/-- The work of a retry, as the operation that makes it and as the store keeps it. -/
def retries (w : Work) (f : FailedWork) (relocated : Bool) : Prop :=
  w = .logPage ∧ (∃ x, f = .logPage x) ∧ relocated = true ∨
    (∃ p q, w = .dictRecord p ∧ f = .dictRecord q ∧ p.relocated = true) ∨ w = .job ∧ f = .job

theorem workFailed_of_retry {w : Work} {f : FailedWork} {s : State} (retry : retries w f s.store.logRelocated) :
    ∃ kept, workFailed w s = enterFault kept s := by
  rcases retry with ⟨rfl, -, relocated⟩ | ⟨p, q, rfl, -, relocated⟩ | ⟨rfl, -⟩
  · exact ⟨.logPage false, if_pos relocated⟩
  · exact ⟨.dictRecord p, if_pos relocated⟩
  · exact ⟨.job, rfl⟩

theorem endsRetry_of_retry {w : Work} {f : FailedWork} {st : Store} (retry : retries w f st.logRelocated)
    (recovering : st.recovering = some f)
    (last : ∀ k, st.job = some k → w = .job → k.step ≠ .againHeader ∧ ∀ d, k.step ≠ .againReady d) :
    endsRetry st w = true := by
  rcases retry with ⟨rfl, ⟨x, rfl⟩, -⟩ | ⟨p, q, rfl, rfl, -⟩ | ⟨rfl, rfl⟩
  · simp only [endsRetry, recovering]
  · simp only [endsRetry, recovering]
  · simp only [endsRetry, recovering]
    cases job : st.job with
    | none => rfl
    | some k =>
      obtain ⟨not_header, not_ready⟩ := last k job rfl
      have not_again : k.step.again = false := by
        cases step : k.step with
        | againHeader => exact absurd step not_header
        | againReady d => exact absurd step (not_ready d)
        | _ => rfl
      simp [not_again]

theorem logDone_tells_few (s : State) : (logDone s).host.notices.length ≤ s.host.notices.length + 1 := by
  unfold logDone flushProgress
  split
  · exact Nat.le_add_right _ _
  · split
    · exact (completeFlush_tells _ _).few
    · exact Nat.le_add_right _ _

theorem workEffect_recoverTag (w : Work) (s : State) :
    (workEffect w s).store.recoverTag = s.store.recoverTag := by
  have region : ∀ (st : Store) d (g : Region → Region), (st.updRegion d g).recoverTag = st.recoverTag :=
    fun st d g => by cases d <;> rfl
  cases w with
  | logPage =>
    show (logDone s).store.recoverTag = _
    rw [logDone_store]
  | dictRecord p =>
    show (dictDone p s).store.recoverTag = _
    cases kept : p.discarded with
    | true => rw [dictDone_of_discarded kept]; exact region _ _ _
    | false =>
      rw [dictDone_of_kept kept]
      exact (congrArg Store.recoverTag (recordSuccess_handed p _).eq).trans (region _ _ _)
  | job =>
    show (jobDone s).store.recoverTag = _
    unfold jobDone
    split
    · rfl
    · dsimp only
      split
      · rfl
      · rfl
      · rw [eraseDone_store]; exact region _ _ _
  | abandoned => rfl

theorem workEffect_notices_length (w : Work) (s : State) :
    (workEffect w s).host.notices.length ≤ s.host.notices.length + 1 := by
  cases w with
  | logPage => exact logDone_tells_few s
  | dictRecord p =>
    show (dictDone p s).host.notices.length ≤ _
    cases kept : p.discarded with
    | true => rw [dictDone_of_discarded kept]; exact Nat.le_add_right _ _
    | false => rw [dictDone_of_kept kept]; simp
  | job =>
    show (jobDone s).host.notices.length ≤ _
    unfold jobDone
    split
    · exact Nat.le_add_right _ _
    · dsimp only
      split
      · exact Nat.le_add_right _ _
      · exact Nat.le_add_right _ _
      · exact (completeErase_tells _ _).few
  | abandoned => exact Nat.le_add_right _ _

theorem recovered_of_ended {w : Work} {f : FailedWork} {s : State} {tag : Byte} (retry : retries w f s.store.logRelocated)
    (recovering : s.store.recovering = some f) (waits : s.store.recoverTag = some tag)
    (room : s.host.notices.length < 24)
    (last : ∀ k, s.store.job = some k → w = .job → k.step ≠ .againHeader ∧ ∀ d, k.step ≠ .againReady d) :
    (workDone w s).store.recovering = none ∧ (workDone w s).store.recoverTag = none ∧
      .completion tag 0x12 none 1 true [] ∈ (workDone w s).host.notices := by
  rw [workDone_of_retry (endsRetry_of_retry retry recovering last), recovered_store]
  refine ⟨rfl, rfl, ?_⟩
  have few := workEffect_notices_length w s
  exact mem_completeRecover (s := (workEffect w s).onStore fun st => { st with recovering := none })
    ((workEffect_recoverTag w s).trans waits) (show (workEffect w s).host.notices.length < 32 by omega)

/-- A repeated erase of the retry has ended; the page program it leads to is next. -/
theorem jobDone_of_again {s : State} {k : Job} (job : s.store.job = some k)
    (again : k.step = .againHeader ∨ ∃ d, k.step = .againReady d) :
    ∃ next, jobDone s = { s with store := { s.store with job := some next } } := by
  obtain ⟨kind, step⟩ := k
  rcases again with rfl | ⟨d, rfl⟩
  · cases kind with
    | format h z => exact ⟨_, jobDone_of_format_step job rfl⟩
    | region e => exact ⟨_, jobDone_of_region_step job rfl⟩
  · cases kind with
    | format h z => exact ⟨_, jobDone_of_format_step job rfl⟩
    | region e => exact ⟨_, jobDone_of_region_step job rfl⟩

theorem endsRetry_of_again {st : Store} {k : Job} (job : st.job = some k)
    (again : k.step = .againHeader ∨ ∃ d, k.step = .againReady d) (recovering : st.recovering = some .job) :
    endsRetry st .job = false := by
  have step : k.step.again = true := by rcases again with is | ⟨d, is⟩ <;> rw [is] <;> rfl
  simp [endsRetry, recovering, job, step]

/-- Settles O34: the request by `retryWork`, the end of the retry by `enterFault` and `recovered`. -/
theorem storeRecoverRetriesTheFailedWork : Obligations.StoreRecoverRetriesTheFailedWork := by
  refine ⟨fun tag s taken calm => ⟨fun running => ?idle, fun f fault failed can => ?retries, fun f kept fault failed stuck =>
    exec_storeRecover_stays taken calm fault failed stuck⟩, fun s => ⟨canShift_iff_header s, canMove_iff_header s⟩, ?ended⟩
  case idle =>
    exact congrArg Host.Outcome.next (finishStep_request_refused taken calm (if_pos running))
  case retries =>
    exact exec_storeRecover_retries taken calm fault failed (by cases f <;> exact can)
  case ended =>
    intro op w ran timedOut error left f c tag s calm runs command recovering waits room retry
    have runs_as : exec c s = .next
        (State.settled (opEnded { op := op, work := w, ran := ran, timedOut := timedOut } error left s)) :=
      exec_opEnd calm runs (fun addr data is => by rw [command, is]) (fun b is => by rw [command, is])
    have known : w ≠ .abandoned := by
      rcases retry with ⟨rfl, -⟩ | ⟨p, q, rfl, -⟩ | ⟨rfl, -⟩ <;> simp
    obtain ⟨v, v_eq⟩ : ∃ v, v = clearOp { op := op, work := w, ran := ran, timedOut := timedOut } error left s := ⟨_, rfl⟩
    have cleared : v.store.recovering = s.store.recovering ∧ v.store.recoverTag = s.store.recoverTag ∧
        v.store.logRelocated = s.store.logRelocated ∧ v.store.job = s.store.job ∧ v.host = s.host := by
      rw [v_eq]
      cases op <;> cases error <;> cases timedOut <;> exact ⟨rfl, rfl, rfl, rfl, rfl⟩
    obtain ⟨v_recovering, v_tag, v_relocated, v_job, v_host⟩ := cleared
    have v_retry : retries w f v.store.logRelocated := by rw [v_relocated]; exact retry
    refine ⟨fun failed => ?_, fun no_error in_time last => ?_, fun no_error in_time job again some_job => ?_⟩
    · obtain ⟨kept, faults⟩ := workFailed_of_retry v_retry
      have ended : exec c s = .next (enterFault kept v).settled := by
        rw [runs_as, opEnded_of_failed failed known, ← v_eq, ← faults]
      have taken_up := takeUp_taken (enterFault kept v)
      refine ⟨_, ended, ?_, ?_, ?_, ?_⟩
      · rw [settled_store]
        exact (congrArg Store.state taken_up.eq).trans (enterFault_state kept v).1
      · rw [settled_store]
        exact (congrArg Store.recovering taken_up.eq).trans (enterFault_ends_recovery kept v).1
      · rw [settled_store]
        exact (congrArg Store.recoverTag taken_up.eq).trans (enterFault_ends_recovery kept v).2
      · exact mem_settled_notices (mem_enterFault_recover (v_tag.trans waits) (by rw [v_host]; omega))
    · subst no_error in_time
      have ended : exec c s = .next (workDone w v).settled := by rw [runs_as, opEnded_of_done rfl known, ← v_eq]
      have taken_up := takeUp_taken (workDone w v)
      obtain ⟨is_over, answered, told⟩ := recovered_of_ended v_retry (v_recovering.trans recovering) (v_tag.trans waits)
        (by rw [v_host]; omega) (fun k is => last k (v_job.symm.trans is))
      refine ⟨_, ended, ?_, ?_, mem_settled_notices told⟩
      · rw [settled_store]
        exact (congrArg Store.recovering taken_up.eq).trans is_over
      · rw [settled_store]
        exact (congrArg Store.recoverTag taken_up.eq).trans answered
    · subst no_error in_time job
      obtain ⟨k, is⟩ := Option.ne_none_iff_exists'.mp some_job
      have is_job : f = .job := by
        rcases retry with ⟨page, -⟩ | ⟨p, q, record, -⟩ | ⟨-, is_job⟩
        · exact absurd page (by simp)
        · exact absurd record (by simp)
        · exact is_job
      subst is_job
      obtain ⟨next, steps⟩ := jobDone_of_again (s := v) (v_job.trans is) (again k is)
      have done : workDone .job v = _ :=
        (workDone_of_first (endsRetry_of_again (v_job.trans is) (again k is) (v_recovering.trans recovering))).trans steps
      have ended : exec c s = .next (workDone .job v).settled := by rw [runs_as, opEnded_of_done rfl known, ← v_eq]
      rw [done] at ended
      have taken_up := takeUp_taken { v with store := { v.store with job := some next } }
      refine ⟨_, ended, ?_, ?_⟩
      · rw [settled_store]
        exact (congrArg Store.recovering taken_up.eq).trans (v_recovering.trans recovering)
      · rw [settled_store]
        exact (congrArg Store.recoverTag taken_up.eq).trans (v_tag.trans waits)

end Sys2Proof.Machine
end

section
/-! What the finish of a stroke and the end of lookups leave of the store and of the log writer's reports (R87, R99, R105,
R137). -/

namespace Sys2Proof.Machine

/-- The store but for LOG-APPEND, which alone a record that opens a page moves. -/
def Store.butAppend (st : Store) : Store := { st with log := { st.log with append := none } }

/-- From `s` to `t` the store is kept but for LOG-APPEND, and so are the session, a LOG-FLUSH that waits and, unless the
session is CLOSING, the flush; a flush of RESTART is not asked for in the NORMAL phase. -/
structure StoreKept (s t : State) : Prop where
  store : t.store.butAppend = s.store.butAppend
  flushTag : t.log.flushTag = s.log.flushTag
  session : t.script.session = s.script.session
  flush : s.script.session ≠ .closing → t.log.flush = s.log.flush
  phase : t.host.phase = s.host.phase
  restart : s.host.phase = .normal → s.log.flush ≠ .restart → t.log.flush ≠ .restart

theorem StoreKept.refl (s : State) : StoreKept s s :=
  ⟨rfl, rfl, rfl, fun _ => rfl, rfl, fun _ none => none⟩

theorem StoreKept.trans {s t u : State} (first : StoreKept s t) (second : StoreKept t u) : StoreKept s u where
  store := second.store.trans first.store
  flushTag := second.flushTag.trans first.flushTag
  session := second.session.trans first.session
  flush := fun open_ => (second.flush (by rw [first.session]; exact open_)).trans (first.flush open_)
  phase := second.phase.trans first.phase
  restart := fun normal none => second.restart (first.phase.trans normal) (first.restart normal none)

theorem StoreKept.after {s t u : State} (second : StoreKept t u) (first : StoreKept s t) : StoreKept s u :=
  first.trans second

theorem StoreKept.field {α : Type} {s t : State} (kept : StoreKept s t) (g : Store → α)
    (blind : ∀ st, g (Store.butAppend st) = g st) : g t.store = g s.store :=
  (blind t.store).symm.trans ((congrArg g kept.store).trans (blind s.store))

theorem StoreKept.of_same {s t : State} (store : t.store = s.store) (log : t.log = s.log)
    (session : t.script.session = s.script.session) (phase : t.host.phase = s.host.phase) : StoreKept s t :=
  ⟨congrArg Store.butAppend store, congrArg LogWriter.flushTag log, session, fun _ => congrArg LogWriter.flush log, phase,
    fun _ none => (congrArg LogWriter.flush log).trans_ne none⟩

theorem StoreKept.onTrans (f : Translator → Translator) (s : State) : StoreKept s (s.onTrans f) := .of_same rfl rfl rfl rfl

theorem StoreKept.onDict (f : Dictionary → Dictionary) (s : State) : StoreKept s (s.onDict f) := .of_same rfl rfl rfl rfl

theorem StoreKept.stamped (s : State) : StoreKept s s.stamped := .of_same rfl rfl rfl rfl

theorem Tells.storeKept {n : Nat} {s t : State} (tells : Tells n s t) : StoreKept s t :=
  .of_same tells.store tells.log (by rw [tells.kept]) tells.phase

theorem StoreKept.foldl {α : Type} {g : State → α → State} (step : ∀ s a, StoreKept s (g s a)) (l : List α) (s : State) :
    StoreKept s (l.foldl g s) := by
  induction l generalizing s with
  | nil => exact .refl s
  | cons a l ih => exact (step s a).trans (ih _)

/-! ### Records -/

theorem offerRecord_storeKept (rec : Bytes) (s : State) : StoreKept s (offerRecord rec s).1 := by
  unfold offerRecord
  split
  · exact .refl s
  split
  · exact ⟨rfl, rfl, rfl, fun _ => rfl, rfl, fun _ none => none⟩
  split
  · exact .refl s
  · dsimp only
    exact (logCauses_tells _).storeKept.after ⟨rfl, rfl, rfl, fun _ => rfl, rfl, fun _ none => none⟩

theorem offerOther_storeKept (rec : Bytes) (s : State) : StoreKept s (offerOther rec s) := by
  unfold offerOther
  dsimp only
  split
  · exact offerRecord_storeKept rec s
  · exact (offerRecord_storeKept rec s).trans ⟨rfl, rfl, rfl, fun _ => rfl, rfl, fun _ none => none⟩

theorem floorChanged_storeKept (cause : FloorCause) (dropped : Nat) (s : State) :
    StoreKept s (floorChanged cause dropped s) := by
  have announced : StoreKept s (announceFloor cause dropped s) :=
    (offerOther_storeKept _ _).after ((offerNotice_tells _ s.stamped).storeKept.after (.of_same rfl rfl rfl rfl))
  unfold floorChanged floorVacantCause
  split
  · exact announced.trans (setCause_tells _ _ _).storeKept
  · exact (setCause_tells _ _ _).storeKept

theorem cleanTest_storeKept (s : State) : StoreKept s (cleanTest s) := by
  unfold cleanTest
  (repeat' split)
  · exact (floorChanged_storeKept _ _ _).after (.of_same rfl rfl rfl rfl)
  all_goals exact .refl s

theorem insertNote_storeKept (n : Note) (s : State) : StoreKept s (insertNote n s) := by
  unfold insertNote
  dsimp only
  have created : StoreKept s (createUnit (noteUnit n s.trans.base s.stamp) s.stamped) :=
    .of_same (by simp) (by simp) (by simp) (by simp)
  exact (StoreKept.onTrans _ _).after ((offerOther_storeKept _ _).after created)

theorem insertNotes_storeKept (s : State) : StoreKept s (insertNotes s) := by
  unfold insertNotes
  split
  · refine (StoreKept.onTrans _ _).after (StoreKept.foldl (fun t n => ?_) s.trans.notes s)
    exact (complete_tells _ _ _ _ _).storeKept.after (insertNote_storeKept n t)
  · exact .refl s

/-! ### The finish of a stroke -/

theorem finishPending_storeKept (s : State) : StoreKept s (finishPending s) :=
  .of_same (by simp) (by simp) (by simp) (by simp)

theorem reconcile_storeKept (new : List NewUnit) (s : State) : StoreKept s (reconcile new s) :=
  .of_same (by simp) (by simp) (by simp) (by simp)

theorem releaseFloor_storeKept (s : State) : StoreKept s (releaseFloor s) :=
  (floorChanged_storeKept _ _ _).after (.of_same rfl rfl rfl rfl)

/-- The report of the close asks for the flush, in a session that is CLOSING. -/
theorem reportResolved_storeKept (s : State) : StoreKept s (reportResolved s) := by
  unfold reportResolved
  split
  next reports =>
    have closing : s.script.session = .closing := by
      simp only [Bool.and_eq_true, decide_eq_true_eq] at reports
      exact reports.1.2
    have firmed : StoreKept s (firmAll (s.onScript fun t => { t with resolved := true })) :=
      .of_same (by simp [firmAll]) (by simp [firmAll]) (by simp [firmAll]) (by simp [firmAll])
    have offered : StoreKept s (offerClose s.windingDown (releaseFloor (firmAll
        (s.onScript fun t => { t with resolved := true })))) :=
      (offerOther_storeKept _ _).after ((StoreKept.stamped _).after ((releaseFloor_storeKept _).after firmed))
    refine ⟨offered.store, offered.flushTag, offered.session, fun open_ => absurd closing open_, offered.phase, ?_⟩
    intro normal _
    have not_winding : (s.onScript fun t => { t with resolved := true }).windingDown = false := by
      simp [State.windingDown, normal]
    show (if _ then Flush.restart else Flush.close) ≠ Flush.restart
    rw [not_winding]
    decide
  · exact .refl s

theorem reportFinish_storeKept (s : State) : StoreKept s (reportFinish s) :=
  (reportResolved_storeKept _).after ((insertNotes_storeKept _).after (cleanTest_storeKept s))

theorem finishStroke_storeKept (s : State) : StoreKept s (finishStroke s) := by
  unfold finishStroke
  split
  · exact .refl s
  · exact (reportFinish_storeKept _).after ((finishPending_storeKept _).after
      ((StoreKept.onTrans _ _).after (reconcile_storeKept _ s)))

theorem finishIfDone_storeKept (s : State) : StoreKept s (finishIfDone s) := by
  unfold finishIfDone
  split
  · exact .refl s
  · exact finishStroke_storeKept s

/-! ### The end of lookups by R87 -/

theorem deliver_ended_storeKept (l : Lookup) (s : State) : StoreKept s (deliver l true s) := by
  unfold deliver
  split
  · exact (finishIfDone_storeKept _).after (.of_same rfl rfl rfl rfl)
  · exact (StoreKept.onDict _ _).after (completeIf_tells _ _ _ _ s).storeKept
  · exact .refl s

theorem endLookups_storeKept (ls : List Lookup) (s : State) : StoreKept s (endLookups ls s) := by
  induction ls generalizing s with
  | nil => exact .refl s
  | cons l ls ih =>
    exact (ih _).after ((deliver_ended_storeKept _ _).after (.of_same rfl rfl rfl rfl))

theorem deliver_ended_lookups (l : Lookup) (s : State) :
    (deliver l true s).dict = { s.dict with lookupTag := (deliver l true s).dict.lookupTag } := by
  unfold deliver
  split
  · simp [addRunResult]
  · simp
  · rfl

/-- The end of lookups leaves the dictionaries but for the lookups and their counts. -/
theorem endLookups_dict (ls : List Lookup) (s : State) :
    (endLookups ls s).dict = { s.dict with
      lookups := s.dict.lookups.filter (fun x => ls.all (fun l => decide (x.client ≠ l.client)))
      lookupsDone := (endLookups ls s).dict.lookupsDone
      lookupTag := (endLookups ls s).dict.lookupTag } := by
  induction ls generalizing s with
  | nil => simp [endLookups]
  | cons l ls ih =>
    rw [endLookups, ih, completeLookup, deliver_ended_lookups]
    simp [countLookup, Dictionary.without, noneLookup, List.filter_filter, Bool.and_comm]

theorem endLookupsOf_lookups {p : Lookup → Bool} {l : Lookup} {s : State} (left : l ∈ (endLookupsOf p s).dict.lookups) :
    p l = false := by
  rw [endLookupsOf, endLookups_dict] at left
  obtain ⟨held, others⟩ := List.mem_filter.mp left
  by_contra picked
  have self := List.all_eq_true.mp others l (List.mem_filter.mpr ⟨held, by simpa using picked⟩)
  simp at self

end Sys2Proof.Machine
end

section
/-! FORMAT-STORE and ERASE-REGION (R69, R71, R99, R100). -/

namespace Sys2Proof.Machine

/-! ### FORMAT-STORE -/

theorem be2At_two_be (n k : Nat) (l : Bytes) : be2At (be 2 n ++ l) (k + 2) = be2At l k := by
  rw [Nat.add_comm]
  exact be2At_skip (be 2 n) l k

/-- A formatting store takes up neither a read nor a record. -/
theorem takeUp_of_formatting {s : State} (formatting : s.store.state = .formatting) :
    s.takeUp.dict = s.dict ∧ s.takeUp.log = s.log ∧ s.takeUp.store.waiting = s.store.waiting ∧
      s.takeUp.store.dictWork = s.store.dictWork := by
  have starts : ∀ j, (startJob j s).dict = s.dict ∧ (startJob j s).log = s.log ∧
      (startJob j s).store.waiting = s.store.waiting ∧ (startJob j s).store.dictWork = s.store.dictWork := by
    intro j
    cases op : jobOp s j <;> simp [startJob, Store.begin, op]
  rw [State.takeUp, drainBegin_of_not_ready (by simp [formatting])]
  unfold storePump
  simp only [formatting]
  split
  · exact ⟨rfl, rfl, rfl, rfl⟩
  · split
    · exact ⟨rfl, rfl, rfl, rfl⟩
    · exact ⟨rfl, rfl, rfl, rfl⟩
    · split
      · exact starts _
      · exact ⟨rfl, rfl, rfl, rfl⟩

theorem failLogRead_leaves (s : State) :
    (failLogRead s).store = { s.store with logRead := none } ∧ (failLogRead s).log = s.log ∧
      (failLogRead s).script = s.script ∧ (failLogRead s).dict = s.dict := by
  unfold failLogRead
  split
  next none => exact ⟨by rw [← none], rfl, rfl, rfl⟩
  · simp

theorem settled_addReply_dict (tag : Byte) (r : Result) (after : AfterSent) (s : State) :
    (addReply tag r after s).settled.dict = s.takeUp.dict := by
  rw [settled_addReply]
  simp [addReply]

theorem settled_addReply_flash (tag : Byte) (r : Result) (after : AfterSent) (s : State) :
    (addReply tag r after s).settled.flash = s.flash := by
  rw [settled_addReply, takeUp_eq]
  simp [addReply]

/-- The clearing of the three dictionaries. -/
theorem formatDicts_dict (s : State) :
    (formatDicts s).dict.staging = [] ∧ (formatDicts s).dict.lookups = [] ∧
      ∀ d, ((formatDicts s).dict.get d).directory = [] := by
  have ends : (formatDicts s).dict.lookups = [] :=
    List.eq_nil_iff_forall_not_mem.mpr fun l left => absurd (endLookupsOf_lookups left) (by simp)
  refine ⟨?_, ends, fun d => ?_⟩
  · rw [formatDicts, endLookupsOf, endLookups_dict]
    refine List.eq_nil_iff_forall_not_mem.mpr fun o left => ?_
    cases is : o.dict <;> simp [Dictionary.clear, Dictionary.upd, is] at left
  · rw [formatDicts, endLookupsOf, endLookups_dict]
    cases d <;> simp [Dictionary.clear, Dictionary.upd, Dictionary.get]

theorem endLookupsOf_storeKept {p : Lookup → Bool} (s : State) :
    StoreKept (s.onStore (dropReads fun c => (s.dict.lookups.filter p).any (fun l => decide (l.client = c))))
      (endLookupsOf p s) := endLookups_storeKept _ _

section
variable (tag : Byte) (p : Bytes) (s : State)

theorem takeFormat_store : (takeFormat tag p s).store = Store.format (formatHeader p) (formatTiming p) tag
    { (formatDicts (failLogRead s)).store with eraseTag := none, recoverTag := none } := by
  simp [takeFormat]

theorem takeFormat_log : (takeFormat tag p s).log =
    { (formatDicts (failLogRead s)).log with flushTag := none, pages := [] } := by
  simp [takeFormat]

theorem takeFormat_dict : (takeFormat tag p s).dict = (formatDicts (failLogRead s)).dict := by
  simp [takeFormat]

theorem takeFormat_hasCause : (takeFormat tag p s).hasCause .storeFault = false :=
  (logCauses_hasCause _ (by decide) (by decide)).trans (setCause_hasCause_same _ _ _)

theorem takeFormat_logRead : (takeFormat tag p s).store.logRead = none := by
  have kept : (formatDicts (failLogRead s)).store.logRead = (failLogRead s).store.logRead := by
    have ends := endLookupsOf_storeKept (p := fun _ => true)
      ((failLogRead s).onDict fun x => ((x.clear .j).clear .pa).clear .pb)
    exact ends.field Store.logRead fun _ => rfl
  rw [takeFormat_store]
  exact kept.trans (congrArg Store.logRead (failLogRead_leaves s).1)

theorem takeFormat_calm {s : State} (calm : s.calm) (closed : s.script.session = .closed) : (takeFormat tag p s).calm := by
  refine ⟨by simpa [takeFormat] using calm.1, ?_⟩
  have ends := endLookupsOf_storeKept (p := fun _ => true)
    ((failLogRead s).onDict fun x => ((x.clear .j).clear .pa).clear .pb)
  have no_flush : (formatDicts (failLogRead s)).log.flush = .none := by
    refine (ends.flush ?_).trans ((congrArg LogWriter.flush (failLogRead_leaves s).2.1).trans calm.2)
    rw [onStore_script, onDict_script, (failLogRead_leaves s).2.2.1, closed]
    decide
  rw [takeFormat_log]
  exact no_flush

end

/-- The payload of FORMAT-STORE (paragraph 11.4). -/
def formatPayload (capacity log j pa pb programMax eraseMax latency interval : Nat) : Bytes :=
  be 2 capacity ++ be 2 log ++ be 2 j ++ be 2 pa ++ be 2 pb ++ be 2 programMax ++ be 2 eraseMax ++ be 2 latency ++
    be 2 interval

section
variable {capacity log j pa pb programMax eraseMax latency interval : Nat} (capacity_lt : capacity < 65536)
  (log_lt : log < 65536) (j_lt : j < 65536) (pa_lt : pa < 65536) (pb_lt : pb < 65536) (program_lt : programMax < 65536)
  (erase_lt : eraseMax < 65536) (latency_lt : latency < 65536) (interval_lt : interval < 65536)
include capacity_lt log_lt j_lt pa_lt pb_lt

theorem formatHeader_payload : formatHeader (formatPayload capacity log j pa pb programMax eraseMax latency interval) =
    { capacity := capacity, log := ⟨1, log⟩, j := ⟨1 + log, j⟩, pa := ⟨1 + log + j, pa⟩, pb := ⟨1 + log + j + pa, pb⟩ } := by
  simp [formatHeader, formatPayload, List.append_assoc, be2At_two_be, be2At_here, *]

omit capacity_lt log_lt j_lt pa_lt pb_lt
include program_lt erase_lt latency_lt interval_lt

theorem formatTiming_payload : formatTiming (formatPayload capacity log j pa pb programMax eraseMax latency interval) =
    { programMax := programMax, eraseMax := eraseMax, suspendLatency := latency, resumeInterval := interval } := by
  have last : be2At (be 2 interval) 0 = interval := by simpa using be2At_here interval [] interval_lt
  simp [formatTiming, formatPayload, List.append_assoc, be2At_two_be, be2At_here, *]

end

/-- The capacity, the lengths and the timing values that FORMAT-STORE accepts. -/
theorem formatAccepts_iff (hd : Header) (z : Timing) :
    (formatLengths hd && z.valid) = true ↔
      256 ≤ hd.capacity ∧ hd.capacity ≤ 4096 ∧ 16 ≤ hd.log.len ∧ 4 ≤ hd.j.len ∧ 4 ≤ hd.pa.len ∧ 4 ≤ hd.pb.len ∧
        1 + hd.log.len + hd.j.len + hd.pa.len + hd.pb.len ≤ hd.capacity ∧ 100 ≤ z.programMax ∧ z.programMax ≤ 10000 ∧
        10 ≤ z.eraseMax ∧ z.eraseMax ≤ 10000 ∧ 1 ≤ z.suspendLatency ∧ z.suspendLatency ≤ 1000 ∧
        z.resumeInterval ≤ 10000 := by
  simp only [formatLengths, Timing.valid, Bool.and_eq_true, decide_eq_true_eq, and_assoc]

theorem formatRule_of_refusal {tag : Byte} {p : Bytes} {s : State} {r : Reason} (refused : formatRefusal p s = some r) :
    formatRule tag p s = (s, .refused r) := by simp only [formatRule, refused]

theorem formatRefusal_of_mounted {p : Bytes} {s : State} (closed : s.script.session = .closed)
    (mounted : s.store.state = .unformatted ∨ s.store.state = .ready ∨ s.store.state = .fault) :
    formatRefusal p s =
      if (formatLengths (formatHeader p) && (formatTiming p).valid) = true then none else some .badValue := by
  have not_in : s.inSession = false := by simp [State.inSession, closed]
  unfold formatRefusal
  rcases mounted with state | state | state <;> simp only [not_in, state, Bool.false_eq_true, if_false]

/-- Settles O35: the refusals in their order, and the taken format field by field. -/
theorem formatStoreTakesTheMemory : Obligations.FormatStoreTakesTheMemory := by
  intro tag capacity log j pa pb programMax eraseMax latency interval s taken calm capacity_lt log_lt j_lt pa_lt pb_lt
    program_lt erase_lt latency_lt interval_lt payload good
  have header_is : formatHeader payload = _ := formatHeader_payload capacity_lt log_lt j_lt pa_lt pb_lt
  have timing_is : formatTiming payload = _ := formatTiming_payload program_lt erase_lt latency_lt interval_lt
  have refuses : ∀ r, formatRefusal payload s.counted = some r →
      exec (.formatStore tag payload) s = .next (s.replyAndTakeUp tag (.refused r)) := fun r refused =>
    congrArg Host.Outcome.next (finishStep_request_refused taken calm (formatRule_of_refusal refused))
  have store_kept : s.counted.store = s.store := rfl
  refine ⟨fun in_session => refuses _ ?_, fun closed => ⟨fun unmounted => refuses _ ?_, fun formatting => refuses _ ?_,
    fun mounted => ?_⟩⟩
  · have inside : s.counted.inSession = true := decide_eq_true in_session
    rw [formatRefusal, if_pos inside]
  · have outside : s.counted.inSession = false := by simp [State.inSession, State.counted, closed]
    rcases unmounted with state | state <;>
      simp only [formatRefusal, outside, store_kept, state, Bool.false_eq_true, if_false]
  · have outside : s.counted.inSession = false := by simp [State.inSession, State.counted, closed]
    simp only [formatRefusal, outside, store_kept, formatting, Bool.false_eq_true, if_false]
  · have tested := formatRefusal_of_mounted (p := payload) (s := s.counted) closed mounted
    have accepts := formatAccepts_iff (formatHeader payload) (formatTiming payload)
    rw [header_is, timing_is] at accepts
    rw [header_is, timing_is] at tested
    refine ⟨fun bad => refuses _ (tested.trans (if_neg fun ok => bad (accepts.mp ok))), fun ok => ?_⟩
    have takes : formatRule tag payload s.counted = (takeFormat tag payload s.counted, .accepted) := by
      simp only [formatRule, tested.trans (if_pos (accepts.mpr ok))]
    have runs : exec (.formatStore tag payload) s = .next (addReply tag .accepted .nothing (takeFormat tag payload s.counted)).settled :=
      congrArg Host.Outcome.next (finishStep_request_taken taken takes (takeFormat_calm tag payload calm closed))
    have store := takeFormat_store tag payload s.counted
    rw [header_is, timing_is] at store
    have formatting : (takeFormat tag payload s.counted).store.state = .formatting := by rw [store]; rfl
    have taken_up := takeUp_taken (takeFormat tag payload s.counted)
    obtain ⟨same_dict, same_log, same_waiting, same_work⟩ := takeUp_of_formatting formatting
    obtain ⟨staging, lookups, directories⟩ := formatDicts_dict (failLogRead s.counted)
    have log := takeFormat_log tag payload s.counted
    have dict := takeFormat_dict tag payload s.counted
    refine ⟨_, runs, mem_settled_addReply _ _ _ _, ?_⟩
    have same := taken_up.eq
    rw [store] at same
    have flash : (takeFormat tag payload s.counted).flash = s.counted.flash := by simp [takeFormat]
    have no_read := takeFormat_logRead tag payload s.counted
    rw [store] at no_read
    rw [settled_addReply_log, settled_addReply_dict, settled_addReply_flash, settled_addReply_store, same_waiting, same_work,
      same_log, same_dict, log, dict, staging, lookups, store]
    refine ⟨congrArg Store.state same, congrArg Store.formatTag same, congrArg Store.timing same,
      congrArg Store.log same, congrArg Store.j same, congrArg Store.pa same,
      congrArg Store.pb same, congrArg Store.job same, rfl, rfl, congrArg Store.failed same,
      congrArg Store.recovering same, (congrArg Store.logRead same).trans no_read,
      congrArg Store.eraseTag same, congrArg Store.recoverTag same, rfl, rfl, rfl,
      rfl, directories .j, directories .pa, directories .pb, ?_, ?_⟩
    · exact (settled_addReply_hasCause _ _ _ _ _).trans (takeFormat_hasCause tag payload s.counted)
    · exact flash

end Sys2Proof.Machine
end

section
/-! The end of a step in the NORMAL phase, and ERASE-REGION (R71, R99). -/

namespace Sys2Proof.Machine

/-! ### The end of a step in the NORMAL phase -/

theorem flushReport_of_normal {s : State} (no_restart : s.log.flush ≠ .restart) :
    flushReport s = s ∨ ∃ failed, flushReport s = closeDone failed s := by
  unfold flushReport
  split
  · split
    · exact .inl rfl
    · exact .inr ⟨_, rfl⟩
    next asks => exact absurd asks no_restart
  · exact .inl rfl

theorem closeDone_tells (failed : Option Reason) (s : State) :
    Tells 1
      { s with log := { s.log with flush := .none }, script := { s.script with session := .closed, closeTag := none } }
      (closeDone failed s) := by
  have tells := completeIf_tells s.script.closeTag 0x08 failed
    (closeData ((s.onLog fun w => { w with flush := .none }).onScript fun t => { t with session := .closed }))
    ((s.onLog fun w => { w with flush := .none }).onScript fun t => { t with session := .closed })
  refine ⟨?_, tells.stamps, tells.notices, tells.few, tells.link⟩
  refine (congrArg (fun t : State => t.onScript fun x => { x with closeTag := none }) tells.kept).trans ?_
  rfl

theorem finishStep_of_normal {s : State} (normal : s.host.phase = .normal) (no_restart : s.log.flush ≠ .restart) :
    finishStep s = chooseFrame (flushReport s.takeUp) := by
  have phase : (flushReport s.takeUp).host.phase = .normal := by
    rcases flushReport_of_normal (s := s.takeUp) (by rw [takeUp_log_flush]; exact no_restart) with same | ⟨failed, done⟩
    · rw [same, takeUp_host, normal]
    · rw [done]
      simp [takeUp_host, normal]
  exact transmit_of_goes_on (.inl (phase.trans_ne (by decide)))

theorem flushReport_replyLine {s : State} (no_restart : s.log.flush ≠ .restart) :
    (flushReport s).host.replyLine = s.host.replyLine := by
  rcases flushReport_of_normal no_restart with same | ⟨failed, done⟩
  · rw [same]
  · rw [done]
    exact (closeDone_tells failed s).replyLine

/-! ### What the end of a step leaves of a dictionary that has been cleared -/

/-- Nothing staged, no lookup, no record program and no stall concerns a dictionary. -/
structure State.clearOf (d : Dict) (s : State) : Prop where
  staging : ∀ o ∈ s.dict.staging, o.dict ≠ d
  lookups : ∀ l ∈ s.dict.lookups, l.dict ≠ d
  stalled : (s.dict.get d).stalled = false
  dictWork : ∀ w ∈ s.store.dictWork, w.dict ≠ d

theorem State.clearOf.of_same {d : Dict} {s t : State} (clear : s.clearOf d) (dict : t.dict = s.dict)
    (work : ∀ w ∈ t.store.dictWork, w ∈ s.store.dictWork) : t.clearOf d := by
  refine ⟨?_, ?_, ?_, fun w within => clear.dictWork w (work w within)⟩ <;> rw [dict]
  · exact clear.staging
  · exact clear.lookups
  · exact clear.stalled

theorem Dictionary.get_upd_of_ne (x : Dictionary) {d e : Dict} (f : DictRec → DictRec) (other : e ≠ d) :
    (x.upd d f).get e = x.get e := by
  cases d <;> cases e <;> simp_all [Dictionary.upd, Dictionary.get]

theorem handRecord_clearOf {d : Dict} {o : StagedOp} {s : State} (clear : s.clearOf d) (other : o.dict ≠ d) :
    (handRecord o s).clearOf d := by
  unfold handRecord
  dsimp only
  split
  · refine ⟨clear.staging, clear.lookups, clear.stalled, fun w within => ?_⟩
    rcases List.mem_append.mp within with before | handed
    · exact clear.dictWork w before
    · obtain rfl := List.mem_singleton.mp handed
      exact other
  · refine ⟨?_, ?_, ?_, clear.dictWork⟩
    · show ∀ x ∈ (Dictionary.upd s.dict o.dict _).staging, _
      rw [Dictionary.upd_staging]
      exact clear.staging
    · show ∀ l ∈ (Dictionary.upd s.dict o.dict _).lookups, _
      have same : ∀ f, (Dictionary.upd s.dict o.dict f).lookups = s.dict.lookups := by intro f; cases o.dict <;> rfl
      rw [same]
      exact clear.lookups
    · exact (congrArg DictRec.stalled (Dictionary.get_upd_of_ne s.dict _ (Ne.symm other))).trans clear.stalled

theorem active_mem {x : Dictionary} {o : StagedOp} (active : x.active = some o) : o ∈ x.staging :=
  List.mem_of_find?_eq_some active

theorem drainStep_clearOf {d : Dict} {s : State} (clear : s.clearOf d) : (drainStep s).clearOf d := by
  unfold drainStep
  split
  · exact clear
  next o active =>
    have other : o.dict ≠ d := clear.staging o (active_mem active)
    split
    · split
      next l head scanned =>
        have dict : l.dict = o.dict := by
          rw [show l = _ from (congrArg Prod.fst scanned).symm]
          rfl
        refine ⟨clear.staging, fun x within => ?_, clear.stalled, clear.dictWork⟩
        rcases List.mem_append.mp within with before | started
        · exact clear.lookups x before
        · obtain rfl := List.mem_singleton.mp started
          rw [dict]
          exact other
      · exact handRecord_clearOf (s := countLookup s) ⟨clear.staging, clear.lookups, clear.stalled, clear.dictWork⟩ other
    · exact handRecord_clearOf clear other

theorem mem_changeFirst {p : StagedOp → Bool} {f : StagedOp → StagedOp} {l : List StagedOp} {o : StagedOp}
    (within : o ∈ changeFirst p f l) : o ∈ l ∨ ∃ x ∈ l, o = f x := by
  induction l with
  | nil => exact .inl within
  | cons x l ih =>
    unfold changeFirst at within
    split at within
    · rcases List.mem_cons.mp within with here | later
      · exact .inr ⟨x, List.mem_cons_self, here⟩
      · exact .inl (List.mem_cons_of_mem _ later)
    · rcases List.mem_cons.mp within with here | later
      · exact .inl (List.mem_cons.mpr (.inl here))
      · rcases ih later with kept | ⟨y, inside, is⟩
        · exact .inl (List.mem_cons_of_mem _ kept)
        · exact .inr ⟨y, List.mem_cons_of_mem _ inside, is⟩

theorem drainNext_clearOf {d : Dict} {s : State} (clear : s.clearOf d) : (drainNext s).clearOf d := by
  unfold drainNext
  split
  · exact clear
  · split
    · refine drainStep_clearOf ⟨fun o within => ?_, clear.lookups, ?_, clear.dictWork⟩
      · rcases mem_changeFirst within with kept | ⟨x, inside, rfl⟩
        · exact clear.staging o kept
        · exact clear.staging x inside
      · have stalled := clear.stalled
        cases d <;> exact stalled
    · exact clear

theorem storePump_clearOf {d : Dict} {s : State} (clear : s.clearOf d) : (storePump s).clearOf d := by
  have begins : ∀ (op : FlashOp) (w : Work) (st : Store), (st.begin op w).dictWork = st.dictWork := by
    intro op w st
    cases op <;> rfl
  have reads : (startRead s).clearOf d := by
    unfold startRead
    split
    · exact clear
    · exact clear.of_same rfl fun _ within => within
  have logs : ∀ p, (startLog p s).clearOf d := fun p =>
    clear.of_same rfl fun w within => by
      have same : (startLog p s).store.dictWork = s.store.dictWork := begins _ _ _
      exact same ▸ within
  have jobs : ∀ j, (startJob j s).clearOf d := fun j =>
    clear.of_same rfl fun w within => by
      have same : (startJob j s).store.dictWork = s.store.dictWork := begins _ _ _
      exact same ▸ within
  have records : ∀ p, (startDict p s).clearOf d := fun p =>
    clear.of_same rfl fun w within => by
      have same : (startDict p s).store.dictWork = s.store.dictWork.erase p := begins _ _ _
      exact List.mem_of_mem_erase (same ▸ within)
  have resumes : (s.onStore Store.resume).clearOf d := clear.of_same rfl fun _ within => within
  have suspends : ∀ t, (s.onStore fun st => { st with suspendAt := t }).clearOf d :=
    fun t => clear.of_same rfl fun _ within => within
  have whileSuspended : ∀ r, (pumpSuspended r s).clearOf d := by
    intro r
    unfold pumpSuspended
    dsimp only
    generalize (match r.op with | .erase _ => true | .program .. => false) = erasing
    (repeat' split) <;> simp only [reads, logs, records, resumes]
  unfold storePump pumpIdle pumpRunning
  (repeat' split) <;> simp only [clear, reads, logs, jobs, records, resumes, suspends, whileSuspended]

theorem takeUp_clearOf {d : Dict} {s : State} (clear : s.clearOf d) : s.takeUp.clearOf d :=
  storePump_clearOf (drainNext_clearOf (drainNext_clearOf (drainNext_clearOf clear)))

/-! ### ERASE-REGION -/

theorem dictOfCode_eq_none {n : Nat} (outside : n = 0 ∨ 3 < n) : dictOfCode n = none := by
  rcases outside with rfl | above
  · rfl
  · obtain ⟨m, rfl⟩ := Nat.exists_eq_add_of_lt above
    rw [show 3 + m + 1 = m + 4 from by omega]
    rfl

theorem eraseRule_of_refusal {tag : Byte} {p : Bytes} {s : State} {r : Reason} (refused : eraseRefusal p s = some r) :
    eraseRule tag p s = (s, .refused r) := by simp only [eraseRule, refused]

theorem eraseRefusal_of_ready {p : Bytes} {s : State} {d : Dict} (code : dictOfCode (byteAt p 0) = some d)
    (ready : s.store.state = .ready) (no_job : s.store.job = none) (outside : s.script.session = .closed) :
    eraseRefusal p s = none := by
  have not_in : s.inSession = false := by simp [State.inSession, outside]
  simp only [eraseRefusal, code, ready, no_job, not_in]
  rfl

theorem eraseRefusal_in_session {p : Bytes} {s : State} {d : Dict} (code : dictOfCode (byteAt p 0) = some d)
    (ready : s.store.state = .ready) (no_job : s.store.job = none) (inside : s.script.session ≠ .closed) :
    (d = .j → eraseRefusal p s = some .sessionOpen) ∧
      ∀ q, d = personal q → eraseRefusal p s = if (s.posRec q).state = .off then none else some .regionState := by
  have within : s.inSession = true := decide_eq_true inside
  refine ⟨fun is_j => ?_, fun q is_personal => ?_⟩
  · subst is_j
    simp only [eraseRefusal, code, ready, no_job, within]
    rfl
  · subst is_personal
    simp only [eraseRefusal, code, ready, no_job, within]
    cases q <;> rfl

/-- The store that the taken erase leaves to the end of the lookups. -/
def erasing (tag : Byte) (d : Dict) (s : State) : State :=
  let t := s.onStore (Store.eraseRegion d (jobSpan s (.region d) d).start tag)
  if s.store.recoversFor d then completeRecover (some .busy) t else t

theorem erasing_store (tag : Byte) (d : Dict) (s : State) : ∃ waits,
    (erasing tag d s).store =
      { s.store.eraseRegion d (jobSpan s (.region d) d).start tag with recoverTag := waits } := by
  unfold erasing
  dsimp only
  split
  · exact ⟨none, completeRecover_store _ _⟩
  · exact ⟨_, rfl⟩

theorem erasing_leaves (tag : Byte) (d : Dict) (s : State) :
    (erasing tag d s).dict = s.dict ∧ (erasing tag d s).log = s.log ∧ (erasing tag d s).host.phase = s.host.phase ∧
      (erasing tag d s).flash = s.flash := by
  unfold erasing
  dsimp only
  split <;> simp

theorem takeErase_eq (tag : Byte) (d : Dict) (s : State) : takeErase tag d s = eraseDict d (erasing tag d s) := rfl

theorem endLookups_get (ls : List Lookup) (s : State) (d : Dict) :
    (endLookups ls s).dict.get d = s.dict.get d := by
  rw [endLookups_dict]
  cases d <;> rfl

section
variable (tag : Byte) (d : Dict) (s : State)

/-- What the taken erase leaves of the store but for reads, LOG-APPEND and the wait for STORE-RECOVER. -/
theorem takeErase_field {α : Type} (g : Store → α) (blind : ∀ st, g (Store.butAppend st) = g st)
    (without_reads : ∀ p st, g (dropReads p st) = g st) (untagged : ∀ st t, g { st with recoverTag := t } = g st) :
    g (takeErase tag d s).store = g (s.store.eraseRegion d (jobSpan s (.region d) d).start tag) := by
  obtain ⟨waits, erased⟩ := erasing_store tag d s
  have ends := endLookupsOf_storeKept (p := fun l => decide (l.dict = d)) ((erasing tag d s).onDict (Dictionary.clear d))
  refine (ends.field g blind).trans ((without_reads _ _).trans ?_)
  rw [onDict_store, erased]
  exact untagged _ _

theorem takeErase_flush (normal : s.host.phase = .normal) (none : s.log.flush = .none) :
    (takeErase tag d s).host.phase = .normal ∧ (takeErase tag d s).log.flush ≠ .restart := by
  obtain ⟨-, log, phase, -⟩ := erasing_leaves tag d s
  have ends := endLookupsOf_storeKept (p := fun l => decide (l.dict = d)) ((erasing tag d s).onDict (Dictionary.clear d))
  refine ⟨ends.phase.trans (phase.trans normal), ends.restart (phase.trans normal) ?_⟩
  have no_flush : (erasing tag d s).log.flush = .none := by rw [log, none]
  exact no_flush.trans_ne (by decide)

theorem takeErase_dict : (takeErase tag d s).clearOf d ∧ ((takeErase tag d s).dict.get d).directory = [] := by
  have dict : (takeErase tag d s).dict.get d = { directory := [], stalled := false } := by
    rw [takeErase_eq, eraseDict, endLookupsOf, endLookups_get]
    cases d <;> rfl
  refine ⟨⟨?_, ?_, by rw [dict], ?_⟩, by rw [dict]⟩
  · rw [takeErase_eq, eraseDict, endLookupsOf, endLookups_dict]
    intro o within
    have kept : o ∈ (erasing tag d s).dict.staging.filter (fun o => decide (o.dict ≠ d)) := by
      cases d <;> exact within
    exact of_decide_eq_true (List.mem_filter.mp kept).2
  · intro l within
    exact of_decide_eq_false (endLookupsOf_lookups within)
  · rw [takeErase_field tag d s Store.dictWork (fun _ => rfl) (fun _ _ => rfl) (fun _ _ => rfl)]
    intro w within
    have kept : w ∈ s.store.dictWork.filter (fun p => decide (p.dict ≠ d)) := by
      cases d <;> exact within
    exact of_decide_eq_true (List.mem_filter.mp kept).2

end

/-- A request that is taken in the NORMAL phase and may have a flush of the close asked for. -/
theorem finishStep_request_normal {s u : State} {tag : Byte} {r : Result} {rule : State → State × Result}
    (taken : s.accepts) (acts : rule s.counted = (u, r)) (normal : u.host.phase = .normal)
    (no_restart : u.log.flush ≠ .restart) :
    finishStep (takeRequest tag true false rule noAfter s) =
      chooseFrame (flushReport (addReply tag r .nothing u).takeUp) := by
  rw [takeRequest_taken _ _ _ _ _ taken, acts]
  exact finishStep_of_normal normal no_restart

theorem addReply_takeUp (tag : Byte) (r : Result) (after : AfterSent) (s : State) :
    (addReply tag r after s).takeUp = addReply tag r after s.takeUp := takeUp_onHost _ s rfl

theorem mem_flushReport_addReply {tag : Byte} {r : Result} {after : AfterSent} {s : State}
    (no_restart : s.log.flush ≠ .restart) :
    { tag := tag, result := r, after := after } ∈ (chooseFrame (flushReport (addReply tag r after s).takeUp)).host.replyLine := by
  rw [chooseFrame_replyLine, flushReport_replyLine (by rw [takeUp_log_flush]; exact no_restart), addReply_takeUp]
  exact List.mem_append_right _ (List.mem_append_right _ (List.mem_singleton_self _))

/-- Settles O36: the refusals in their order, and the taken erase field by field. -/
theorem eraseRegionClearsTheDictionary : Obligations.EraseRegionClearsTheDictionary := by
  intro tag region s taken calm
  have refuses : ∀ r, eraseRefusal [region] s.counted = some r →
      exec (.eraseRegion tag [region]) s = .next (s.replyAndTakeUp tag (.refused r)) := fun r refused =>
    congrArg Host.Outcome.next (finishStep_request_refused taken calm (eraseRule_of_refusal refused))
  have store_kept : s.counted.store = s.store := rfl
  refine ⟨fun outside => refuses _ ?_, fun d code => ⟨fun unmounted => refuses _ ?_, fun state => refuses _ ?_,
    fun state => refuses _ ?_, fun busy => refuses _ ?_, fun ready no_job => ⟨fun inside is_j => refuses _ ?_,
    fun p inside is_personal not_off => refuses _ ?_, fun h header free => ?_⟩⟩⟩
  · have none : dictOfCode (byteAt [region] 0) = none := dictOfCode_eq_none outside
    simp only [eraseRefusal, none]
  · have code' : dictOfCode (byteAt [region] 0) = some d := code
    rcases unmounted with state | state <;> simp only [eraseRefusal, code', store_kept, state]
  · have code' : dictOfCode (byteAt [region] 0) = some d := code
    simp only [eraseRefusal, code', store_kept, state]
  · have code' : dictOfCode (byteAt [region] 0) = some d := code
    simp only [eraseRefusal, code', store_kept, state]
  · have code' : dictOfCode (byteAt [region] 0) = some d := code
    rcases busy with state | ⟨state, some_job⟩
    · simp only [eraseRefusal, code', store_kept, state]
    · simp only [eraseRefusal, code', store_kept, state, Option.isSome_iff_ne_none.mpr some_job, if_true]
  · exact (eraseRefusal_in_session (p := [region]) (s := s.counted) code ready no_job inside).1 is_j
  · exact ((eraseRefusal_in_session (p := [region]) (s := s.counted) code ready no_job inside).2 p is_personal).trans (if_neg not_off)
  · have accepted : eraseRefusal [region] s.counted = none := by
      by_cases closed : s.script.session = .closed
      · exact eraseRefusal_of_ready (s := s.counted) code ready no_job closed
      · obtain ⟨p, is_personal, off⟩ := free.resolve_left closed
        exact ((eraseRefusal_in_session (p := [region]) (s := s.counted) code ready no_job closed).2 p is_personal).trans (if_pos off)
    have code' : dictOfCode (byteAt [region] 0) = some d := code
    have takes : eraseRule tag [region] s.counted = (takeErase tag d s.counted, .accepted) := by
      simp only [eraseRule, accepted, code', Option.getD_some]
    obtain ⟨normal, no_restart⟩ := takeErase_flush tag d s.counted calm.1 calm.2
    have runs : exec (.eraseRegion tag [region]) s = .next (chooseFrame (flushReport
        (addReply tag .accepted .nothing (takeErase tag d s.counted)).takeUp)) :=
      congrArg Host.Outcome.next (finishStep_request_normal taken takes normal no_restart)
    obtain ⟨clear, directory⟩ := takeErase_dict tag d s.counted
    have clear_up := takeUp_clearOf clear
    have taken_up := takeUp_taken (takeErase tag d s.counted)
    have store : (chooseFrame (flushReport (addReply tag .accepted .nothing (takeErase tag d s.counted)).takeUp)).store =
        (takeErase tag d s.counted).takeUp.store := by
      rw [addReply_takeUp]
      simp [addReply]
    have dict : (chooseFrame (flushReport (addReply tag .accepted .nothing (takeErase tag d s.counted)).takeUp)).dict =
        (takeErase tag d s.counted).takeUp.dict := by
      rw [addReply_takeUp]
      simp [addReply]
    refine ⟨_, runs, mem_flushReport_addReply no_restart, ?_⟩
    rw [store, dict]
    refine ⟨?_, ?_, ?_, ?_, clear_up.stalled, clear_up.staging, clear_up.lookups, clear_up.dictWork, ?_⟩
    · rw [taken_up.region, takeErase_field tag d s.counted (Store.region · d) (fun st => by cases d <;> rfl)
        (fun _ st => by cases d <;> rfl) (fun st t => by cases d <;> rfl)]
      cases d <;> rfl
    · refine (congrArg Store.eraseTag taken_up.eq).trans ?_
      exact takeErase_field tag d s.counted Store.eraseTag (fun _ => rfl) (fun _ _ => rfl) (fun _ _ => rfl)
    · refine (congrArg Store.job taken_up.eq).trans ?_
      refine (takeErase_field tag d s.counted Store.job (fun _ => rfl) (fun _ _ => rfl) (fun _ _ => rfl)).trans ?_
      simp only [Store.eraseRegion, jobSpan, store_kept, header]
    · have directories := congrArg (fun x => x.2.1 d) (takeUp_dict_tally (takeErase tag d s.counted))
      exact directories.trans directory
    · have flash := (erasing_leaves tag d s.counted).2.2.2
      have kept : (takeErase tag d s.counted).takeUp.flash = s.flash := by
        rw [takeUp_eq, takeErase_eq, (eraseDict_frame _ _).2.2.2.1, flash]
        rfl
      rw [addReply_takeUp]
      simp [addReply, kept]

end Sys2Proof.Machine
end

section
/-! LOG-READ (R77): the slots of buffered pages, the wait for a read, the result. -/

namespace Sys2Proof.Machine

/-! ### The pages of a LOG-READ, one after another -/

/-- A page of the log region has a buffer page. -/
def State.buffers (s : State) (k : Nat) : Prop := ∃ page ∈ s.log.pages, page.page = k / 16

theorem bufferedPage_isSome_iff (s : State) (k : Nat) : (bufferedPage s (k / 16)).isSome = true ↔ s.buffers k := by
  simp [bufferedPage, State.buffers, List.find?_isSome]

/-- The slots from `first` on, as they stand. -/
def slotsNow (s : State) (first n : Nat) : List Bytes := (List.range n).map fun i => slotNow s (first + i)

theorem slotsNow_length (s : State) (first n : Nat) : (slotsNow s first n).length = n := by simp [slotsNow]

theorem slotsNow_add (s : State) (first m n : Nat) :
    slotsNow s first (m + n) = slotsNow s first m ++ slotsNow s (first + m) n := by
  simp [slotsNow, List.range_add, Function.comp_def, Nat.add_assoc]

theorem takeSlots_eq (s : State) (k n : Nat) : takeSlots s k n = slotsNow s k (min n (16 - k % 16)) := rfl

/-- A LOG-READ that holds the slots up to `m`. -/
def LogReading.upTo (s : State) (q : LogReading) (m : Nat) : LogReading :=
  { q with slots := q.slots ++ slotsNow s (q.index + q.slots.length) (m - q.slots.length) }

theorem LogReading.upTo_self (s : State) (q : LogReading) : q.upTo s q.slots.length = q := by
  simp [LogReading.upTo, slotsNow]

theorem LogReading.upTo_length {s : State} {q : LogReading} {m : Nat} (le : q.slots.length ≤ m) :
    (q.upTo s m).slots.length = m := by
  simp only [LogReading.upTo, List.length_append, slotsNow_length]
  omega

theorem LogReading.upTo_upTo {s : State} {q : LogReading} {l m : Nat} (le : q.slots.length ≤ l) (le' : l ≤ m) :
    (q.upTo s l).upTo s m = q.upTo s m := by
  have len := LogReading.upTo_length (s := s) le
  have split : m - q.slots.length = (l - q.slots.length) + (m - l) := by omega
  have first : q.index + q.slots.length + (l - q.slots.length) = q.index + l := by omega
  unfold LogReading.upTo at *
  dsimp only at *
  rw [len, split, slotsNow_add, first, List.append_assoc]

/-- How far the slots of one page reach. -/
def LogReading.pageEnd (q : LogReading) : Nat :=
  q.slots.length + min (q.count - q.slots.length) (16 - (q.index + q.slots.length) % 16)

theorem LogReading.takePage (s : State) (q : LogReading) :
    { q with slots := q.slots ++ takeSlots s (q.index + q.slots.length) (q.count - q.slots.length) } =
      q.upTo s q.pageEnd := by
  rw [takeSlots_eq, LogReading.upTo, LogReading.pageEnd, Nat.add_sub_cancel_left]

theorem logReadOn_of_buffered {fuel : Nat} {q : LogReading} {s : State} (more : q.slots.length < q.count)
    (buffered : s.buffers (q.index + q.slots.length)) :
    logReadOn (fuel + 1) q s = logReadOn fuel (q.upTo s q.pageEnd) s := by
  obtain ⟨page, found⟩ := Option.isSome_iff_exists.mp ((bufferedPage_isSome_iff s _).mpr buffered)
  have found' : bufferedPage s ((q.index + q.slots.length) / Config.pageRecords) = some page := found
  rw [logReadOn, if_neg (by omega)]
  simp only [found', LogReading.takePage]

theorem logReadOn_of_not_buffered {fuel : Nat} {q : LogReading} {s : State} (more : q.slots.length < q.count)
    (not_buffered : ¬ s.buffers (q.index + q.slots.length)) :
    logReadOn (fuel + 1) q s =
      s.onStore fun st => { st with logRead := some q, waiting := st.waiting ++ [.logRead] } := by
  have none : bufferedPage s ((q.index + q.slots.length) / Config.pageRecords) = none :=
    Option.not_isSome_iff_eq_none.mp (mt (bufferedPage_isSome_iff s _).mp not_buffered)
  rw [logReadOn, if_neg (by omega)]
  simp only [none]

/-- The slots of one page reach past those held, and no further than the next page's first. -/
theorem LogReading.pageEnd_bounds {q : LogReading} (more : q.slots.length < q.count) :
    q.slots.length < q.pageEnd ∧ q.pageEnd ≤ q.count ∧
      (q.pageEnd = q.count ∨ (q.index + q.pageEnd) % 16 = 0) ∧
      ∀ m, q.slots.length < m → m < q.count → (q.index + m) % 16 = 0 → q.pageEnd ≤ m := by
  unfold LogReading.pageEnd
  refine ⟨by omega, by omega, by omega, fun m _ _ _ => by omega⟩

/-- A LOG-READ waits at the first page that is not buffered. -/
theorem logReadOn_waits {s : State} {m : Nat} (fuel : Nat) : ∀ {q : LogReading}, q.slots.length ≤ m → m < q.count →
    (m = q.slots.length ∨ (q.index + m) % 16 = 0) → (∀ i, q.slots.length ≤ i → i < m → s.buffers (q.index + i)) →
    ¬ s.buffers (q.index + m) → q.count < fuel + q.slots.length →
    logReadOn fuel q s =
      s.onStore fun st => { st with logRead := some (q.upTo s m), waiting := st.waiting ++ [.logRead] } := by
  induction fuel with
  | zero => intro q le lt _ _ _ enough; omega
  | succ fuel ih =>
    intro q le lt at_page before here enough
    by_cases is : m = q.slots.length
    · subst is
      rw [logReadOn_of_not_buffered lt here, LogReading.upTo_self]
    · have below : q.slots.length < m := by omega
      have aligned := at_page.resolve_left is
      obtain ⟨past, within, -, reaches⟩ := LogReading.pageEnd_bounds (q := q) (by omega)
      have reach := reaches m below lt aligned
      have len := LogReading.upTo_length (s := s) past.le
      rw [logReadOn_of_buffered (by omega) (before _ (le_refl _) below),
        ih (q := q.upTo s q.pageEnd) (by rw [len]; exact reach) lt (.inr aligned)
          (fun i ge lt => before i (by rw [len] at ge; omega) lt) here (by rw [len]; show q.count < _; omega),
        LogReading.upTo_upTo past.le reach]

/-- A LOG-READ whose pages are all buffered is done. -/
theorem logReadOn_completes {s : State} (fuel : Nat) : ∀ {q : LogReading}, q.slots.length ≤ q.count →
    (∀ i, q.slots.length ≤ i → i < q.count → s.buffers (q.index + i)) → q.count < fuel + q.slots.length →
    logReadOn fuel q s = logReadDone (q.upTo s q.count) s := by
  induction fuel with
  | zero => intro q le _ enough; omega
  | succ fuel ih =>
    intro q le buffered enough
    by_cases full : q.count ≤ q.slots.length
    · have is : q.count = q.slots.length := by omega
      rw [logReadOn, if_pos full, is, LogReading.upTo_self]
    · obtain ⟨past, within, -, -⟩ := LogReading.pageEnd_bounds (q := q) (by omega)
      have len := LogReading.upTo_length (s := s) past.le
      rw [logReadOn_of_buffered (by omega) (buffered _ (le_refl _) (by omega)),
        ih (q := q.upTo s q.pageEnd) (by rw [len]; exact within)
          (fun i ge lt => buffered i (by rw [len] at ge; omega) lt) (by rw [len]; show q.count < _; omega)]
      exact congrArg (logReadDone · s) (LogReading.upTo_upTo past.le within)

/-! ### The request and the end of a read -/

theorem logReadDone_tells (q : LogReading) (s : State) :
    Tells 1 (s.onStore fun st => { st with logRead := none }) (logReadDone q s) := complete_tells _ _ _ _ _

theorem mem_logReadDone {q : LogReading} {s : State} (room : s.host.notices.length < 32) :
    .completion q.tag 0x13 none 1 true (be 4 q.index ++ byte q.slots.length :: q.slots.flatten) ∈
      (logReadDone q s).host.notices := mem_complete room

theorem logReadRule_of_refusal {tag : Byte} {p : Bytes} {s : State} {r : Reason} (refused : logReadRefusal p s = some r) :
    logReadRule tag p s = (s, .refused r) := by simp only [logReadRule, refused]

section
variable {index : Nat} {count : Byte} (index_lt : index < 4294967296) {s : State}
include index_lt

theorem logReadRefusal_payload : logReadRefusal (be 4 index ++ [count]) s =
    if count.toNat < 1 ∨ 60 < count.toNat then some .badValue
    else if s.store.header.isSome = true ∧ s.store.logPages * 16 ≤ index then some .range
    else if s.store.state = .unmounted ∨ s.store.state = .mounting then some .notMounted
    else if s.store.state = .unformatted then some .unformatted
    else if s.store.state = .formatting ∨ s.store.logRead ≠ none then some .busy
    else if s.store.log.state = .ready then none else some .regionState := by
  have count_field : byteAt (be 4 index ++ [count]) 4 = count.toNat := byteAt_skip (be 4 index) [count] 0
  simp only [logReadRefusal, be4At_here index [count] index_lt, count_field, Config.pageRecords]
  cases s.store.state <;> cases s.store.logRead <;> simp

theorem logReadRule_payload {tag : Byte} (accepted : logReadRefusal (be 4 index ++ [count]) s = none) :
    logReadRule tag (be 4 index ++ [count]) s =
      (logReadOn (min count.toNat (s.store.logPages * 16 - index) + 1)
        { tag := tag, index := index, count := min count.toNat (s.store.logPages * 16 - index), slots := [] } s,
        .accepted) := by
  have count_field : byteAt (be 4 index ++ [count]) 4 = count.toNat := byteAt_skip (be 4 index) [count] 0
  simp only [logReadRule, accepted, be4At_here index [count] index_lt, count_field, Config.pageRecords]

end

theorem logPages_of_header {st : Store} {h : Header} (header : st.header = some h) :
    st.logPages * 16 = h.log.len * 4096 := by
  simp only [Store.logPages, header]
  omega

theorem exec_readComplete {s : State} {r : ReadFor} (reading : s.store.reading = some r) :
    exec .readComplete s = .next (finishStep (readEnded r s)) := by
  show execReadComplete s = _
  simp only [execReadComplete, reading]

/-- Settles O33: the refusals in their order, the request page by page, and the end of the read it waited for. -/
theorem logReadAnswersItsSlots : Obligations.LogReadAnswersItsSlots := by
  refine ⟨?without, ?held, ?ended⟩
  case without =>
    intro tag count index s taken calm index_lt no_header read
    have refuses : ∀ r, logReadRefusal (be 4 index ++ [count]) s.counted = some r →
        exec read s = .next (s.replyAndTakeUp tag (.refused r)) := fun r refused =>
      congrArg Host.Outcome.next (finishStep_request_refused taken calm (logReadRule_of_refusal refused))
    have no_copy : s.counted.store.header = none := no_header
    have store_kept : s.counted.store = s.store := rfl
    have tested := logReadRefusal_payload (count := count) index_lt (s := s.counted)
    rw [no_copy] at tested
    refine ⟨fun bad => refuses _ (tested.trans (if_pos bad)), fun least most => ⟨fun state => refuses _ ?_,
      fun state => refuses _ ?_, fun state => refuses _ ?_⟩⟩ <;>
      rw [tested, if_neg (by omega)] <;> simp [store_kept, state]
  case held =>
    intro tag count index h s taken calm index_lt header payload total buffered held
    have refuses : ∀ r, logReadRefusal payload s.counted = some r →
        exec (.logRead tag payload) s = .next (s.replyAndTakeUp tag (.refused r)) := fun r refused =>
      congrArg Host.Outcome.next (finishStep_request_refused taken calm (logReadRule_of_refusal refused))
    have store_kept : s.counted.store = s.store := rfl
    have slots : s.counted.store.logPages * 16 = h.log.len * 4096 := logPages_of_header header
    have tested := logReadRefusal_payload (count := count) index_lt (s := s.counted)
    rw [slots, store_kept, header] at tested
    refine ⟨fun bad => refuses _ (tested.trans (if_pos bad)), fun least most => ?_⟩
    have in_count : ¬ (count.toNat < 1 ∨ 60 < count.toNat) := by omega
    rw [if_neg in_count] at tested
    refine ⟨fun past => refuses _ (tested.trans (if_pos ⟨rfl, past⟩)), fun inside => ?_⟩
    rw [if_neg (fun past => absurd past.2 (by omega))] at tested
    refine ⟨fun state => refuses _ (tested.trans (if_pos state)), fun state => refuses _ ?_, fun busy => refuses _ ?_,
      fun mounted no_read => ⟨fun not_ready => refuses _ ?_, fun ready => ?_⟩⟩
    · rw [tested]
      simp [state]
    · rw [tested]
      rcases busy with state | ⟨state | state, other⟩ <;> simp [*]
    · rw [tested]
      rcases mounted with state | state <;> simp [*]
    · have accepted : logReadRefusal payload s.counted = none := by
        rw [tested]
        rcases mounted with state | state <;> simp [*]
      let asked : LogReading := { tag := tag, index := index, count := total, slots := [] }
      have acts : logReadRule tag payload s.counted = (logReadOn (total + 1) asked s.counted, .accepted) := by
        rw [logReadRule_payload index_lt accepted, slots]
      have held_now : ∀ k, buffered k → held k = slotNow s.counted k := by
        intro k within
        obtain ⟨page, found⟩ := Option.isSome_iff_exists.mp ((bufferedPage_isSome_iff s k).mpr within)
        have found' : s.log.pages.find? (fun x => decide (x.page = k / 16)) = some page := found
        have now : bufferedPage s.counted (k / Config.pageRecords) = some page := found
        simp only [held, found', slotNow, now]
      have slots_are : ∀ m, (∀ i, i < m → buffered (index + i)) →
          (List.range m).map (fun i => held (index + i)) = slotsNow s.counted index m := fun m within =>
        List.map_congr_left fun i inside => held_now _ (within i (List.mem_range.mp inside))
      refine ⟨fun m lt at_page before here => ?waits, fun all room => ?done⟩
      case waits =>
        rw [logReadOn_waits (s := s.counted) (q := asked) _ (Nat.zero_le m) lt at_page (fun i _ lt => before i lt) here
          (Nat.lt_succ_self _)] at acts
        rw [slots_are m before]
        exact congrArg Host.Outcome.next (finishStep_request_counted taken acts rfl calm.2)
      case done =>
        rw [logReadOn_completes (s := s.counted) (q := asked) _ (Nat.zero_le total) (fun i _ lt => all i lt)
          (Nat.lt_succ_self _)] at acts
        have told := logReadDone_tells (asked.upTo s.counted total) s.counted
        have runs : exec (.logRead tag payload) s = .next
            (addReply tag .accepted .nothing (logReadDone (asked.upTo s.counted total) s.counted)).settled :=
          congrArg Host.Outcome.next (finishStep_request_taken taken acts
            ⟨told.phase.trans calm.1, (congrArg LogWriter.flush told.log).trans calm.2⟩)
        refine ⟨_, runs, mem_settled_addReply _ _ _ _, mem_settled_notices ?_, ?_⟩
        · have queued := mem_logReadDone (q := asked.upTo s.counted total) (s := s.counted) room
          rw [LogReading.upTo_length (q := asked) (Nat.zero_le total)] at queued
          rw [slots_are total all]
          exact queued
        · rw [settled_addReply_store]
          exact (congrArg Store.logRead (takeUp_taken _).eq).trans (congrArg Store.logRead told.store)
  case ended =>
    intro q h s calm reading logRead header more first taken buffered slot upTo
    have runs : ∀ u, readEnded .logRead s = u → u.calm → exec .readComplete s = .next u.settled := fun u is quiet => by
      rw [exec_readComplete reading, is, finishStep_calm u quiet]
    let v : State := s.onStore fun st => { st with reading := none }
    have page : readEnded .logRead s = logReadOn (q.count + 1) (q.upTo v q.pageEnd) v := by
      show logReadPage v = _
      have asked : v.store.logRead = some q := logRead
      simp only [logReadPage, asked, LogReading.takePage]
    have slot_now : slot = slotNow v := by
      funext k
      have base : v.logBase = h.log.start * 65536 := by
        have copy : v.store.header = some h := header
        simp only [State.logBase, copy]
      simp only [slot, slotNow, base, bufferedPage] <;> rfl
    obtain ⟨past, within, -, -⟩ := LogReading.pageEnd_bounds more
    have len := LogReading.upTo_length (s := v) past.le
    refine ⟨fun m ge lt aligned before here => ?waits, fun all => ?done⟩
    case waits =>
      rw [logReadOn_waits (s := v) (m := m) (q := q.upTo v q.pageEnd) _ (by rw [len]; exact ge) lt (.inr aligned)
        (fun i low high => before i (by rw [len] at low; exact low) high) here (by rw [len]; show q.count < _; omega),
        LogReading.upTo_upTo past.le ge] at page
      rw [runs _ page calm]
      simp only [upTo, slot_now]
      rfl
    case done =>
      rw [logReadOn_completes (s := v) (q := q.upTo v q.pageEnd) _ (by rw [len]; exact within)
        (fun i low high => all i (by rw [len] at low; exact low) high) (by rw [len]; show q.count < _; omega)] at page
      have is : (q.upTo v q.pageEnd).upTo v (q.upTo v q.pageEnd).count = q.upTo v q.count :=
        LogReading.upTo_upTo past.le within
      rw [is] at page
      have told := logReadDone_tells (q.upTo v q.count) v
      refine ⟨_, runs _ page ⟨told.phase.trans calm.1, (congrArg LogWriter.flush told.log).trans calm.2⟩, ?_, fun room => ?_⟩
      · exact told.kept
      · have queued := mem_logReadDone (q := q.upTo v q.count) (s := v) room
        rw [LogReading.upTo_length more.le] at queued
        simp only [upTo, slot_now]
        exact queued

end Sys2Proof.Machine
end

section
/-! ENTRY-LOOKUP: the request, and one step of the walk (R85, R86, R88). -/

namespace Sys2Proof.Machine

/-! ### The outline of a payload -/

theorem byteAt_byte_length {α : Type} {l : List α} (short : l.length < 256) (rest : Bytes) :
    byteAt (byte l.length :: rest) 0 = l.length := by
  simpa [byteAt_cons_zero, byte_eq, BitVec.toNat_ofNat] using Nat.mod_eq_of_lt short

section
variable {dict : Byte} {o : List Nat} (short : o.length < 256) (strokes : ∀ k ∈ o, k < 16777216)

/-- The payload of ENTRY-DELETE and ENTRY-LOOKUP (paragraph 11.4). -/
def outlinePayload (dict : Byte) (o : List Nat) : Bytes := dict :: byte o.length :: beStrokes o

include short in
theorem byteAt_one_outlinePayload : byteAt (outlinePayload dict o) 1 = o.length :=
  byteAt_byte_length short (beStrokes o)

include short in
theorem lenOutline_payload : lenOutline (outlinePayload dict o) = true := by
  rw [lenOutline, byteAt_one_outlinePayload short, lenIs]
  simp [outlinePayload]
  omega

include strokes in
theorem outlineAt_payload : outlineAt (outlinePayload dict o) 2 o.length = o := by
  have whole := ofStrokes_beStrokes o [] strokes
  rwa [List.append_nil] at whole

theorem strokes_bad_iff (o : List Nat) : o.all strokeOk = false ↔ ∃ k ∈ o, k = 0 ∨ 8388607 < k := by
  simp only [List.all_eq_false, strokeOk, decide_eq_true_eq, strokeMax]
  refine exists_congr fun k => and_congr_right fun _ => ?_
  omega

include short strokes

theorem outlineValue_of_bad (bad : dict.toNat = 0 ∨ 3 < dict.toNat ∨ o = [] ∨ ∃ k ∈ o, k = 0 ∨ 8388607 < k) :
    outlineValue (outlinePayload dict o) = some .badValue := by
  unfold outlineValue
  split
  · rfl
  next d code =>
    have named : ¬ (dict.toNat = 0 ∨ 3 < dict.toNat) := fun outside => by
      have none : dictOfCode (byteAt (outlinePayload dict o) 0) = none := dictOfCode_eq_none outside
      rw [none] at code
      exact absurd code (by simp)
    dsimp only
    rw [byteAt_one_outlinePayload short, outlineAt_payload strokes]
    refine if_pos ?_
    rw [strokes_bad_iff, List.length_eq_zero_iff]
    exact (bad.resolve_left fun zero => named (.inl zero)).resolve_left fun above => named (.inr above)

theorem outlineValue_of_good {d : Dict} (code : dictOfCode dict.toNat = some d) (nonempty : o ≠ [])
    (good : ∀ k ∈ o, 1 ≤ k ∧ k ≤ 8388607) :
    outlineValue (outlinePayload dict o) = if 8 < o.length then some .tooLong else none := by
  have code' : dictOfCode (byteAt (outlinePayload dict o) 0) = some d := code
  have fine : ¬ (o.length = 0 ∨ o.all strokeOk = false) := by
    rw [strokes_bad_iff, List.length_eq_zero_iff]
    rintro (empty | ⟨k, within, bad⟩)
    · exact nonempty empty
    · have := good k within
      omega
  simp only [outlineValue, code', byteAt_one_outlinePayload short, outlineAt_payload strokes, if_neg fine,
    Config.outlineMax]

end

/-! ### The request -/

theorem stagedLonger_eq (ops : List StagedOp) (d : Dict) (o : List Nat) :
    stagedLonger ops d o = ops.any (fun x =>
      decide (x.dict = d) && x.text.isSome && decide (o.length < x.outline.length) &&
        decide (x.outline.take o.length = o)) := by
  simp only [stagedLonger, properPfx, Bool.and_assoc]

theorem lookupData_noneLookup (x : Dictionary) (d : Dict) (o : List Nat) :
    lookupData x (noneLookup .request d o) true =
      [0#8, 2#8, 0#8] ++ be 4 (bucketOf o) ++ be 4 ((x.get d).countOf (bucketOf o)) ++ be 4 0 := rfl

/-- The drain leaves the request that waits for its lookup. -/
theorem handRecord_lookupTag (o : StagedOp) (s : State) : (handRecord o s).dict.lookupTag = s.dict.lookupTag := by
  unfold handRecord
  dsimp only
  split
  · rfl
  · rw [onDict_dict, Dictionary.stall]
    cases o.dict <;> rfl

theorem drainNext_lookupTag (s : State) : (drainNext s).dict.lookupTag = s.dict.lookupTag := by
  have step : ∀ t : State, (drainStep t).dict.lookupTag = t.dict.lookupTag := by
    intro t
    unfold drainStep
    split
    · rfl
    · split
      · split
        · rfl
        · exact handRecord_lookupTag _ _
      · exact handRecord_lookupTag _ _
  unfold drainNext
  split
  · rfl
  · split
    · exact step _
    · rfl

theorem storePump_dict (s : State) : (storePump s).dict = s.dict := by simp

theorem takeUp_lookupTag (s : State) : s.takeUp.dict.lookupTag = s.dict.lookupTag := by
  rw [State.takeUp, storePump_dict, drainBegin, drainNext_lookupTag, drainNext_lookupTag, drainNext_lookupTag]

/-- A lookup of the host that ends hands its result to the request. -/
theorem deliver_request_tells {l : Lookup} (client : l.client = .request) (ended : Bool) (s : State) :
    Tells 1 (s.onDict fun x => { x with lookupTag := none }) (deliver l ended s) := by
  have told := completeIf_tells s.dict.lookupTag 0x0F none (lookupData s.dict l ended) s
  have is : deliver l ended s = (completeIf s.dict.lookupTag 0x0F none (lookupData s.dict l ended) s).onDict
      fun x => { x with lookupTag := none } := by simp only [deliver, client]
  rw [is]
  refine ⟨?_, told.stamps, told.notices, told.few, told.link⟩
  exact congrArg (fun t : State => t.onDict fun x => { x with lookupTag := none }) told.kept

theorem mem_deliver_request {l : Lookup} (client : l.client = .request) {s : State} {tag : Byte}
    (waits : s.dict.lookupTag = some tag) (room : s.host.notices.length < 32) (ended : Bool) :
    .completion tag 0x0F none 1 true (lookupData s.dict l ended) ∈ (deliver l ended s).host.notices := by
  simp only [deliver, client]
  exact mem_completeIf waits room

theorem lookupRefusal_eq (s : State) : lookupRefusal s =
    if s.store.state = .unmounted ∨ s.store.state = .mounting then some .notMounted
    else if s.store.state = .unformatted then some .unformatted
    else if s.dict.lookupTag = none then none else some .busy := by
  unfold lookupRefusal
  cases s.store.state <;> cases s.dict.lookupTag <;> rfl

section
variable {tag dict : Byte} {o : List Nat} {d : Dict} {s : State} (short : o.length < 256)
  (strokes : ∀ k ∈ o, k < 16777216) (code : dictOfCode dict.toNat = some d)
  (value : outlineValue (outlinePayload dict o) = none)

theorem entryLookupRule_of_value {p : Bytes} {r : Reason} (bad : outlineValue p = some r) :
    entryLookupRule tag p s = (s, .refused r) := by simp only [entryLookupRule, bad]

include value

theorem entryLookupRule_of_refusal {r : Reason} (refused : lookupRefusal s = some r) :
    entryLookupRule tag (outlinePayload dict o) s = (s, .refused r) := by
  simp only [entryLookupRule, value, refused]

include short strokes code

theorem entryLookupRule_of_not_ready (taken : lookupRefusal s = none) (not_ready : (s.store.region d).state ≠ .ready) :
    entryLookupRule tag (outlinePayload dict o) s =
      (s, .done (lookupData s.dict (noneLookup .request d o) true)) := by
  have code' : dictOfCode (byteAt (outlinePayload dict o) 0) = some d := code
  have unready : (!s.dictReady d) = true := by simp [State.dictReady, not_ready]
  simp only [entryLookupRule, value, taken, code', Option.getD_some, byteAt_one_outlinePayload short,
    outlineAt_payload strokes, if_pos unready]

theorem entryLookupRule_of_ready (taken : lookupRefusal s = none) (ready : (s.store.region d).state = .ready) :
    (∀ l head, scanLookup s.dict .request d o = (l, some head) →
      entryLookupRule tag (outlinePayload dict o) s =
        (startWalk l (s.onDict fun x => { x with lookupTag := some tag }), .accepted)) ∧
    (∀ l, scanLookup s.dict .request d o = (l, none) →
      entryLookupRule tag (outlinePayload dict o) s =
        (deliver l false (countLookup (s.onDict fun x => { x with lookupTag := some tag })), .accepted)) := by
  have code' : dictOfCode (byteAt (outlinePayload dict o) 0) = some d := code
  have not_unready : ¬ (!s.dictReady d) = true := by simp [State.dictReady, ready]
  refine ⟨fun l head scanned => ?_, fun l scanned => ?_⟩ <;>
  · have scanned' : scanLookup (s.onDict fun x => { x with lookupTag := some tag }).dict .request d o = _ := scanned
    simp only [entryLookupRule, value, taken, code', Option.getD_some, byteAt_one_outlinePayload short,
      outlineAt_payload strokes, if_neg not_unready, scanned']

end

theorem exec_entryLookup {tag dict : Byte} {o : List Nat} (short : o.length < 256) (s : State) :
    exec (.entryLookup tag (outlinePayload dict o)) s =
      .next (finishStep (takeRequest tag true false (entryLookupRule tag (outlinePayload dict o)) noAfter s)) := by
  show Host.Outcome.next (finishStep (takeRequest tag (lenOutline (outlinePayload dict o)) false _ noAfter s)) = _
  rw [lenOutline_payload short]

/-! ### One record of the chain -/

theorem readBytes_add (m : List Host.Cell) (a n k : Nat) :
    readBytes m a (n + k) = readBytes m a n ++ readBytes m (a + n) k := by
  induction n generalizing a with
  | zero => simp [readBytes]
  | succ n ih => rw [Nat.succ_add, readBytes, ih, readBytes, List.cons_append, Nat.add_assoc a 1 n, Nat.add_comm 1 n]

theorem readBytes_length (m : List Host.Cell) (a n : Nat) : (readBytes m a n).length = n := by
  induction n generalizing a with
  | zero => rfl
  | succ n ih => rw [readBytes, List.length_cons, ih]

theorem byteAt_readBytes {m : List Host.Cell} {a n i : Nat} (within : i < n) :
    byteAt (readBytes m a n) i = (readByte m (a + i)).toNat := by
  induction i generalizing a n with
  | zero =>
    obtain ⟨k, rfl⟩ := Nat.exists_eq_succ_of_ne_zero (by omega : n ≠ 0)
    rfl
  | succ i ih =>
    obtain ⟨k, rfl⟩ := Nat.exists_eq_succ_of_ne_zero (by omega : n ≠ 0)
    rw [readBytes, byteAt_cons_succ, ih (by omega), Nat.add_assoc, Nat.add_comm 1 i]

theorem be4At_four_readBytes {m : List Host.Cell} {a n : Nat} (whole : 8 ≤ n) :
    be4At (readBytes m a n) 4 = be4At (readBytes m a 8) 4 := by
  obtain ⟨k, rfl⟩ := Nat.exists_eq_add_of_le whole
  rw [readBytes_add]
  rfl

section
variable (m : List Host.Cell) (base off limit : Nat)

/-- The stroke count and the size of what stands at an offset. -/
def strokesAt : Nat := (readByte m (base + off + 1)).toNat
def recordSizeAt : Nat := 8 + 3 * strokesAt m base off + (readByte m (base + off + 2)).toNat

/-- A record stands at an offset (R86). -/
def recordAt : Prop :=
  (1 ≤ (readByte m (base + off)).toNat ∧ (readByte m (base + off)).toNat ≤ 3) ∧
    (1 ≤ strokesAt m base off ∧ strokesAt m base off ≤ 8) ∧ off + recordSizeAt m base off ≤ limit ∧
    sum8 (readBytes m (base + off) (recordSizeAt m base off)) = 0

/-- The record that stands at an offset. -/
def recordStanding : DictRead :=
  { kind := (readByte m (base + off)).toNat
    outline := ofStrokes (strokesAt m base off) ((readBytes m (base + off) (recordSizeAt m base off)).drop 8)
    text := (readBytes m (base + off) (recordSizeAt m base off)).drop (8 + 3 * strokesAt m base off)
    link := be4At (readBytes m (base + off) (recordSizeAt m base off)) 4
    size := recordSizeAt m base off }

theorem readRecord_eq_iff : (recordAt m base off limit → readRecord m base off limit = some (recordStanding m base off)) ∧
    (¬ recordAt m base off limit → readRecord m base off limit = none) := by
  have kind : byteAt (readBytes m (base + off) 8) 0 = (readByte m (base + off)).toNat := byteAt_readBytes (by decide)
  have count : byteAt (readBytes m (base + off) 8) 1 = strokesAt m base off := byteAt_readBytes (by decide)
  have len : byteAt (readBytes m (base + off) 8) 2 = (readByte m (base + off + 2)).toNat := byteAt_readBytes (by decide)
  have link : be4At (readBytes m (base + off) 8) 4 =
      be4At (readBytes m (base + off) (recordSizeAt m base off)) 4 :=
    (be4At_four_readBytes (by unfold recordSizeAt; omega)).symm
  simp only [readRecord, kind, count, len, link, Config.outlineMax]
  exact ⟨fun stands => if_pos stands, fun none => if_neg none⟩

end

/-- What one record does to a lookup, in the terms of R86. -/
theorem Lookup.meet_eq (r : DictRead) (l : Lookup) :
    l.meet r =
      { l with
        decided := if r.outline = l.outline ∧ r.kind ≠ 3 ∧ l.decided = none then
          some (if r.kind = 1 then some r.text else none) else l.decided
        longer := l.longer || decide (r.outline = l.outline ∧ r.kind = 3)
        prefixMet := l.prefixMet || decide (r.outline = l.outline ∧ r.kind = 3) } := by
  unfold Lookup.meet
  by_cases same : r.outline = l.outline
  · by_cases prefix_ : r.kind = 3
    · simp [same, prefix_]
    · by_cases open_ : l.decided = none
      · simp [same, prefix_, open_]
      · simp [same, prefix_, open_, Option.isSome_iff_ne_none]
  · simp [same]

/-- A lookup of the host ends: its result reaches the request. -/
theorem completeLookup_request {l : Lookup} (client : l.client = .request) (s : State) :
    Tells 1
      { s with dict := { s.dict with
        lookupsDone := s.dict.lookupsDone + 1
        lookups := s.dict.lookups.filter (fun x => decide (x.client ≠ .request))
        lookupTag := none } }
      (completeLookup l false s) := by
  have told := deliver_request_tells client false (countLookup (s.onDict (Dictionary.without l.client)))
  rw [client] at told
  rw [completeLookup, client]
  exact told

theorem mem_completeLookup_request {l : Lookup} (client : l.client = .request) {s : State} {tag : Byte}
    (waits : s.dict.lookupTag = some tag) (room : s.host.notices.length < 32) :
    .completion tag 0x0F none 1 true (lookupData s.dict l false) ∈ (completeLookup l false s).host.notices := by
  have queued := mem_deliver_request client (s := countLookup (s.onDict (Dictionary.without l.client))) waits room false
  have same : lookupData (countLookup (s.onDict (Dictionary.without l.client))).dict l false = lookupData s.dict l false := by
    unfold lookupData
    cases l.dict <;> rfl
  rw [same] at queued
  exact queued

theorem lookupData_eq (x : Dictionary) (l : Lookup) :
    lookupData x l false = beOpt ((l.decided.getD none).map beText) ++
      [byte (if l.byStaging = true then 0 else if l.decided.isSome = true then 1 else 2), beBool l.longer] ++
      be 4 l.bucket ++ be 4 ((x.get l.dict).countOf l.bucket) ++ be 4 l.reads := rfl

section
variable {l : Lookup} {s : State} {r : DictRead}

theorem walkStep_of_none
    (none : readRecord s.flash.cells (s.regionBase l.dict) l.next (s.regionEnd l.dict) = Option.none) :
    walkStep l s = completeLookup { l with reads := l.reads + 1, prefixMet := false } false
      (chainError (s.onDict fun x => { x with recordsRead := x.recordsRead + 1 })) := by
  have none' : readRecord (s.onDict fun x => { x with recordsRead := x.recordsRead + 1 }).flash.cells
      ((s.onDict fun x => { x with recordsRead := x.recordsRead + 1 }).regionBase l.dict) l.next
      ((s.onDict fun x => { x with recordsRead := x.recordsRead + 1 }).regionEnd l.dict) = Option.none := none
  simp only [walkStep, none']

theorem walkStep_of_some
    (record : readRecord s.flash.cells (s.regionBase l.dict) l.next (s.regionEnd l.dict) = some r) :
    walkStep l s =
      let t := s.onDict fun x => { x with recordsRead := x.recordsRead + 1 }
      let met := Lookup.meet r { l with reads := l.reads + 1 }
      if r.link = max32 then completeLookup met false t
      else if l.next ≤ r.link ∨ r.link < 256 then completeLookup { met with prefixMet := false } false (chainError t)
      else walkOn { met with next := r.link } t := by
  have record' : readRecord (s.onDict fun x => { x with recordsRead := x.recordsRead + 1 }).flash.cells
      ((s.onDict fun x => { x with recordsRead := x.recordsRead + 1 }).regionBase l.dict) l.next
      ((s.onDict fun x => { x with recordsRead := x.recordsRead + 1 }).regionEnd l.dict) = some r := record
  simp only [walkStep, record']

end

theorem regionBase_of_header {s : State} {h : Header} (header : s.store.header = some h) (d : Dict) :
    s.regionBase d = (h.span d).start * 65536 := by
  simp only [State.regionBase, header]

theorem regionEnd_of_header {s : State} {h : Header} (header : s.store.header = some h) (d : Dict) :
    s.regionEnd d = (h.span d).len * 65536 := by
  simp only [State.regionEnd, header]

/-! ### The obligation -/

/-- The walk of a lookup of the host: the record at its offset. -/
theorem exec_walk {l : Lookup} {s : State} (reading : s.store.reading = some (.lookup .request))
    (front : s.dict.lookups.find? (fun x => decide (x.client = .request)) = some l) :
    l.client = .request ∧
    ∀ u, walkStep l (s.onStore fun st => { st with reading := none }) = u → u.calm → exec .readComplete s = .next u.settled := by
  refine ⟨by simpa using List.find?_some front, fun u is quiet => ?_⟩
  have walks : readEnded (.lookup .request) s = walkStep l (s.onStore fun st => { st with reading := none }) := by
    have found : (s.onStore fun st => { st with reading := none }).dict.lookups.find?
        (fun x => decide (x.client = .request)) = some l := front
    show lookupRead .request (s.onStore fun st => { st with reading := none }) = _
    simp only [lookupRead, found]
  rw [exec_readComplete reading, walks, is, finishStep_calm u quiet]

/-- Settles O38: the request by its refusals and the bucket's head, and one step of the walk by the record read. -/
theorem entryLookupScansThenWalks : Obligations.EntryLookupScansThenWalks := by
  refine ⟨?request, ?walk⟩
  case request =>
    intro tag dict o s taken calm short strokes payload
    have runs := exec_entryLookup (tag := tag) (dict := dict) short s
    have answers : ∀ r, entryLookupRule tag payload s.counted = (s.counted, r) →
        exec (.entryLookup tag payload) s = .next (s.replyAndTakeUp tag r) := fun r acts =>
      runs.trans (congrArg Host.Outcome.next (finishStep_request_counted taken acts rfl calm.2))
    refine ⟨fun bad => answers _ (entryLookupRule_of_value (outlineValue_of_bad short strokes bad)),
      fun d code nonempty good => ?_⟩
    have value := outlineValue_of_good short strokes code nonempty good
    refine ⟨fun long => answers _ (entryLookupRule_of_value (value.trans (if_pos long))), fun fits => ?_⟩
    rw [if_neg (by omega)] at value
    have tested := lookupRefusal_eq s.counted
    have store_kept : s.counted.store = s.store := rfl
    have dict_kept : s.counted.dict = s.dict := rfl
    rw [store_kept, dict_kept] at tested
    refine ⟨fun unmounted => answers _ (entryLookupRule_of_refusal value (tested.trans (if_pos unmounted))),
      fun state => answers _ (entryLookupRule_of_refusal value (by rw [tested]; simp [state])), fun mounted => ?_⟩
    have past : lookupRefusal s.counted = if s.dict.lookupTag = none then none else some .busy := by
      rw [tested]
      rcases mounted with state | state | state <;> simp [state]
    refine ⟨fun other => answers _ (entryLookupRule_of_refusal value (past.trans (if_neg other))),
      fun free not_ready => ?_, fun free ready => ?_⟩
    · exact answers _ (entryLookupRule_of_not_ready short strokes code value (past.trans (if_pos free)) not_ready)
    · intro text longer
      have scans := entryLookupRule_of_ready (tag := tag) (s := s.counted) short strokes code value (past.trans (if_pos free)) ready
      have longer_is : stagedLonger s.dict.staging d o = longer := stagedLonger_eq _ _ _
      refine ⟨fun head bucket => ?_, fun empty room => ?_⟩
      · have scanned : scanLookup s.counted.dict .request d o =
            ({ client := .request, dict := d, outline := o, bucket := bucketOf o, decided := text
               byStaging := text.isSome, longer := longer, prefixMet := false, next := head, reads := 0 }, some head) := by
          simp only [scanLookup, dict_kept, longer_is, bucket]
          rfl
        exact runs.trans (congrArg Host.Outcome.next
          (finishStep_request_counted taken ((scans.1 _ _ scanned).trans rfl) rfl calm.2))
      · have acts := scans.2 (scanLookup s.counted.dict .request d o).1 (Prod.ext rfl empty)
        have told := deliver_request_tells (l := (scanLookup s.counted.dict .request d o).1) rfl false
          (countLookup (s.counted.onDict fun x => { x with lookupTag := some tag }))
        have queued := mem_deliver_request (l := (scanLookup s.counted.dict .request d o).1) rfl
          (s := countLookup (s.counted.onDict fun x => { x with lookupTag := some tag })) (tag := tag) rfl room false
        have done := runs.trans (congrArg Host.Outcome.next (finishStep_request_taken taken acts
          ⟨told.phase.trans calm.1, (congrArg LogWriter.flush told.log).trans calm.2⟩))
        refine ⟨_, done, mem_settled_addReply _ _ _ _, mem_settled_notices ?_, ?_⟩
        · have decidedBy : (if text.isSome = true then 0 else if text.isSome = true then 1 else 2) =
              if text.isSome = true then 0 else 2 := by cases text <;> rfl
          rw [lookupData_eq] at queued
          have data : (if (scanLookup s.counted.dict .request d o).1.byStaging = true then 0
              else if (scanLookup s.counted.dict .request d o).1.decided.isSome = true then 1 else 2) =
              if text.isSome = true then 0 else 2 := decidedBy
          have flag : (scanLookup s.counted.dict .request d o).1.longer = longer := longer_is
          rw [data, flag] at queued
          have same : ((countLookup (s.counted.onDict fun x => { x with lookupTag := some tag })).dict.get d).countOf (bucketOf o) =
              (s.dict.get d).countOf (bucketOf o) := by cases d <;> rfl
          rw [← same]
          exact queued
        · rw [settled_addReply_dict, takeUp_lookupTag, told.kept]
          rfl
  case walk =>
    intro l h s calm reading front header at_ kind n size bytes link good same met ends
    obtain ⟨client, runs⟩ := exec_walk reading front
    let v : State := s.onStore fun st => { st with reading := none }
    have base : v.regionBase l.dict = (h.span l.dict).start * 65536 := regionBase_of_header (s := v) header _
    have limit : v.regionEnd l.dict = (h.span l.dict).len * 65536 := regionEnd_of_header (s := v) header _
    have good_iff : good ↔ recordAt v.flash.cells (v.regionBase l.dict) l.next (v.regionEnd l.dict) := by
      rw [base, limit]
      simp only [good, recordAt, and_assoc]
      exact Iff.rfl
    have stands := readRecord_eq_iff v.flash.cells (v.regionBase l.dict) l.next (v.regionEnd l.dict)
    let record : DictRead :=
      { kind := kind, outline := ofStrokes n (bytes.drop 8), text := bytes.drop (8 + 3 * n), link := link, size := size }
    have read : good → readRecord v.flash.cells (v.regionBase l.dict) l.next (v.regionEnd l.dict) = some record := by
      intro ok
      rw [stands.1 (good_iff.mp ok), base]
      rfl
    have meets : Lookup.meet record { l with reads := l.reads + 1 } = met := Lookup.meet_eq _ _
    have ended : ∀ (q : Lookup) (errors : Count), q.client = .request →
        walkStep l v = completeLookup q false (v.onDict fun x =>
          { x with recordsRead := x.recordsRead + 1, chainErrors := x.chainErrors + errors }) → ends q errors := by
      intro q errors of_host steps
      have told := completeLookup_request of_host (v.onDict fun x =>
          { x with recordsRead := x.recordsRead + 1, chainErrors := x.chainErrors + errors })
      refine ⟨_, runs _ steps ⟨told.phase.trans calm.1, (congrArg LogWriter.flush told.log).trans calm.2⟩, told.kept,
        fun tag waits room => ?_⟩
      have queued := mem_completeLookup_request of_host (s := v.onDict fun x =>
        { x with recordsRead := x.recordsRead + 1, chainErrors := x.chainErrors + errors }) waits room
      rw [lookupData_eq] at queued
      have same : ((v.onDict fun x => { x with recordsRead := x.recordsRead + 1
                                               chainErrors := x.chainErrors + errors }).dict.get q.dict).countOf q.bucket =
          (s.dict.get q.dict).countOf q.bucket := by cases q.dict <;> rfl
      rw [same] at queued
      exact queued
    refine ⟨fun bad => ?_, fun ok last => ?_, fun ok more stray => ?_, fun ok more below past => ?_⟩
    · exact ended { l with reads := l.reads + 1, prefixMet := false } 1 client
        (walkStep_of_none (s := v) (stands.2 (mt good_iff.mpr bad)))
    · refine ended met 0 client ?_
      have none_added : (fun x : Dictionary =>
          { x with recordsRead := x.recordsRead + 1, chainErrors := x.chainErrors + (0 : Count) }) =
          fun x => { x with recordsRead := x.recordsRead + 1 } := funext fun x => by cases x; simp only [add_zero]
      rw [walkStep_of_some (s := v) (read ok), meets, none_added]
      exact if_pos last
    · refine ended { met with prefixMet := false } 1 client ?_
      rw [walkStep_of_some (s := v) (read ok), meets]
      exact (if_neg more).trans (if_pos stray)
    · have steps : walkStep l v = _ := walkStep_of_some (s := v) (read ok)
      rw [meets] at steps
      have goes_on := steps.trans ((if_neg more).trans (if_neg (by show ¬ (l.next ≤ link ∨ link < 256); omega)))
      rw [runs _ goes_on calm]
      have of_host : met.client = .request := client
      simp only [walkOn, waitRead, of_host]
      rfl

end Sys2Proof.Machine
end

section
/-! ENTRY-ADD, ENTRY-DELETE and the rewrite of GLOBAL (R89 to R93). -/

namespace Sys2Proof.Machine

/-! ### The payload of ENTRY-ADD -/

/-- The payload of ENTRY-ADD (paragraph 11.4). -/
def addPayload (dict options : Byte) (o : List Nat) (text : Bytes) : Bytes :=
  dict :: options :: byte o.length :: byte text.length :: (beStrokes o ++ text)

section
variable {dict options : Byte} {o : List Nat} {text : Bytes} (short : o.length < 256) (text_short : text.length < 256)
  (strokes : ∀ k ∈ o, k < 16777216)

include short in
theorem byteAt_two_addPayload : byteAt (addPayload dict options o text) 2 = o.length :=
  byteAt_byte_length short (byte text.length :: (beStrokes o ++ text))

include text_short in
theorem byteAt_three_addPayload : byteAt (addPayload dict options o text) 3 = text.length :=
  byteAt_byte_length text_short (beStrokes o ++ text)

include short text_short in
theorem lenEntryAdd_payload : lenEntryAdd (addPayload dict options o text) = true := by
  rw [lenEntryAdd, byteAt_two_addPayload short, byteAt_three_addPayload text_short, lenIs]
  simp [addPayload]
  omega

include strokes in
theorem outlineAt_addPayload : outlineAt (addPayload dict options o text) 4 o.length = o :=
  ofStrokes_beStrokes o text strokes

theorem drop_addPayload : (addPayload dict options o text).drop (4 + 3 * o.length) = text := by
  have strokes_gone : (beStrokes o ++ text).drop (3 * o.length) = text := by
    rw [← beStrokes_length o]
    exact List.drop_left
  rw [Nat.add_comm]
  exact strokes_gone

include short strokes

theorem addValue_of_bad {global : Bool} (bad : dict.toNat = 0 ∨ 3 < dict.toNat ∨ o = [] ∨ ∃ k ∈ o, k = 0 ∨ 8388607 < k) :
    addValue global (addPayload dict options o text) = some .badValue := by
  unfold addValue
  split
  · rfl
  next d code =>
    have named : ¬ (dict.toNat = 0 ∨ 3 < dict.toNat) := fun outside => by
      have none : dictOfCode (byteAt (addPayload dict options o text) 0) = none := dictOfCode_eq_none outside
      rw [none] at code
      exact absurd code (by simp)
    dsimp only
    rw [byteAt_two_addPayload short, outlineAt_addPayload strokes]
    refine if_pos ?_
    rw [strokes_bad_iff, List.length_eq_zero_iff, ← or_assoc]
    exact .inl ((bad.resolve_left fun zero => named (.inl zero)).resolve_left fun above => named (.inr above))

include text_short

theorem addValue_of_good {global : Bool} {d : Dict} (code : dictOfCode dict.toNat = some d) (nonempty : o ≠ [])
    (good : ∀ k ∈ o, 1 ≤ k ∧ k ≤ 8388607) :
    addValue global (addPayload dict options o text) =
      if global = true ∧ d ≠ .j then some .badValue
      else if 8 < o.length ∨ 48 < text.length then some .tooLong else none := by
  have code' : dictOfCode (byteAt (addPayload dict options o text) 0) = some d := code
  have fine : o.all strokeOk = true := by
    rw [← Bool.not_eq_false, strokes_bad_iff]
    rintro ⟨k, within, bad⟩
    have := good k within
    omega
  have some_stroke : ¬ o.length = 0 := mt List.length_eq_zero_iff.mp nonempty
  simp only [addValue, code', byteAt_two_addPayload short, byteAt_three_addPayload text_short,
    outlineAt_addPayload strokes, some_stroke, fine, Bool.true_eq_false, false_or, Config.outlineMax, Config.textMax]

end

/-! ### Staging -/

theorem stageRefusal_eq (d : Dict) (rs : List (Nat × Nat)) (s : State) :
    stageRefusal d rs s =
      if s.store.state = .unmounted ∨ s.store.state = .mounting then some Reason.notMounted
      else if s.store.state = .unformatted then some .unformatted
      else if (s.store.region d).state ≠ .ready then some .regionState
      else if (s.dict.get d).stalled = true then some .regionFull
      else if 32 ≤ s.dict.staging.length then some .stagingFull
      else if bucketFull s.dict d rs = true then some .bucketFull
      else if s.regionEnd d - (s.store.region d).append.getD 0 < s.dict.reservedBytes d + (rs.map Prod.snd).sum then
        some .regionFull
      else none := by
  unfold stageRefusal State.dictReady
  cases s.store.state <;> simp [Config.stagingMax]

theorem addReserves_eq (o : List Nat) (text : Bytes) :
    addReserves o text =
      (List.range (o.length - 1)).map (fun i => (bucketOf (o.take (i + 1)), 2 * (8 + 3 * (o.take (i + 1)).length) - 1)) ++
        [(bucketOf o, 2 * (8 + 3 * o.length + text.length) - 1)] := by
  rw [addReserves, properPfxs, List.map_map]
  rfl

/-! ### The rewrite of GLOBAL (R93) -/

/-- The numbers of the entries for an outline whose units lie outside the lock. -/
def rewrittenOf (t : Transcript) (o : List Nat) (es : List (Nat × Nat)) : List Nat :=
  ((es.filter fun e => decide ([e.2] = o)).filter fun e => !t.inLock e.1).map Prod.fst

/-- The entries for an outline whose units lie in the lock. -/
def skippedOf (t : Transcript) (o : List Nat) (es : List (Nat × Nat)) : List (Nat × Nat) :=
  (es.filter fun e => decide ([e.2] = o)).filter fun e => t.inLock e.1

/-- The units of the numbers rewritten with a text. -/
def rewriteUnits (ns : List Nat) (text : Bytes) (us : List TUnit) : List TUnit :=
  us.map fun u => if u.number ∈ ns then globalUnit text u else u

theorem rewriteUnits_nil (text : Bytes) (us : List TUnit) : rewriteUnits [] text us = us := by simp [rewriteUnits]

theorem rewriteUnits_cons (n : Nat) (ns : List Nat) (text : Bytes) (us : List TUnit) :
    rewriteUnits ns text (changeUnit n (globalUnit text) us) = rewriteUnits (n :: ns) text us := by
  unfold rewriteUnits changeUnit
  rw [List.map_map]
  refine List.map_congr_left fun u _ => ?_
  by_cases here : u.number = n
  · by_cases again : n ∈ ns <;> simp [here, again, globalUnit]
  · simp [here]

/-- What a rewrite leaves. -/
def globaled (ns : List Nat) (text : Bytes) (feeds : FeedManager) (s : State) : State :=
  { s with
    trans := { s.trans with untranslates := s.trans.untranslates.filter (fun e => decide (e.1 ∉ ns)) }
    script := { s.script with units := rewriteUnits ns text s.script.units }
    feeds := feeds }

theorem globaled_nil (text : Bytes) (s : State) : globaled [] text s.feeds s = s := by
  simp [globaled, rewriteUnits_nil]

theorem globaled_cons (n : Nat) (ns : List Nat) (text : Bytes) (feeds : FeedManager) (s : State) :
    globaled ns text feeds (dropUntranslate n (replaceUnit n (globalUnit text) s)) = globaled (n :: ns) text feeds s := by
  have units : (replaceUnit n (globalUnit text) s).script.units = changeUnit n (globalUnit text) s.script.units := rfl
  have entries : (s.trans.untranslates.filter fun e => decide (e.1 ≠ n)).filter (fun e => decide (e.1 ∉ ns)) =
      s.trans.untranslates.filter fun e => decide (e.1 ∉ n :: ns) := by
    rw [List.filter_filter]
    refine List.filter_congr fun e _ => ?_
    simp [Bool.and_comm]
  unfold globaled
  rw [← rewriteUnits_cons, ← entries]
  rfl

theorem globalRewrite_eq (o : List Nat) (text : Bytes) (es : List (Nat × Nat)) (s : State) (a b : Nat) :
    ∃ feeds, globalRewrite o text es (s, a, b) =
      (globaled (rewrittenOf s.script o es) text feeds s, a + (rewrittenOf s.script o es).length,
        b + (skippedOf s.script o es).length) := by
  induction es generalizing s a b with
  | nil =>
    refine ⟨s.feeds, ?_⟩
    rw [show rewrittenOf s.script o [] = [] from rfl, globaled_nil]
    rfl
  | cons e es ih =>
    obtain ⟨n, k⟩ := e
    rw [globalRewrite]
    by_cases other : [k] ≠ o
    · obtain ⟨feeds, rest⟩ := ih s a b
      refine ⟨feeds, ?_⟩
      rw [if_pos other, rest]
      have dropped : ((n, k) :: es).filter (fun e => decide ([e.2] = o)) = es.filter fun e => decide ([e.2] = o) :=
        List.filter_cons_of_neg (by simpa using other)
      simp only [rewrittenOf, skippedOf, dropped]
    · rw [if_neg other]
      have kept : ((n, k) :: es).filter (fun e => decide ([e.2] = o)) = (n, k) :: es.filter fun e => decide ([e.2] = o) :=
        List.filter_cons_of_pos (by simpa using other)
      by_cases locked : s.script.inLock n = true
      · obtain ⟨feeds, rest⟩ := ih s a (b + 1)
        refine ⟨feeds, ?_⟩
        rw [if_pos locked, rest]
        simp only [rewrittenOf, skippedOf, kept, List.filter_cons, locked, Bool.not_true, Bool.false_eq_true, if_false,
          if_true, List.length_cons]
        rw [Nat.add_assoc, Nat.add_comm 1]
      · obtain ⟨feeds, rest⟩ := ih (dropUntranslate n (replaceUnit n (globalUnit text) s)) (a + 1) b
        refine ⟨feeds, ?_⟩
        have same_lock : ∀ m, (dropUntranslate n (replaceUnit n (globalUnit text) s)).script.inLock m = s.script.inLock m := by
          intro m
          rfl
        rw [if_neg locked, rest]
        simp only [rewrittenOf, skippedOf, kept, List.filter_cons, locked, Bool.not_false, Bool.false_eq_true, if_false,
          if_true, List.map_cons, List.length_cons, same_lock]
        rw [globaled_cons, Nat.add_assoc, Nat.add_comm 1]

/-! ### The requests -/

section
variable {tag dict options : Byte} {o : List Nat} {text : Bytes} {d : Dict} {s : State} (short : o.length < 256)
  (text_short : text.length < 256) (strokes : ∀ k ∈ o, k < 16777216) (code : dictOfCode dict.toNat = some d)

theorem entryAddRule_of_value {p : Bytes} {r : Reason} (bad : addValue ((p.getD 1 0).getLsbD 0) p = some r) :
    entryAddRule p s = (s, .refused r) := by simp only [entryAddRule, bad]

include short strokes code

theorem entryAddRule_of_good (value : addValue (options.getLsbD 0) (addPayload dict options o text) = none) :
    (∀ r, stageRefusal d (addReserves o text) s = some r →
      entryAddRule (addPayload dict options o text) s = (s, .refused r)) ∧
    (stageRefusal d (addReserves o text) s = none →
      entryAddRule (addPayload dict options o text) s = acceptAdd d (options.getLsbD 0) o text s) := by
  have code' : dictOfCode (byteAt (addPayload dict options o text) 0) = some d := code
  have value' : addValue (((addPayload dict options o text).getD 1 0).getLsbD 0) (addPayload dict options o text) = none :=
    value
  refine ⟨fun r refused => ?_, fun accepted => ?_⟩
  · simp only [entryAddRule, value', code', Option.getD_some, byteAt_two_addPayload short, outlineAt_addPayload strokes,
      drop_addPayload, refused]
  · simp only [entryAddRule, value', code', Option.getD_some, byteAt_two_addPayload short, outlineAt_addPayload strokes,
      drop_addPayload, accepted]
    rfl

theorem entryDeleteRule_of_good (value : outlineValue (outlinePayload dict o) = none) :
    (∀ r, stageRefusal d [reserveOf o 0] s = some r →
      entryDeleteRule (outlinePayload dict o) s = (s, .refused r)) ∧
    (stageRefusal d [reserveOf o 0] s = none →
      entryDeleteRule (outlinePayload dict o) s =
        (s.onDict fun x => { stage d none o [reserveOf o 0] x with deletesStaged := x.deletesStaged + 1 },
          .done (be 4 (31 - s.dict.staging.length)))) := by
  have code' : dictOfCode (byteAt (outlinePayload dict o) 0) = some d := code
  refine ⟨fun r refused => ?_, fun accepted => ?_⟩
  · simp only [entryDeleteRule, value, code', Option.getD_some, byteAt_one_outlinePayload short, outlineAt_payload strokes,
      refused]
  · simp only [entryDeleteRule, value, code', Option.getD_some, byteAt_one_outlinePayload short, outlineAt_payload strokes,
      accepted]
    rw [Dictionary.stagingFree]
    simp [stage, Config.stagingMax]

end

theorem entryDeleteRule_of_value {p : Bytes} {s : State} {r : Reason} (bad : outlineValue p = some r) :
    entryDeleteRule p s = (s, .refused r) := by simp only [entryDeleteRule, bad]

/-- The dictionary block after an addition. -/
def Dictionary.added (d : Dict) (o : List Nat) (text : Bytes) (x : Dictionary) : Dictionary :=
  { stage d (some text) o (addReserves o text) x with addsStaged := x.addsStaged + 1 }

theorem stagingFree_added (d : Dict) (o : List Nat) (text : Bytes) (x : Dictionary) :
    (x.added d o text).stagingFree = 31 - x.staging.length := by
  simp [Dictionary.stagingFree, Dictionary.added, stage, Config.stagingMax]

theorem acceptAdd_plain (d : Dict) (o : List Nat) (text : Bytes) (s : State) :
    acceptAdd d false o text s = (s.onDict (Dictionary.added d o text), .done (be 4 (31 - s.dict.staging.length))) := by
  rw [← stagingFree_added d o text]
  rfl

theorem acceptAdd_global (d : Dict) (o : List Nat) (text : Bytes) (s : State) :
    ∃ feeds, acceptAdd d true o text s =
      (globaled (rewrittenOf s.script o s.trans.untranslates) text feeds (s.onDict (Dictionary.added d o text)),
        .done (be 4 (31 - s.dict.staging.length) ++ be 4 (rewrittenOf s.script o s.trans.untranslates).length ++
          be 4 (skippedOf s.script o s.trans.untranslates).length)) := by
  obtain ⟨feeds, rewrites⟩ := globalRewrite_eq o text s.trans.untranslates (s.onDict (Dictionary.added d o text)) 0 0
  refine ⟨feeds, ?_⟩
  have accepts : acceptAdd d true o text s =
      let r := globalRewrite o text s.trans.untranslates (s.onDict (Dictionary.added d o text), 0, 0)
      (r.1, .done (be 4 r.1.dict.stagingFree ++ be 4 r.2.1 ++ be 4 r.2.2)) := rfl
  rw [accepts, rewrites, Nat.zero_add, Nat.zero_add, ← stagingFree_added d o text]
  rfl

/-- Settles O39: the refusals in their order, the staged operation, and the rewrite of GLOBAL entry by entry. -/
theorem entryAddAndDeleteAreStaged : Obligations.EntryAddAndDeleteAreStaged := by
  intro tag dict options o text s taken calm short text_short strokes add delete global
  have add_runs : exec add s =
      .next (finishStep (takeRequest tag true false (entryAddRule (addPayload dict options o text)) noAfter s)) := by
    show Host.Outcome.next (finishStep (takeRequest tag (lenEntryAdd (addPayload dict options o text)) false _ noAfter s)) = _
    rw [lenEntryAdd_payload short text_short]
    rfl
  have delete_runs : exec delete s =
      .next (finishStep (takeRequest tag true false (entryDeleteRule (outlinePayload dict o)) noAfter s)) := by
    show Host.Outcome.next (finishStep (takeRequest tag (lenOutline (outlinePayload dict o)) false _ noAfter s)) = _
    rw [lenOutline_payload short]
    rfl
  have adds_with : ∀ (u : State) r, entryAddRule (addPayload dict options o text) s.counted = (u.counted, r) →
      u.host = s.host → u.log = s.log → exec add s = .next (u.replyAndTakeUp tag r) := fun u r acts host log =>
    add_runs.trans (congrArg Host.Outcome.next (finishStep_request_counted taken acts host (log ▸ calm.2)))
  have deletes_with : ∀ (u : State) r, entryDeleteRule (outlinePayload dict o) s.counted = (u.counted, r) →
      u.host = s.host → u.log = s.log → exec delete s = .next (u.replyAndTakeUp tag r) := fun u r acts host log =>
    delete_runs.trans (congrArg Host.Outcome.next (finishStep_request_counted taken acts host (log ▸ calm.2)))
  refine ⟨fun bad => ⟨?_, ?_⟩, fun d code nonempty good => ?_⟩
  · exact adds_with s _ (entryAddRule_of_value (addValue_of_bad short strokes bad)) rfl rfl
  · exact deletes_with s _ (entryDeleteRule_of_value (outlineValue_of_bad short strokes bad)) rfl rfl
  intro prefixes adds deletes region full refusal staged added free
  have add_value := fun global => addValue_of_good (global := global) (options := options) short text_short strokes code
    nonempty good
  have delete_value := outlineValue_of_good short strokes code nonempty good
  have refusal_is : ∀ rs, stageRefusal d rs s.counted = refusal rs := fun rs => stageRefusal_eq d rs s.counted
  have adds_is : addReserves o text = adds := addReserves_eq o text
  have added_is : s.dict.added d o text = added := by rw [Dictionary.added, adds_is]; rfl
  refine ⟨fun is_global other => ?_, fun fine => ?adding, fun long => ?_, fun fits => ?deleting⟩
  · exact adds_with s _ (entryAddRule_of_value ((add_value _).trans (if_pos ⟨is_global, other⟩))) rfl rfl
  case adding =>
    have value := add_value (options.getLsbD 0)
    rw [if_neg (fun bad => fine.elim (· bad.1) (bad.2 ·))] at value
    refine ⟨fun long => adds_with s _ (entryAddRule_of_value (value.trans (if_pos long))) rfl rfl, fun fits text_fits => ?_⟩
    obtain ⟨refuses, accepts⟩ := entryAddRule_of_good (s := s.counted) short strokes code
      (value.trans (if_neg fun long => by omega))
    rw [adds_is, refusal_is] at refuses accepts
    refine ⟨fun r refused => adds_with s _ (refuses r refused) rfl rfl, fun accepted => ⟨fun plain => ?_,
      fun is_global nodup => ?_⟩⟩
    · have acts := accepts accepted
      rw [Bool.eq_false_of_not_eq_true plain, acceptAdd_plain] at acts
      rw [← added_is]
      exact adds_with _ _ acts rfl rfl
    · have acts := accepts accepted
      obtain ⟨feeds, rewrites⟩ := acceptAdd_global d o text s.counted
      rw [show options.getLsbD 0 = true from is_global, rewrites] at acts
      intro same skipped rewritten lits
      refine ⟨globaled rewritten text feeds (s.onDict (Dictionary.added d o text)), ?_, ?_⟩
      · rw [← added_is]
        rfl
      · exact adds_with _ _ acts rfl rfl
  · exact deletes_with s _ (entryDeleteRule_of_value (delete_value.trans (if_pos long))) rfl rfl
  case deleting =>
    obtain ⟨refuses, accepts⟩ := entryDeleteRule_of_good (s := s.counted) short strokes code
      (delete_value.trans (if_neg fun long => by omega))
    have deletes_is : [reserveOf o 0] = deletes := rfl
    rw [deletes_is, refusal_is] at refuses accepts
    exact ⟨fun r refused => deletes_with s _ (refuses r refused) rfl rfl,
      fun accepted => deletes_with _ _ (accepts accepted) rfl rfl⟩

end Sys2Proof.Machine
end

section
/-! Mount: the header, the scan of a dictionary region, the reads one after another (R56 to R61, R84). -/

namespace Sys2Proof.Machine

/-! ### The header (R56) -/

theorem be2At_eq {bs : Bytes} {off : Nat} (within : off + 1 < bs.length) :
    be2At bs off = (bs.getD off 0).toNat * 256 + (bs.getD (off + 1) 0).toNat := by
  have first : off < bs.length := by omega
  have split : bs.drop off = bs[off] :: bs[off + 1] :: bs.drop (off + 1 + 1) := by
    rw [List.drop_eq_getElem_cons first, List.drop_eq_getElem_cons within]
  rw [be2At, split, List.getD_eq_getElem _ _ first, List.getD_eq_getElem _ _ within]
  show ofBe [bs[off], bs[off + 1]] 0 = _
  simp only [ofBe, Nat.zero_mul, Nat.zero_add]

theorem Span.apart_iff {r q : Span} (some_r : 1 ≤ r.len) (some_q : 1 ≤ q.len) :
    r.apart q = true ↔
      ∀ b, ¬ (r.start ≤ b ∧ b < r.start + r.len ∧ q.start ≤ b ∧ b < q.start + q.len) := by
  rw [Span.apart, decide_eq_true_eq]
  refine ⟨fun apart b both => by omega, fun disjoint => ?_⟩
  have := disjoint (max r.start q.start)
  omega

theorem Header.valid_iff (h : Header) : h.valid = true ↔
    256 ≤ h.capacity ∧ h.capacity ≤ 4096 ∧
    (∀ r ∈ [h.log, h.j, h.pa, h.pb], 1 ≤ r.start ∧ r.start + r.len ≤ h.capacity) ∧
    [h.log, h.j, h.pa, h.pb].Pairwise
      (fun r q => ∀ b, ¬ (r.start ≤ b ∧ b < r.start + r.len ∧ q.start ≤ b ∧ b < q.start + q.len)) ∧
    16 ≤ h.log.len ∧ 4 ≤ h.j.len ∧ 4 ≤ h.pa.len ∧ 4 ≤ h.pb.len := by
  by_cases lens : 16 ≤ h.log.len ∧ 4 ≤ h.j.len ∧ 4 ≤ h.pa.len ∧ 4 ≤ h.pb.len
  · obtain ⟨log, j, pa, pb⟩ := lens
    rw [Header.valid]
    simp only [Bool.and_eq_true, Span.within, decide_eq_true_eq, List.forall_mem_cons, List.pairwise_cons,
      Span.apart_iff (r := h.log) (q := h.j) (by omega) (by omega),
      Span.apart_iff (r := h.log) (q := h.pa) (by omega) (by omega),
      Span.apart_iff (r := h.log) (q := h.pb) (by omega) (by omega),
      Span.apart_iff (r := h.j) (q := h.pa) (by omega) (by omega),
      Span.apart_iff (r := h.j) (q := h.pb) (by omega) (by omega),
      Span.apart_iff (r := h.pa) (q := h.pb) (by omega) (by omega), List.not_mem_nil, false_implies, implies_true,
      and_true, List.Pairwise.nil]
    tauto
  · simp only [Header.valid, lens, decide_false, Bool.and_false, Bool.false_eq_true, and_false]

theorem Timing.valid_iff (z : Timing) : z.valid = true ↔
    100 ≤ z.programMax ∧ z.programMax ≤ 10000 ∧ 10 ≤ z.eraseMax ∧ z.eraseMax ≤ 10000 ∧
      1 ≤ z.suspendLatency ∧ z.suspendLatency ≤ 1000 ∧ z.resumeInterval ≤ 10000 := decide_eq_true_iff

theorem parseHeader_iff (bs : Bytes) (h : Header) (z : Timing) : parseHeader bs = some (h, z) ↔
    bs.take 8 = headerMark ∧ byteAt bs 8 = 1 ∧ (crc16 (bs.take 35)).toNat = be2At bs 35 ∧
      h = { capacity := be2At bs 9, log := spanAt bs 11, j := spanAt bs 15, pa := spanAt bs 19, pb := spanAt bs 23 } ∧
      z = { programMax := be2At bs 27, eraseMax := be2At bs 29, suspendLatency := be2At bs 31
            resumeInterval := be2At bs 33 } ∧
      h.valid = true ∧ z.valid = true := by
  simp only [parseHeader, Option.ite_none_right_eq_some, Option.some.injEq, Prod.mk.injEq]
  constructor
  · rintro ⟨⟨mark, version, check, h_valid, z_valid⟩, rfl, rfl⟩
    exact ⟨mark, version, check, rfl, rfl, h_valid, z_valid⟩
  · rintro ⟨mark, version, check, rfl, rfl, h_valid, z_valid⟩
    exact ⟨⟨mark, version, check, h_valid, z_valid⟩, rfl, rfl⟩

/-! ### The CRC-16 (R197) -/

theorem crc16Shift_eq (r : BitVec 16) :
    crc16Shift r = if r.getLsbD 15 = true then (r <<< 1) ^^^ 0x1021#16 else r <<< 1 := by
  rw [crc16Shift, BitVec.msb_eq_getLsbD_last]

theorem crc16_append (bs : Bytes) (b : Byte) : crc16 (bs ++ [b]) =
    (List.range 8).foldl (fun (r : BitVec 16) _ => if r.getLsbD 15 = true then (r <<< 1) ^^^ 0x1021#16 else r <<< 1)
      (crc16 bs ^^^ (b.setWidth 16 <<< 8)) := by
  rw [crc16, List.foldl_append, List.foldl_cons, List.foldl_nil, crc16Byte]
  simp only [crc16Shifts, crc16Shift_eq]
  rfl

/-! ### The scan (R60) -/

theorem erased_iff (b : Byte) : b = erasedByte ↔ b.toNat = 255 := by
  rw [← BitVec.toNat_inj]
  rfl

section
variable (m : List Host.Cell) (base off : Nat)

/-- A record is whole (R60 step 2). -/
def wholeAt : Prop :=
  ((readByte m (base + off)).toNat = 1 ∨
      ((readByte m (base + off)).toNat = 2 ∨ (readByte m (base + off)).toNat = 3) ∧
        (readByte m (base + off + 2)).toNat = 0) ∧
    1 ≤ strokesAt m base off ∧ strokesAt m base off ≤ 8 ∧ (readByte m (base + off + 2)).toNat ≤ 48 ∧
    off + recordSizeAt m base off ≤ (off / 256 + 1) * 256 ∧
    sum8 (readBytes m (base + off) (recordSizeAt m base off)) = 0

theorem wholeRecord_eq : (wholeAt m base off → wholeRecord m base off = some (recordStanding m base off)) ∧
    (¬ wholeAt m base off → wholeRecord m base off = none) := by
  have text_length : (recordStanding m base off).text.length = (readByte m (base + off + 2)).toNat := by
    simp only [recordStanding, List.length_drop, readBytes_length, recordSizeAt]
    omega
  have text_empty : (recordStanding m base off).text.isEmpty = true ↔ (readByte m (base + off + 2)).toNat = 0 := by
    rw [List.isEmpty_iff, ← List.length_eq_zero_iff, text_length]
  obtain ⟨stands, absent⟩ := readRecord_eq_iff m base off (nextPage off)
  have split : wholeAt m base off ↔ recordAt m base off (nextPage off) ∧
      (decide ((recordStanding m base off).text.length ≤ Config.textMax) &&
        (decide ((recordStanding m base off).kind = 1) || (recordStanding m base off).text.isEmpty)) = true := by
    rw [Bool.and_eq_true, Bool.or_eq_true, decide_eq_true_eq, decide_eq_true_eq, text_empty, text_length]
    show wholeAt m base off ↔ recordAt m base off ((off / 256 + 1) * 256) ∧
      ((readByte m (base + off + 2)).toNat ≤ 48 ∧ ((readByte m (base + off)).toNat = 1 ∨ _))
    constructor
    · rintro ⟨kind, some_stroke, most, len, fits, sum⟩
      exact ⟨⟨by omega, ⟨some_stroke, most⟩, fits, sum⟩, len, by omega⟩
    · rintro ⟨⟨kind, ⟨some_stroke, most⟩, fits, sum⟩, len, plain⟩
      exact ⟨by omega, some_stroke, most, len, fits, sum⟩
  unfold wholeRecord
  refine ⟨fun whole => ?_, fun torn => ?_⟩
  · obtain ⟨here, passes⟩ := split.mp whole
    rw [stands here, Option.filter_some, if_pos passes]
  · by_cases here : recordAt m base off (nextPage off)
    · rw [stands here, Option.filter_some, if_neg fun passes => torn (split.mpr ⟨here, passes⟩)]
    · rw [absent here, Option.filter_none]

end

/-! ### The records entered at mount (R84) -/

theorem Dictionary.get_enter (d e : Dict) (b off : Nat) (x : Dictionary) :
    (x.enter d b off).get e =
      if e = d then { x.get e with directory := enterBucket b off (x.get e).directory } else x.get e := by
  cases d <;> cases e <;> rfl

theorem enterBucket_inOrder {b off : Nat} {l : List Bucket} (order : l.Pairwise (fun x y => x.index < y.index)) :
    (enterBucket b off l).Pairwise (fun x y => x.index < y.index) := by
  have indices : ∀ {k : Nat} {l : List Bucket}, (∀ y ∈ l, k < y.index) → k < b → ∀ y ∈ enterBucket b off l, k < y.index := by
    intro k l above below
    induction l with
    | nil => simpa [enterBucket] using below
    | cons x l ih =>
      obtain ⟨first, later⟩ := List.forall_mem_cons.mp above
      unfold enterBucket
      (repeat' split) <;> simp only [List.forall_mem_cons, first, below, true_and]
      · exact later
      · exact later
      · exact ih later
  induction l with
  | nil => simp [enterBucket]
  | cons x l ih =>
    obtain ⟨above, rest⟩ := List.pairwise_cons.mp order
    unfold enterBucket
    split
    · exact List.pairwise_cons.mpr ⟨above, rest⟩
    next elsewhere =>
      split
      next before =>
        refine List.pairwise_cons.mpr ⟨fun y within => ?_, order⟩
        rcases List.mem_cons.mp within with rfl | later
        · exact before
        · exact before.trans (above y later)
      next after => exact List.pairwise_cons.mpr ⟨indices above (by omega), ih rest⟩

theorem enterAll_other (d : Dict) (rs : List (Nat × Nat)) (x : Dictionary) {e : Dict} (other : e ≠ d) :
    (enterAll d rs x).get e = x.get e := by
  induction rs generalizing x with
  | nil => rfl
  | cons r rs ih => exact (ih _).trans ((Dictionary.get_enter d e r.1 r.2 x).trans (if_neg other))

theorem enterAll_headOf (d : Dict) (rs : List (Nat × Nat)) (x : Dictionary) (b : Nat) :
    ((enterAll d rs x).get d).headOf b =
      (((rs.filter (fun r => decide (r.1 = b))).getLast?.map Prod.snd).or ((x.get d).headOf b)) := by
  induction rs generalizing x with
  | nil => rfl
  | cons r rs ih =>
    have entered : ((x.enter d r.1 r.2).get d).headOf b = if b = r.1 then some r.2 else (x.get d).headOf b :=
      DictRec.headOf_entered (by rw [Dictionary.get_enter, if_pos rfl]) b
    refine (ih (x.enter d r.1 r.2)).trans ?_
    rw [entered, List.filter_cons]
    by_cases here : r.1 = b
    · rw [if_pos here.symm, if_pos (decide_eq_true here), List.getLast?_cons]
      cases (rs.filter fun r => decide (r.1 = b)).getLast? <;> rfl
    · rw [if_neg (Ne.symm here), if_neg (by simpa using here)]

theorem enterAll_countOf (d : Dict) (rs : List (Nat × Nat)) (x : Dictionary) (b : Nat) (order : (x.get d).inOrder) :
    ((enterAll d rs x).get d).countOf b = (x.get d).countOf b + rs.countP (fun r => decide (r.1 = b)) := by
  induction rs generalizing x with
  | nil => rfl
  | cons r rs ih =>
    have directory : ((x.enter d r.1 r.2).get d).directory = enterBucket r.1 r.2 (x.get d).directory := by
      rw [Dictionary.get_enter, if_pos rfl]
    have next_order : ((x.enter d r.1 r.2).get d).inOrder := by
      show List.Pairwise _ _
      rw [directory]
      exact enterBucket_inOrder order
    refine (ih (x.enter d r.1 r.2) next_order).trans ?_
    rw [DictRec.countOf_entered directory order b, List.countP_cons]
    by_cases here : r.1 = b
    · rw [if_pos here.symm, if_pos (decide_eq_true here)]
      omega
    · rw [if_neg (Ne.symm here), if_neg (by simpa using here)]
      omega

/-! ### The reads of mount (R59) -/

theorem completeFormat_of_none {s : State} (none : s.store.formatTag = Option.none) (failed : Option Reason) (data : Bytes) :
    completeFormat failed data s = s := by
  have same : { s.store with formatTag := Option.none } = s.store := by rw [← none]
  rw [completeFormat, none]
  show { s with store := { s.store with formatTag := Option.none } } = s
  rw [same]

/-- A read of mount that ends in a calm state. -/
theorem exec_mountRead {s u : State} (reading : s.store.reading = some .mount)
    (reads : mountRead (s.onStore fun st => { st with reading := none }) = u) (calm : u.calm) :
    exec .readComplete s = .next u.settled := by
  have is : readEnded .mount s = u := reads
  rw [exec_readComplete reading, is, finishStep_calm u calm]

theorem mountRead_of_header {s : State} (mount : s.store.mount = .header) : mountRead s = mountHeader s := by
  simp only [mountRead, mount]

theorem mountRead_of_dict {s : State} {d : Dict} (mount : s.store.mount = .dict d) :
    mountRead s = mountNext (afterDict d) (mountDict d s) := by
  simp only [mountRead, mount]

theorem mountRead_of_log {s : State} (mount : s.store.mount = .log) : mountRead s = mountLog s := by
  simp only [mountRead, mount]

/-- R59: an invalid header. -/
theorem mountFails_tells (s : State) :
    Tells 1
      { s with store := { s.store with
        state := .unformatted, mount := .idle, header := none, timing := none, log := .blank
        j := .blank, pa := .blank, pb := .blank, formatTag := none } }
      (mountFails s) :=
  completeFormat_tells (some .unformatted) [] (s.onStore fun st =>
    { st with
      state := .unformatted, mount := .idle, header := none, timing := none, log := .blank, j := .blank, pa := .blank
      pb := .blank })

/-- The scan of a dictionary region by mount (R60). -/
theorem mountDict_of_valid {s : State} {d : Dict} {h : Header} (header : s.store.header = some h)
    (mark : readBytes s.flash.cells ((h.span d).start * 65536) (readyMark d).length = readyMark d) :
    mountDict d s =
      let x := scanRegion s.flash.cells ((h.span d).start * 65536) ((h.span d).len * 65536) ((h.span d).len * 65536) 256
      (s.onDict (enterAll d x.records)).onStore fun st =>
        { st.updRegion d (fun _ => { state := .ready, append := some x.append }) with
          tornRecords := (st.updRegion d (fun _ => { state := .ready, append := some x.append })).tornRecords +
            BitVec.ofNat 32 x.torn } := by
  have valid : readyValid s d = true := decide_eq_true (by rw [regionBase_of_header header]; exact mark)
  rw [mountDict, if_pos valid, regionBase_of_header header, regionEnd_of_header header]

theorem mountDict_of_invalid {s : State} {d : Dict} {h : Header} (header : s.store.header = some h)
    (mark : readBytes s.flash.cells ((h.span d).start * 65536) (readyMark d).length ≠ readyMark d) :
    mountDict d s = s.onStore fun st => st.updRegion d (fun _ => .blank) := by
  have invalid : ¬ readyValid s d = true := by
    rw [readyValid, decide_eq_true_eq, regionBase_of_header header]
    exact mark
  rw [mountDict, if_neg invalid]

/-- LOG-APPEND as mount finds it (R61). -/
def mountAppend (used : List Nat) : Nat :=
  match used.getLast? with
  | none => 0
  | some page => page + 1

/-- The store once mount has read the log region (R61). -/
def Store.logMounted (append torn : Nat) (st : Store) : Store :=
  { st with
    log := { state := .ready, append := some append }, tornPages := st.tornPages + BitVec.ofNat 32 torn, state := .ready
    mount := .idle }

theorem mountLog_eq {s : State} {h : Header} (header : s.store.header = some h) :
    let used := usedPages (h.log.start * 65536) (h.log.len * 65536) s.flash.cells
    mountLog s = completeFormat none h.table (logCauses (s.onStore (Store.logMounted (mountAppend used)
      (used.countP (pageTorn s.flash.cells (h.log.start * 65536)))))) := by
  have base : s.logBase = h.log.start * 65536 := by simp only [State.logBase, header, Config.blockBytes]
  have pages : s.store.logPages * Config.pageBytes = h.log.len * 65536 := by
    simp only [Store.logPages, header, Config.pageBytes]
    omega
  rw [mountLog, base, pages]
  simp only [onStore_store, header, Option.map_some, Option.getD_some]
  rfl

/-- Settles O28: mount read by read, the header, the CRC-16, the scan step by step, and the records entered. -/
theorem mountReadsTheMemory : Obligations.MountReadsTheMemory := by
  refine ⟨?reads, ?header, ⟨rfl, crc16_append⟩, ?scan, ?enter⟩
  case reads =>
    intro left s calm
    let v : State := s.onStore fun st => { st with reading := none }
    refine ⟨fun unmounted => ?_, fun mounted => ?_, fun reading => ⟨fun mount bad => ?failed, fun h z mount good => ?copied,
      fun h d mount header => ?dict, fun h mount header => ?log⟩⟩
    · show execMemoryReady left s = _
      rw [execMemoryReady, if_pos unmounted]
      exact congrArg Host.Outcome.next (finishStep_calm (beginMount
        (s.onFlash fun f => { f with cells := settleOrphans f.orphans left f.cells, orphans := [] })) calm)
    · show execMemoryReady left s = _
      rw [execMemoryReady, if_neg mounted]
    case failed =>
      intro failed
      have reads : mountRead v = mountFails v := by
        have bad' : parseHeader (readBytes v.flash.cells 0 37) = none := bad
        rw [mountRead_of_header (s := v) mount]
        simp only [mountHeader, bad']
      have told := mountFails_tells v
      have quiet : (mountFails v).calm := ⟨told.phase.trans calm.1, (congrArg LogWriter.flush told.log).trans calm.2⟩
      refine ⟨fun untagged => ?_, fun tag waits => ⟨_, exec_mountRead reading reads quiet, told.kept, fun room => ?_⟩⟩
      · have plain : mountFails v = { s with store := failed } := by
          have alone := completeFormat_of_none (s := v.onStore fun st =>
            { st with
              state := .unformatted, mount := .idle, header := none, timing := none, log := .blank, j := .blank
              pa := .blank, pb := .blank }) untagged (some .unformatted) []
          refine Eq.trans alone ?_
          simp only [failed, ← untagged]
          rfl
        rw [plain] at reads
        exact exec_mountRead reading reads calm
      · exact mem_completeFormat waits room
    case copied =>
      have good' : parseHeader (readBytes v.flash.cells 0 37) = some (h, z) := good
      have reads : mountRead v = _ := mountRead_of_header (s := v) mount
      simp only [mountHeader, good'] at reads
      exact exec_mountRead reading reads calm
    case dict =>
      intro base limit scan goesOn
      have reads : mountRead v = mountNext (afterDict d) (mountDict d v) := mountRead_of_dict (s := v) mount
      refine ⟨fun blank => exec_mountRead reading (u := { s with store := goesOn .blank 0 }) ?_ calm,
        fun ready => exec_mountRead reading
          (u := { s with
            dict := enterAll d scan.records s.dict
            store := goesOn { state := .ready, append := some scan.append } scan.torn }) ?_ calm⟩
      · have none_torn : s.store.tornRecords + BitVec.ofNat 32 0 = s.store.tornRecords := BitVec.add_zero _
        refine reads.trans ?_
        rw [mountDict_of_invalid (s := v) header blank]
        simp only [goesOn, none_torn]
        cases d <;> rfl
      · refine reads.trans ?_
        rw [mountDict_of_valid (s := v) header ready]
        cases d <;> rfl
    case log =>
      have reads : mountRead v = _ := (mountRead_of_log (s := v) mount).trans (mountLog_eq (s := v) header)
      have caused := logCauses_tells (v.onStore (Store.logMounted
        (mountAppend (usedPages (h.log.start * 65536) (h.log.len * 65536) v.flash.cells))
        ((usedPages (h.log.start * 65536) (h.log.len * 65536) v.flash.cells).countP
          (pageTorn v.flash.cells (h.log.start * 65536)))))
      have told := completeFormat_tells none h.table (logCauses (v.onStore (Store.logMounted
        (mountAppend (usedPages (h.log.start * 65536) (h.log.len * 65536) v.flash.cells))
        ((usedPages (h.log.start * 65536) (h.log.len * 65536) v.flash.cells).countP
          (pageTorn v.flash.cells (h.log.start * 65536))))))
      have quiet := told.phase.trans (caused.phase.trans calm.1)
      have no_flush := (congrArg LogWriter.flush told.log).trans ((congrArg LogWriter.flush caused.log).trans calm.2)
      have store := told.store.trans (congrArg (fun st : Store => { st with formatTag := none }) caused.store)
      have taken_up := takeUp_taken (completeFormat none h.table (logCauses (v.onStore (Store.logMounted
        (mountAppend (usedPages (h.log.start * 65536) (h.log.len * 65536) v.flash.cells))
        ((usedPages (h.log.start * 65536) (h.log.len * 65536) v.flash.cells).countP
          (pageTorn v.flash.cells (h.log.start * 65536)))))))
      rw [store] at taken_up
      refine ⟨_, exec_mountRead reading reads ⟨quiet, no_flush⟩, ?_, ?_, ?_, ?_, fun tag waits room => mem_settled_notices ?_⟩
      · exact (congrArg Store.state (settled_store _)).trans (congrArg Store.state taken_up.eq)
      · exact (congrArg Store.mount (settled_store _)).trans (congrArg Store.mount taken_up.eq)
      · exact (congrArg Store.log (settled_store _)).trans (congrArg Store.log taken_up.eq)
      · exact (congrArg Store.formatTag (settled_store _)).trans (congrArg Store.formatTag taken_up.eq)
      · have few := caused.few
        have same : v.host = s.host := rfl
        have waits' := (congrArg Store.formatTag caused.store).trans waits
        have table : [h.log, h.j, h.pa, h.pb].flatMap (fun r => be 2 r.start ++ be 2 r.len) = h.table := by
          simp [Header.table, Span.bytes]
        rw [table]
        exact mem_completeFormat waits' (by rw [onStore_host, same] at few; omega)
  case header =>
    intro bs h z len num span regions
    have number : ∀ i, i + 1 < 37 → be2At bs i = num i := fun i within => be2At_eq (by omega)
    have spans : ∀ i, i + 3 < 37 → spanAt bs i = span i := fun i within => by
      rw [spanAt, number i (by omega), number (i + 2) (by omega)]
    rw [parseHeader_iff, Header.valid_iff, Timing.valid_iff, number 35 (by omega), number 9 (by omega),
      number 27 (by omega), number 29 (by omega), number 31 (by omega), number 33 (by omega), spans 11 (by omega),
      spans 15 (by omega), spans 19 (by omega), spans 23 (by omega)]
    constructor
    · rintro ⟨mark, version, check, copy, timing, ⟨least, most, inside, apart, lens⟩, times⟩
      obtain ⟨log, j, pa, pb⟩ := lens
      exact ⟨mark, version, check.symm, copy, timing, least, most, inside, apart, log, j, pa, pb, times⟩
    · rintro ⟨mark, version, check, copy, timing, least, most, inside, apart, log, j, pa, pb, times⟩
      exact ⟨mark, version, check.symm, copy, timing, ⟨least, most, inside, apart, log, j, pa, pb⟩, times⟩
  case scan =>
    intro m base limit fuel off next kind n len bytes whole
    obtain ⟨stands, torn⟩ := wholeRecord_eq m base off
    refine ⟨fun past => ?_, fun inside blank => ⟨fun ends => ?_, fun within more next_used => ?_⟩, fun inside used =>
      ⟨fun is_whole => ?_, fun not_whole => ?_⟩⟩
    · rw [scanRegion, if_pos past]
    · rw [scanRegion, if_neg (by omega), if_pos ((erased_iff _).mpr blank)]
      exact if_pos ends
    · rw [scanRegion, if_neg (by omega), if_pos ((erased_iff _).mpr blank), if_neg]
      · rfl
      · rintro (aligned | beyond | empty)
        · exact within aligned
        · exact absurd more (Nat.not_lt.mpr beyond)
        · exact next_used empty
    · rw [scanRegion, if_neg (by omega), if_neg (mt (erased_iff _).mp used)]
      simp only [stands is_whole]
      rfl
    · rw [scanRegion, if_neg (by omega), if_neg (mt (erased_iff _).mp used)]
      simp only [torn not_whole]
      rfl
  case enter =>
    exact fun d records x b => ⟨enterAll_headOf d records x b, enterAll_countOf d records x b,
      fun e other => enterAll_other d records x other⟩

end Sys2Proof.Machine
end

section
/-! Three statements that name no bound of the note queue: with a note queue longer than the notice queue the COMPLETIONs of
the notes leave no room for the notice that the statement promises. -/

namespace Sys2Proof.Machine

/-! ### More queued notes than the notice queue has places -/

/-- 32 queued notes. -/
def manyNotes : List Note := List.replicate 32 { tag := 0, text := [], cls := .record }

/-- A stroke of a position, as it stands in a queue. -/
def plainStroke (p : Pos) : StrokeRec :=
  { pos := p, keys := 4, openTime := 0, timecode := 0, seq := 0, damaged := false, held := false, unlogged := false }

/-- The open stroke of a position. -/
def plainOpen : OpenStroke :=
  { keys := 4, openTime := 0, timecode := 0, damaged := false, held := false, inSession := true }

/-- The layout of a note memory. -/
def plainHeader : Header := { capacity := 256, log := ⟨1, 16⟩, j := ⟨17, 4⟩, pa := ⟨21, 4⟩, pb := ⟨25, 4⟩ }

/-- A session is OPEN and stroke-echo on; 32 notes are queued behind a held stroke; the passing floor waits for position
`p`, whose queue is full and whose stroke is open. -/
def crowdedPass : State :=
  { State.reset with
    script := { Transcript.reset with session := .opened, sessionNumber := some 1 }
    settings := { Settings.default with strokeEcho := true }
    floor := { Floor.reset with
      pos := ⟨{ PosRec.reset with state := .requesting, queue := List.replicate 64 (plainStroke .a) },
        { PosRec.reset with state := .live }⟩
      state := .passing
      waitFrom := some 0 }
    formers := ⟨{ Former.reset with openStroke := some plainOpen }, Former.reset⟩
    trans := { Translator.reset with hold := [plainStroke .b], timer := some 0, notes := manyNotes }
    store := { Store.reset with header := some plainHeader } }

/-! ### The STROKE notice of a forced pass -/

theorem crowdedPass_calm : crowdedPass.calm := by decide

theorem crowdedPass_strokeLimit :
    ∃ t, exec (.strokeLimitExpiry .a) crowdedPass = .next t ∧
      Notice.stroke .a (some crowdedPass.seqCounter) 4 0 false true true ∉ t.host.noticeLine :=
  ⟨_, rfl, by decide +kernel⟩

/-- Refutes O21: the stroke forces the pass, the hold list is resolved, and the COMPLETIONs of 32 queued notes fill the
notice queue before the STROKE notice is made. -/
theorem not_strokesCloseAndAreDisposedOf : ¬ Obligations.StrokesCloseAndAreDisposedOf := by
  intro disposed
  obtain ⟨-, -, numbered⟩ := disposed .a (.strokeLimitExpiry .a) plainOpen true crowdedPass _ 0 0 crowdedPass_calm rfl
    (.inr ⟨rfl, rfl, rfl, rfl⟩)
  obtain ⟨t, runs, -, -, -, -, echo, -⟩ := numbered true plainHeader rfl rfl rfl (by decide)
  obtain ⟨_, ran, silent⟩ := crowdedPass_strokeLimit
  cases runs.symm.trans ran
  exact silent (echo rfl (by decide))

/-! ### The COMPLETION of CLOSE-SESSION -/

/-- A session is OPEN with nothing in the log buffer; 32 notes are queued. -/
def crowdedClose : State :=
  { State.reset with
    script := { Transcript.reset with session := .opened, sessionNumber := some 1 }
    trans := { Translator.reset with notes := manyNotes } }

theorem crowdedClose_accepts : crowdedClose.accepts ∧ crowdedClose.calm := by decide

/-- The COMPLETION of the CLOSE-SESSION tagged 7. -/
def Notice.closes7 : Notice → Bool
  | .completion tag kind _ _ _ _ => decide (tag = 7 ∧ kind = 0x08)
  | _ => false

theorem crowdedClose_closes :
    ∃ t, exec (.closeSession 7 []) crowdedClose = .next t ∧ t.script.session = .closed ∧
      ∀ n ∈ t.host.noticeLine, n.closes7 = false :=
  ⟨_, rfl, by decide +kernel, by decide +kernel⟩

/-- Refutes O47: the COMPLETIONs of 32 queued notes fill the notice queue before the flush of the close ends, and the
session is CLOSED without its COMPLETION. -/
theorem not_closeSessionResolvesAndFlushes : ¬ Obligations.CloseSessionResolvesAndFlushes := by
  rintro ⟨closes, -⟩
  obtain ⟨accepts, calm⟩ := crowdedClose_accepts
  obtain ⟨-, -, opened⟩ := closes 7 crowdedClose accepts calm
  obtain ⟨t, runs, -, -, -, -, -, -, -, atOnce⟩ := opened rfl
  obtain ⟨-, -, -, -, -, -, -, -, -, -, told, -⟩ := atOnce rfl
  obtain ⟨_, ran, closed, silent⟩ := crowdedClose_closes
  cases runs.symm.trans ran
  exact absurd (silent _ (told closed (by decide))) (by simp [Notice.closes7])

/-! ### A stroke-limit that both open strokes have reached -/

/-- The crowded pass a second later, with a stroke of the LIVE position open too. -/
def crowdedLimit : State :=
  { crowdedPass with
    time := { TimeBase.reset with now := 1000000 }
    formers := ⟨{ Former.reset with openStroke := some plainOpen }, { Former.reset with openStroke := some plainOpen }⟩ }

theorem crowdedLimit_accepts : crowdedLimit.accepts ∧ crowdedLimit.calm := by decide

theorem crowdedLimit_reached (p : Pos) :
    ∃ o, (crowdedLimit.formers.get p).openStroke = some o ∧
      500 * 1000 ≤ (crowdedLimit.time.now - o.openTime).toNat := by
  cases p <;> exact ⟨plainOpen, rfl, by decide⟩

theorem crowdedLimit_set :
    ∃ t, exec (.setSetting 7 (4 :: 0 :: be 4 500)) crowdedLimit = .next t ∧
      ∀ unlogged, Notice.stroke .a (some crowdedLimit.seqCounter) 4 0 false true unlogged ∉ t.host.noticeLine :=
  ⟨_, rfl, by decide +kernel⟩

/-- Refutes O58: the stroke of A forces the pass, and the COMPLETIONs of 32 queued notes leave no room for its STROKE
notice. -/
theorem not_setPutsTheValueInForce : ¬ Obligations.SetPutsTheValueInForce := by
  intro puts
  obtain ⟨accepts, calm⟩ := crowdedLimit_accepts
  obtain ⟨-, -, -, -, -, -, reached⟩ := puts 7 4 0 500 crowdedLimit accepts calm (by decide)
  obtain ⟨-, -, -, -, strokeLimit, -⟩ := reached 500 .strokeLimit (by decide) rfl (by decide)
  obtain ⟨t, runs, each⟩ := (strokeLimit rfl).2.2 crowdedLimit_reached
  obtain ⟨_, ran, silent⟩ := crowdedLimit_set
  cases runs.symm.trans ran
  obtain ⟨unlogged, told⟩ := (each .a plainOpen rfl).2 rfl rfl (by decide)
  exact silent unlogged told

end Sys2Proof.Machine
end

section
/-! What the operations of the floor controller and the translator leave in the host's queues, the log writer and the
conditions: notices are added, records join pages, no condition is cleared (R36, R74, R118, R124). -/

namespace Sys2Proof.Machine

/-! ### Notices, records and conditions only gained -/

/-- From `s` to `t` notices were made or dropped, records joined the log pages or were refused, no condition was cleared, and
what else the host link, the log writer and the store hold has stayed, LOG-APPEND apart. -/
structure Gains (s t : State) : Prop where
  host : t.host = { s.host with notices := t.host.notices, noticesDropped := t.host.noticesDropped }
  notices : s.host.notices <+: t.host.notices
  log : t.log = { s.log with pages := t.log.pages, recordsRefused := t.log.recordsRefused }
  pages : ∀ q ∈ s.log.pages, ∃ r ∈ t.log.pages, r.page = q.page ∧ q.records <+: r.records
  store : t.store.butAppend = s.store.butAppend
  set : ∀ c, (s.conds.get c).set = true → (t.conds.get c).set = true
  time : t.time.butStamps s.time

theorem Gains.of_same {s t : State} (host : t.host = s.host) (log : t.log = s.log) (store : t.store = s.store)
    (conds : t.conds = s.conds) (time : t.time.butStamps s.time) : Gains s t :=
  ⟨by rw [host], by rw [host], by rw [log],
    fun q held => ⟨q, by rwa [log], rfl, List.prefix_rfl⟩, by rw [store], fun c => by rw [conds]; exact id, time⟩

theorem Gains.refl (s : State) : Gains s s := .of_same rfl rfl rfl rfl (TimeBase.butStamps_refl _)

theorem Gains.trans {s t u : State} (first : Gains s t) (second : Gains t u) : Gains s u where
  host := by rw [second.host, first.host]
  notices := first.notices.trans second.notices
  log := by rw [second.log, first.log]
  pages q held := by
    obtain ⟨r, kept, number, grown⟩ := first.pages q held
    obtain ⟨x, left, same, more⟩ := second.pages r kept
    exact ⟨x, left, same.trans number, grown.trans more⟩
  store := second.store.trans first.store
  set c was := second.set c (first.set c was)
  time := second.time.trans first.time

theorem Gains.after {s t u : State} (second : Gains t u) (first : Gains s t) : Gains s u := first.trans second

theorem Gains.calm {s t : State} (gains : Gains s t) (calm : s.calm) : t.calm := by
  refine ⟨?_, ?_⟩
  · rw [gains.host]; exact calm.1
  · rw [gains.log]; exact calm.2

theorem Gains.replyLine {s t : State} (gains : Gains s t) : t.host.replyLine = s.host.replyLine := by
  rw [gains.host]
  rfl

theorem Gains.mem_notices {s t : State} (gains : Gains s t) {n : Notice} (told : n ∈ s.host.notices) :
    n ∈ t.host.notices := gains.notices.subset told

theorem Gains.unloggedCount {s t : State} (gains : Gains s t) : t.log.unloggedCount = s.log.unloggedCount := by
  rw [gains.log]

theorem Gains.foldl {α : Type} {g : State → α → State} (step : ∀ s a, Gains s (g s a)) (l : List α) (s : State) :
    Gains s (l.foldl g s) := by
  induction l generalizing s with
  | nil => exact .refl s
  | cons a l ih => exact (step s a).trans (ih _)

/-! ### No condition is cleared -/

/-- No condition of `s` has been cleared in `t`. -/
def KeepsSet (s t : State) : Prop := ∀ c, (s.conds.get c).set = true → (t.conds.get c).set = true

theorem KeepsSet.trans {s t u : State} (first : KeepsSet s t) (second : KeepsSet t u) : KeepsSet s u :=
  fun c was => second c (first c was)

theorem onCond_keepsSet (c : Cond) {f : CondEntry → CondEntry} (kept : ∀ e, e.set = true → (f e).set = true) (s : State) :
    KeepsSet s (s.onCond c f) := by
  intro k was
  by_cases same : k = c
  · subst same
    have upd := Conditions.get_upd_same s.conds k f
    exact (congrArg CondEntry.set upd).trans (kept _ was)
  · exact (congrArg CondEntry.set (Conditions.get_upd_other s.conds _ _ f same)).trans was

theorem offerCondition_keepsSet (c : Cond) (raised : Bool) (s : State) : KeepsSet s (offerCondition c raised s) := by
  unfold offerCondition
  split
  · exact fun _ => id
  · exact onCond_keepsSet c (by exact fun _ => id) s.stamped

theorem setCause_keepsSet (c : Cond) (present : Bool) (s : State) : KeepsSet s (setCause c present s) := by
  unfold setCause causePresent causeAbsent
  (repeat' split)
  · exact fun _ => id
  · exact onCond_keepsSet c (by exact fun _ => id) s
  · exact (onCond_keepsSet c (by exact fun _ _ => rfl) s).trans (offerCondition_keepsSet c true _)
  · exact (onCond_keepsSet c (by exact fun _ => id) s).trans (offerCondition_keepsSet c false _)
  · exact onCond_keepsSet c (by exact fun _ => id) s

theorem raiseLatched_keepsSet (c : Cond) (s : State) : KeepsSet s (raiseLatched c s) := by
  unfold raiseLatched
  split
  · exact onCond_keepsSet c (by exact fun _ => id) s
  · exact ((onCond_keepsSet c (by exact fun _ _ => rfl) s).trans (offerCondition_keepsSet c true _)).trans
      (onCond_keepsSet c (by exact fun _ => id) _)

theorem raiseLatched_set (c : Cond) (s : State) : ((raiseLatched c s).conds.get c).set = true := by
  unfold raiseLatched
  split
  next was => exact (congrArg CondEntry.set (Conditions.get_upd_same s.conds c _)).trans was
  next =>
    refine onCond_keepsSet c (by exact fun _ => id) _ c (offerCondition_keepsSet c true _ c ?_)
    exact congrArg CondEntry.set (Conditions.get_upd_same s.conds c _)

theorem offerNotice_keepsSet (n : Notice) (s : State) : KeepsSet s (offerNotice n s) := by
  unfold offerNotice
  split
  · exact fun _ => id
  · exact raiseLatched_keepsSet .noticeOverflow (s.onHost _)

/-! ### Notices -/

theorem Tells.gains {n : Nat} {s t : State} (tells : Tells n s t) (set : KeepsSet s t) : Gains s t where
  host := tells.link
  notices := tells.notices
  log := by rw [tells.kept]
  pages q held := ⟨q, by rw [tells.kept]; exact held, rfl, List.prefix_rfl⟩
  store := by rw [tells.kept]
  set := set
  time := tells.stamps

theorem setCause_gains (c : Cond) (present : Bool) (s : State) : Gains s (setCause c present s) :=
  (setCause_tells c present s).gains (setCause_keepsSet c present s)

theorem raiseLatched_gains (c : Cond) (s : State) : Gains s (raiseLatched c s) :=
  (raiseLatched_tells c s).gains (raiseLatched_keepsSet c s)

theorem offerNotice_gains (n : Notice) (s : State) : Gains s (offerNotice n s) :=
  (offerNotice_tells n s).gains (offerNotice_keepsSet n s)

theorem complete_gains (tag kind : Byte) (failed : Option Reason) (data : Bytes) (s : State) :
    Gains s (complete tag kind failed data s) := offerNotice_gains _ s

theorem logCauses_gains (s : State) : Gains s (logCauses s) := (setCause_gains _ _ s).trans (setCause_gains _ _ _)

theorem Gains.stamped (s : State) : Gains s s.stamped := .of_same rfl rfl rfl rfl (stamped_time s)

/-! ### Records -/

theorem BufPage.take_page (rec : Bytes) (q : BufPage) : (q.take rec).page = q.page := by
  unfold BufPage.take
  split <;> rfl

theorem BufPage.records_take (rec : Bytes) (q : BufPage) : q.records <+: (q.take rec).records := by
  unfold BufPage.take
  split
  · exact List.prefix_append _ _
  · exact List.prefix_rfl

theorem offerRecord_gains (rec : Bytes) (s : State) : Gains s (offerRecord rec s).1 := by
  unfold offerRecord
  split
  · exact .refl s
  split
  · refine ⟨rfl, List.prefix_rfl, rfl, fun q held => ?_, rfl, fun _ => id, TimeBase.butStamps_refl _⟩
    exact ⟨q.take rec, List.mem_map_of_mem held, q.take_page rec, q.records_take rec⟩
  split
  · exact .refl s
  · refine (logCauses_gains _).after ⟨rfl, List.prefix_rfl, rfl, fun q held => ?_, rfl, fun _ => id,
      TimeBase.butStamps_refl _⟩
    exact ⟨q, List.mem_append_left _ held, rfl, List.prefix_rfl⟩

theorem offerOther_gains (rec : Bytes) (s : State) : Gains s (offerOther rec s) := by
  unfold offerOther
  dsimp only
  split
  · exact offerRecord_gains rec s
  · have refused := offerRecord_gains rec s
    exact ⟨refused.host, refused.notices, by rw [onLog_log, refused.log], refused.pages, refused.store, refused.set,
      refused.time⟩

/-! ### Floor changes -/

theorem floorVacantCause_gains (s : State) : Gains s (floorVacantCause s) := setCause_gains _ _ s

theorem announceFloor_gains (cause : FloorCause) (dropped : Nat) (s : State) : Gains s (announceFloor cause dropped s) :=
  (offerOther_gains _ _).after ((offerNotice_gains _ _).after (.stamped s))

theorem floorChanged_gains (cause : FloorCause) (dropped : Nat) (s : State) : Gains s (floorChanged cause dropped s) := by
  unfold floorChanged
  split
  · exact (floorVacantCause_gains _).after (announceFloor_gains _ _ s)
  · exact floorVacantCause_gains s

theorem floorChanged_hasCause (cause : FloorCause) (dropped : Nat) (s : State) :
    (floorChanged cause dropped s).hasCause .floorVacant = (s.sessionOpen && decide (s.floor.state = .vacant)) := by
  unfold floorChanged floorVacantCause
  rw [setCause_hasCause_same]
  split <;> simp [State.sessionOpen]

theorem Gains.floorChanged {s t : State} (first : Gains s t) (cause : FloorCause) (dropped : Nat) :
    Gains s (floorChanged cause dropped t) := first.trans (floorChanged_gains cause dropped t)

theorem Gains.onFloor (s : State) (f : Floor → Floor) : Gains s (s.onFloor f) :=
  .of_same rfl rfl rfl rfl (TimeBase.butStamps_refl _)

theorem Gains.onTrans (s : State) (f : Translator → Translator) : Gains s (s.onTrans f) :=
  .of_same rfl rfl rfl rfl (TimeBase.butStamps_refl _)

/-! ### Units, notes and resolutions -/

theorem freeHead_gains (s : State) : Gains s (freeHead s) := by
  unfold freeHead
  split
  · exact .refl s
  · dsimp only
    unfold breakLock
    split
    · exact (raiseLatched_gains _ _).after (.of_same (by simp) (by simp) (by simp) (by simp) (by simp [TimeBase.butStamps]))
    · exact .of_same (by simp) (by simp) (by simp) (by simp) (by simp [TimeBase.butStamps])

theorem createUnit_gains (u : TUnit) (s : State) : Gains s (createUnit u s) := by
  have room : Gains s (if Config.unitsMax ≤ s.script.units.length then freeHead s else s) := by
    split
    · exact freeHead_gains s
    · exact .refl s
  unfold createUnit
  dsimp only
  split
  · exact room.trans (.of_same (by simp) (by simp) (by simp) (by simp) (by simp [TimeBase.butStamps]))
  · exact room.trans (.of_same (by simp) (by simp) (by simp) (by simp) (by simp [TimeBase.butStamps]))

theorem resolveHold_gains (s : State) : Gains s (resolveHold s) :=
  .of_same (by simp) (by simp) (by simp) (by simp) (by simp [TimeBase.butStamps])

theorem insertNote_gains (n : Note) (s : State) : Gains s (insertNote n s) := by
  unfold insertNote
  dsimp only
  exact (Gains.onTrans _ _).after ((offerOther_gains _ _).after ((createUnit_gains _ _).after (.stamped s)))

theorem insertNotes_gains (s : State) : Gains s (insertNotes s) := by
  unfold insertNotes
  split
  · exact (Gains.onTrans _ _).after (Gains.foldl (fun t n => (complete_gains _ _ _ _ _).after (insertNote_gains n t)) _ s)
  · exact .refl s

theorem resolveOrder_gains (s : State) : Gains s (resolveOrder s) := by
  unfold resolveOrder
  split
  · exact .onTrans s _
  split
  · exact .refl s
  · exact (insertNotes_gains _).after ((Gains.onTrans _ _).after (resolveHold_gains s))

/-! ### What the resolve order leaves of the translator -/

/-- A unit that is created may take the freed head out of the untranslate list. -/
theorem createUnit_trans (u : TUnit) (s : State) :
    (createUnit u s).trans = { s.trans with untranslates := (createUnit u s).trans.untranslates } := by
  unfold createUnit freeHead
  (repeat' split) <;> simp [dropUntranslate]

theorem insertNote_trans (n : Note) (s : State) :
    (insertNote n s).trans = { s.trans with
      notesInserted := s.trans.notesInserted + 1, untranslates := (insertNote n s).trans.untranslates } := by
  have created := createUnit_trans (noteUnit n s.trans.base s.stamp) s.stamped
  simp only [insertNote, onTrans_trans, offerOther_frame]
  rw [created]
  rfl

theorem insertQueued_trans (n : Note) (s : State) : (insertQueued n s).trans = (insertNote n s).trans := by
  simp [insertQueued]

theorem insertNotes_hold (s : State) : (insertNotes s).trans.hold = s.trans.hold := by
  have each : ∀ (notes : List Note) (s : State),
      (notes.foldl (fun s n => insertQueued n s) s).trans.hold = s.trans.hold := by
    intro notes
    induction notes with
    | nil => exact fun _ => rfl
    | cons n notes ih =>
      intro s
      rw [List.foldl_cons, ih]
      rw [insertQueued_trans, insertNote_trans]
  unfold insertNotes
  split
  · exact each _ s
  · rfl

theorem resolveOrder_of_inFlight {s : State} (flies : s.trans.inFlight ≠ none) :
    resolveOrder s = s.onTrans fun t => { t with resolvePending := true } := by
  unfold resolveOrder
  split
  · rfl
  next rests => exact absurd rests flies

theorem resolveOrder_hold {s : State} (rests : s.trans.inFlight = none) : (resolveOrder s).trans.hold = [] := by
  unfold resolveOrder
  rw [rests]
  dsimp only
  split
  next empty => exact List.isEmpty_iff.mp empty
  · rw [insertNotes_hold]
    rfl

end Sys2Proof.Machine
end

section
/-! The floor after a take, a pass, a cancel and a loss (R27, R28, R30, R31, R33, R34). -/

namespace Sys2Proof.Machine

/-! ### The LIVE and the REQUESTING position -/

theorem otherPos_ne (p : Pos) : otherPos p ≠ p := by cases p <;> decide

theorem eq_otherPos {p q : Pos} (other : q ≠ p) : q = otherPos p := by
  cases p <;> cases q <;> first | rfl | exact absurd rfl other

theorem Floor.live_of {f : Floor} {p : Pos} (live : (f.pos.get p).state = .live)
    (other : (f.pos.get (otherPos p)).state ≠ .live) : f.live = some p := by
  cases p
  · exact if_pos live
  · exact (if_neg other).trans (if_pos live)

theorem Floor.requesting_of {f : Floor} {p : Pos} (requesting : (f.pos.get p).state = .requesting)
    (other : (f.pos.get (otherPos p)).state ≠ .requesting) : f.requesting = some p := by
  cases p
  · exact if_pos requesting
  · exact (if_neg other).trans (if_pos requesting)

/-! ### Taking the floor -/

theorem takeFloor_gains (p : Pos) (cause : FloorCause) (s : State) : Gains s (takeFloor p cause s) :=
  (floorChanged_gains _ _ _).after ((Gains.onFloor _ _).after (Gains.onFloor s _))

theorem takeFloor_floor (p : Pos) (cause : FloorCause) (s : State) :
    (takeFloor p cause s).floor = { s.floor with
      pos := s.floor.pos.upd p (fun r => { r with state := .live }), state := .held, waitFrom := none } := by
  simp only [takeFloor, floorChanged_frame]
  rfl

/-! ### Passes -/

theorem cleanPass_gains (off on : Pos) (s : State) : Gains s (cleanPass off on s) :=
  (floorChanged_gains _ _ _).after ((Gains.onFloor _ _).after ((Gains.onFloor _ _).after (Gains.onFloor s _)))

theorem cleanPass_floor (off on : Pos) (s : State) :
    (cleanPass off on s).floor = { s.floor with
      pos := (s.floor.pos.upd off (fun r => { r with state := .shadow })).upd on (fun r => { r with state := .live })
      state := .held
      waitFrom := none
      cleanPasses := s.floor.cleanPasses + 1 } := by
  simp only [cleanPass, floorChanged_frame]
  rfl

theorem cleanTest_gains (s : State) : Gains s (cleanTest s) := by
  unfold cleanTest
  (repeat' split)
  · exact cleanPass_gains _ _ s
  all_goals exact .refl s

theorem cleanTest_of_not_passing {s : State} (still : s.floor.state ≠ .passing) : cleanTest s = s := by
  unfold cleanTest
  split
  next passing _ _ => exact absurd passing still
  · rfl

/-- The clean boundary (R30): nothing in flight, held or queued by the off-going position. -/
theorem cleanTest_of_passing {s : State} {off : Pos} (passing : s.floor.state = .passing)
    (live : (s.posRec off).state = .live) (requesting : (s.posRec (otherPos off)).state = .requesting) :
    cleanTest s = if s.trans.inFlight = none ∧ s.trans.hold = [] ∧ (s.posRec off).queue = [] then
      cleanPass off (otherPos off) s else s := by
  have is_live : s.floor.live = some off :=
    Floor.live_of live (by rw [State.posRec] at requesting; rw [requesting]; decide)
  have is_requesting : s.floor.requesting = some (otherPos off) := by
    refine Floor.requesting_of requesting ?_
    rw [State.posRec] at live
    cases off <;> exact live.trans_ne (by decide)
  simp [cleanTest, passing, is_live, is_requesting, Translator.atRest, and_assoc]

theorem beginPass_gains (p : Pos) (cause : FloorCause) (s : State) : Gains s (beginPass p cause s) :=
  (cleanTest_gains _).after ((floorChanged_gains _ _ _).after ((Gains.onFloor _ _).after (Gains.onFloor s _)))

theorem beginPass_floor {p : Pos} {cause : FloorCause} {s : State} (live : (s.posRec (otherPos p)).state = .live) :
    (beginPass p cause s).floor =
      if s.trans.inFlight = none ∧ s.trans.hold = [] ∧ (s.posRec (otherPos p)).queue = [] then
        { s.floor with
          pos := (s.floor.pos.upd p (fun r => { r with state := .live, queue := [] })).upd (otherPos p)
            (fun r => { r with state := .shadow })
          state := .held
          waitFrom := none
          cleanPasses := s.floor.cleanPasses + 1 }
      else
        { s.floor with
          pos := s.floor.pos.upd p (fun r => { r with state := .requesting, queue := [] })
          state := .passing
          waitFrom := some s.time.now } := by
  unfold beginPass
  dsimp only
  generalize posted : floorChanged cause 0 _ = u
  have floor : u.floor = { s.floor with
      pos := s.floor.pos.upd p (fun r => { r with state := .requesting, queue := [] })
      state := .passing
      waitFrom := some s.time.now } := by
    rw [← posted]
    simp only [floorChanged_frame]
    rfl
  have trans : u.trans = s.trans := by
    rw [← posted]
    simp only [floorChanged_frame]
    rfl
  have others : u.posRec (otherPos p) = s.posRec (otherPos p) := by
    rw [State.posRec, floor]
    exact Two.get_upd_other _ _ _ _ (otherPos_ne p)
  have requests : (u.posRec (otherPos (otherPos p))).state = .requesting := by
    have back : otherPos (otherPos p) = p := by cases p <;> rfl
    rw [State.posRec, floor, back]
    exact congrArg PosRec.state (Two.get_upd_same _ _ _)
  rw [cleanTest_of_passing (by rw [floor]) (by rw [others]; exact live) requests, trans, others]
  split
  · rw [cleanPass_floor, floor]
    cases p <;> rfl
  · exact floor

theorem forcePass_gains (off on : Pos) (cause : FloorCause) (s : State) : Gains s (forcePass off on cause s) :=
  (floorChanged_gains _ _ _).after ((Gains.onFloor _ _).after ((Gains.onFloor _ _).after ((Gains.onFloor _ _).after
    (resolveOrder_gains s))))

theorem forcePass_floor (off on : Pos) (cause : FloorCause) (s : State) :
    (forcePass off on cause s).floor = { s.floor with
      pos := (s.floor.pos.upd off (fun r =>
          { r with
            state := .shadow
            queue := []
            pending := none
            relayDrops := r.relayDrops + BitVec.ofNat 32 (r.queue.length + r.pending.toList.length) })).upd on
        (fun r => { r with state := .live })
      state := .held
      waitFrom := none
      forcedPasses := s.floor.forcedPasses + 1 } := by
  have kept : (resolveOrder s).floor = s.floor := by simp
  simp only [forcePass, floorChanged_frame, onFloor_floor, State.onPos, kept]
  rfl

theorem forcePass_trans (off on : Pos) (cause : FloorCause) (s : State) :
    (forcePass off on cause s).trans = (resolveOrder s).trans := by
  simp [forcePass]

theorem cancelPass_gains (p : Pos) (st : PosState) (s : State) : Gains s (cancelPass p st s) :=
  (floorChanged_gains _ _ _).after ((Gains.onFloor _ _).after (Gains.onFloor s _))

theorem cancelPass_floor (p : Pos) (st : PosState) (s : State) :
    (cancelPass p st s).floor = { s.floor with
      pos := s.floor.pos.upd p (fun r =>
        { r with
          state := st
          queue := []
          pending := none
          relayDrops := r.relayDrops + BitVec.ofNat 32 (r.queue.length + r.pending.toList.length) })
      state := .held
      waitFrom := none
      cancelledPasses := s.floor.cancelledPasses + 1 } := by
  simp only [cancelPass, floorChanged_frame]
  rfl

/-! ### The loss of the LIVE position -/

theorem losePos_gains (p : Pos) (st : PosState) (s : State) : Gains s (losePos p st s) := by
  have after : ∀ q t, Gains t (floorAfterLoss q t) := by
    intro q t
    unfold floorAfterLoss
    split
    · exact (Gains.onFloor _ _).after (Gains.onFloor t _)
    · exact Gains.onFloor t _
  exact (floorChanged_gains _ _ _).after ((Gains.onFloor _ _).after ((after _ _).after ((Gains.onFloor _ _).after
    (resolveOrder_gains s))))

theorem floorAfterLoss_floor (q : Pos) (s : State) :
    (floorAfterLoss q s).floor = { s.floor with
      pos := s.floor.pos.upd q (fun x => if x.state = .requesting then { x with state := .live } else x)
      state := if (s.posRec q).state = .requesting then .held else .vacant
      waitFrom := none } := by
  unfold floorAfterLoss
  split
  next requesting =>
    have same : s.floor.pos.upd q (PosRec.become .live) =
        s.floor.pos.upd q (fun x => if x.state = .requesting then { x with state := .live } else x) :=
      Two.upd_eq_of_get (if_pos requesting).symm
    rw [← same]
    rfl
  next other =>
    have same : s.floor.pos.upd q (fun x => if x.state = .requesting then { x with state := .live } else x) =
        s.floor.pos := Two.upd_id (if_neg other)
    rw [same]
    rfl

theorem losePos_floor (p : Pos) (st : PosState) (s : State) :
    (losePos p st s).floor = { s.floor with
      pos := (s.floor.pos.upd p (fun r =>
          { r with
            state := st
            queue := []
            pending := none
            relayDrops := r.relayDrops + BitVec.ofNat 32 (r.queue.length + r.pending.toList.length) })).upd (otherPos p)
        (fun x => if x.state = .requesting then { x with state := .live } else x)
      state := if (s.posRec (otherPos p)).state = .requesting then .held else .vacant
      waitFrom := none
      floorLosses := s.floor.floorLosses + 1 } := by
  have kept : (resolveOrder s).floor = s.floor := by simp
  simp only [losePos, floorChanged_frame, onFloor_floor, floorAfterLoss_floor, State.onPos, State.posRec, kept]
  rw [Two.get_upd_other _ _ _ _ (otherPos_ne p)]
  rfl

theorem losePos_trans (p : Pos) (st : PosState) (s : State) : (losePos p st s).trans = (resolveOrder s).trans := by
  simp [losePos]

theorem losePos_hasCause (p : Pos) (st : PosState) (s : State) :
    (losePos p st s).hasCause .floorVacant =
      (s.sessionOpen && decide ((s.posRec (otherPos p)).state ≠ .requesting)) := by
  have session : (losePos p st s).sessionOpen = s.sessionOpen := by simp [losePos, State.sessionOpen]
  have vacant : (losePos p st s).hasCause .floorVacant =
      ((losePos p st s).sessionOpen && decide ((losePos p st s).floor.state = .vacant)) := by
    unfold losePos
    dsimp only
    rw [floorChanged_hasCause, State.sessionOpen, State.sessionOpen]
    simp only [floorChanged_frame]
  rw [vacant, session, losePos_floor]
  congr 1
  by_cases requesting : (s.posRec (otherPos p)).state = .requesting <;> simp [requesting]

end Sys2Proof.Machine
end

section
/-! HANDOVER, the forced pass and WRITER-ENABLE (R17, R23, R29 to R34). -/

namespace Sys2Proof.Machine

/-! ### What the end of a step keeps -/

theorem settled_kept (s : State) : s.settled = { s with
    time := s.settled.time, store := s.settled.store, log := s.settled.log, dict := s.settled.dict
    host := s.settled.host, conds := s.settled.conds } := by
  refine State.eq_of_blocks ?_ ?_ ?_ ?_ rfl ?_ rfl rfl rfl ?_ ?_ ?_ ?_ ?_ rfl rfl ?_ ?_ <;>
    simp [State.settled, State.takeUp]

theorem settled_floor (s : State) : s.settled.floor = s.floor := by rw [settled_kept]

theorem settled_trans (s : State) : s.settled.trans = s.trans := by rw [settled_kept]

/-! ### HANDOVER -/

theorem posOfCode_eq_none {n : Nat} (above : 1 < n) : posOfCode n = none := by
  match n, above with
  | n + 2, _ => rfl

theorem handover_finishes (tag pos : Byte) (s : State) :
    exec (.handover tag [pos]) s = .next (finishStep (takeRequest tag true false (handoverRule [pos]) noAfter s)) := rfl

theorem handoverRule_of_not_open {pos : Byte} {s : State} (closed : s.script.session ≠ .opened) :
    handoverRule [pos] s = (s, .refused .noSession) := by
  simp [handoverRule, State.sessionOpen, closed]

theorem handoverRule_of_bad {pos : Byte} {s : State} (opened : s.script.session = .opened) (bad : 1 < pos.toNat) :
    handoverRule [pos] s = (s, .refused .badValue) := by
  simp [handoverRule, State.sessionOpen, opened, posOfCode_eq_none bad]

theorem handoverRule_of_open {pos : Byte} {p : Pos} {s : State} (opened : s.script.session = .opened)
    (named : posOfCode pos.toNat = some p) : handoverRule [pos] s = handoverTo p s := by
  simp [handoverRule, State.sessionOpen, opened, named]

section
variable {p : Pos} {s : State}

theorem handoverTo_of_lost (lost : (s.posRec p).state = .off ∨ (s.posRec p).state = .down) :
    handoverTo p s = (s, .refused .regionState) := by
  unfold handoverTo
  rcases lost with lost | lost <;> rw [lost]

theorem handoverTo_of_idle
    (idle : (s.posRec p).state = .requesting ∨ (s.posRec p).state = .live ∧ s.floor.state = .held) :
    handoverTo p s = (s, .done []) := by
  unfold handoverTo
  rcases idle with requesting | ⟨live, held⟩
  · rw [requesting]
  · rw [live, held]

theorem handoverTo_of_vacant (shadow : (s.posRec p).state = .shadow) (vacant : s.floor.state = .vacant) :
    handoverTo p s = (takeFloor p .handover s, .done []) := by
  unfold handoverTo
  rw [shadow, vacant]

theorem handoverTo_of_held (shadow : (s.posRec p).state = .shadow) (held : s.floor.state = .held) :
    handoverTo p s = (beginPass p .handover s, .done []) := by
  unfold handoverTo
  rw [shadow, held]

theorem handoverTo_of_live (live : (s.posRec p).state = .live) (passing : s.floor.state = .passing) :
    handoverTo p s = (cancelPass (otherPos p) .shadow s, .done []) := by
  unfold handoverTo
  rw [live, passing]

end

/-- A floor change that HANDOVER brings: the reply, and the blocks that stay. -/
theorem handover_acts {tag pos : Byte} {p : Pos} {s u : State} (accepts : s.accepts) (calm : s.calm)
    (opened : s.script.session = .opened) (named : posOfCode pos.toNat = some p)
    (acts : handoverTo p s.counted = (u, .done [])) (gains : Gains s.counted u)
    (kept : u = { s.counted with
      floor := u.floor, time := u.time, store := u.store, log := u.log, host := u.host, conds := u.conds }) :
    ∃ t, exec (.handover tag [pos]) s = .next t ∧
      { tag := tag, result := .done [], after := .nothing } ∈ t.host.replyLine ∧
      t = { s with
        floor := t.floor, time := t.time, store := t.store, log := t.log, dict := t.dict, host := t.host,
        conds := t.conds } ∧
      t.floor = u.floor := by
  have rule : handoverRule [pos] s.counted = (u, .done []) := (handoverRule_of_open (s := s.counted) opened named).trans acts
  refine ⟨(addReply tag (.done []) .nothing u).settled, ?_, mem_settled_addReply _ _ _ _, ?_, settled_floor _⟩
  · rw [handover_finishes, finishStep_request_taken accepts rule (gains.calm ⟨calm.1, calm.2⟩)]
  · rw [settled_kept, addReply, kept]
    rfl

theorem floorChange_kept {u s : State} (links : u.links = s.links) (formers : u.formers = s.formers)
    (seq : u.seqCounter = s.seqCounter) (flash : u.flash = s.flash) (dict : u.dict = s.dict) (trans : u.trans = s.trans)
    (script : u.script = s.script) (feeds : u.feeds = s.feeds) (fmt : u.fmt = s.fmt) (ports : u.ports = s.ports)
    (settings : u.settings = s.settings) (pending : u.pending = s.pending) :
    u = { s with
      floor := u.floor, time := u.time, store := u.store, log := u.log, host := u.host, conds := u.conds } :=
  State.eq_of_blocks links formers seq rfl rfl flash rfl rfl dict trans script feeds fmt ports rfl rfl settings pending

theorem takeFloor_kept (p : Pos) (cause : FloorCause) (s : State) : takeFloor p cause s = { s with
    floor := (takeFloor p cause s).floor, time := (takeFloor p cause s).time, store := (takeFloor p cause s).store
    log := (takeFloor p cause s).log, host := (takeFloor p cause s).host, conds := (takeFloor p cause s).conds } := by
  apply floorChange_kept <;> simp

theorem beginPass_kept (p : Pos) (cause : FloorCause) (s : State) : beginPass p cause s = { s with
    floor := (beginPass p cause s).floor, time := (beginPass p cause s).time, store := (beginPass p cause s).store
    log := (beginPass p cause s).log, host := (beginPass p cause s).host, conds := (beginPass p cause s).conds } := by
  apply floorChange_kept <;> simp

theorem cancelPass_kept (p : Pos) (st : PosState) (s : State) : cancelPass p st s = { s with
    floor := (cancelPass p st s).floor, time := (cancelPass p st s).time, store := (cancelPass p st s).store
    log := (cancelPass p st s).log, host := (cancelPass p st s).host, conds := (cancelPass p st s).conds } := by
  apply floorChange_kept <;> simp

/-! ### The forced pass -/

theorem forceByWait_of_passing {s : State} {off on : Pos} (passing : s.floor.state = .passing) (differ : off ≠ on)
    (live : (s.posRec off).state = .live) (requesting : (s.posRec on).state = .requesting) :
    forceByWait s = forcePass off on .forcedWait s := by
  obtain rfl := eq_otherPos (Ne.symm differ)
  have is_live : s.floor.live = some off :=
    Floor.live_of live (by rw [State.posRec] at requesting; rw [requesting]; decide)
  have is_requesting : s.floor.requesting = some (otherPos off) := by
    refine Floor.requesting_of requesting ?_
    rw [State.posRec] at live
    cases off <;> exact live.trans_ne (by decide)
  simp [forceByWait, passing, is_live, is_requesting]

/-- What a forced pass does to the translator (R31, R118). -/
theorem forcePass_resolves (off on : Pos) (cause : FloorCause) (s : State) :
    (s.trans.inFlight = none → (forcePass off on cause s).trans.hold = []) ∧
      (s.trans.inFlight ≠ none → (forcePass off on cause s).trans = { s.trans with resolvePending := true }) := by
  rw [forcePass_trans]
  exact ⟨resolveOrder_hold, fun flies => by rw [resolveOrder_of_inFlight flies]; rfl⟩

theorem floorWait_forces (t0 : LocalTime) (off on : Pos) (s : State) (calm : s.calm) (waits : s.floor.waitFrom = some t0)
    (passing : s.floor.state = .passing) (differ : off ≠ on) (live : (s.posRec off).state = .live)
    (requesting : (s.posRec on).state = .requesting) :
    ∃ u, u = s.runTo t0 (s.settings.floorWait * 1000) ∧
      exec .floorWaitExpiry s = .next (forcePass off on .forcedWait u).settled := by
  refine ⟨_, rfl, ?_⟩
  show execFloorWaitExpiry s = _
  have same : (s.runTo t0 (s.settings.floorWait * 1000)).floor = s.floor := by simp
  simp only [execFloorWaitExpiry, waits]
  rw [forceByWait_of_passing (by rw [same]; exact passing) differ (by rw [State.posRec, same]; exact live)
    (by rw [State.posRec, same]; exact requesting),
    finishStep_calm _ ((forcePass_gains _ _ _ _).calm (runTo_calm calm _ _))]

/-- Settles O25: the requests by the row of R29 they meet, the expiry by `forcePass_floor`. -/
theorem handoverMovesTheFloor : Obligations.HandoverMovesTheFloor := by
  refine ⟨fun tag pos s accepts calm => ⟨?closed, fun opened => ⟨?bad, fun p named => ⟨?lost, ?idle, ?moves⟩⟩⟩,
    fun t0 off on s calm waits passing differ live requesting => ?forced⟩
  case closed =>
    intro closed
    rw [handover_finishes, finishStep_request_refused accepts calm (handoverRule_of_not_open closed)]
  case bad =>
    intro bad
    rw [handover_finishes, finishStep_request_refused accepts calm (handoverRule_of_bad opened bad)]
  case lost =>
    intro lost
    rw [handover_finishes, finishStep_request_refused accepts calm
      ((handoverRule_of_open (s := s.counted) opened named).trans (handoverTo_of_lost (s := s.counted) lost))]
  case idle =>
    intro idle
    rw [handover_finishes, finishStep_request_refused accepts calm
      ((handoverRule_of_open (s := s.counted) opened named).trans (handoverTo_of_idle (s := s.counted) idle))]
  case moves =>
    rintro (⟨shadow, still⟩ | ⟨is_live, passing⟩)
    · have shadow_counted : (s.counted.posRec p).state = .shadow := shadow
      cases floor : s.floor.state with
      | passing => exact absurd floor still
      | vacant =>
        have vacant_counted : s.counted.floor.state = .vacant := floor
        obtain ⟨t, runs, answered, kept, floor_is⟩ := handover_acts accepts calm opened named
          (handoverTo_of_vacant shadow_counted vacant_counted) (takeFloor_gains _ _ _) (takeFloor_kept _ _ _)
        refine ⟨t, runs, answered, kept, fun _ _ => ?_, (by rintro - ⟨⟩), fun live => ?_⟩
        · rw [floor_is, takeFloor_floor]
          rfl
        · exact absurd (live.symm.trans shadow) (by decide)
      | held =>
        have held_counted : s.counted.floor.state = .held := floor
        obtain ⟨t, runs, answered, kept, floor_is⟩ := handover_acts accepts calm opened named
          (handoverTo_of_held shadow_counted held_counted) (beginPass_gains _ _ _) (beginPass_kept _ _ _)
        refine ⟨t, runs, answered, kept, (by rintro - ⟨⟩), fun _ _ other => ?_, fun live => ?_⟩
        · rw [floor_is, beginPass_floor (s := s.counted) other]
          rfl
        · exact absurd (live.symm.trans shadow) (by decide)
    · have live_counted : (s.counted.posRec p).state = .live := is_live
      have passing_counted : s.counted.floor.state = .passing := passing
      obtain ⟨t, runs, answered, kept, floor_is⟩ := handover_acts accepts calm opened named
        (handoverTo_of_live live_counted passing_counted) (cancelPass_gains _ _ _) (cancelPass_kept _ _ _)
      refine ⟨t, runs, answered, kept, fun shadow => ?_, fun shadow => ?_, fun _ _ => ?_⟩
      · exact absurd (shadow.symm.trans is_live) (by decide)
      · exact absurd (shadow.symm.trans is_live) (by decide)
      · rw [floor_is, cancelPass_floor]
        rfl
  case forced =>
    obtain ⟨u, ran, runs⟩ := floorWait_forces t0 off on s calm waits passing differ live requesting
    have floor : u.floor = s.floor := by rw [ran]; simp
    have hold : u.trans.hold = s.trans.hold := by rw [ran]; unfold State.runTo; split <;> rfl
    have flight : u.trans.inFlight = s.trans.inFlight := by rw [ran]; unfold State.runTo; split <;> rfl
    obtain ⟨resolves, pends⟩ := forcePass_resolves off on .forcedWait u
    refine ⟨_, runs, ?_, fun rests => ?_, fun flies => ?_, ?_⟩
    · rw [settled_floor, forcePass_floor, floor]
    · rw [settled_trans]
      exact resolves (flight.trans rests)
    · rw [settled_trans, pends (flight.trans_ne flies), hold]
      exact ⟨rfl, rfl⟩
    · have frame : u = { s with time := u.time, store := u.store, trans := u.trans } := by
        rw [ran]
        unfold State.runTo
        split <;> rfl
      rw [settled_kept]
      refine State.eq_of_blocks ?_ ?_ ?_ rfl rfl ?_ rfl rfl rfl rfl rfl rfl ?_ ?_ rfl rfl ?_ ?_ <;>
        (dsimp only; simp only [forcePass_frame]; rw [frame])

end Sys2Proof.Machine
end

section
/-! WRITER-ENABLE (R17, R23, R33, R34). -/

namespace Sys2Proof.Machine

/-- The formers once the open stroke of a disabled position has been abandoned (R17). -/
def State.abandoned (s : State) (p : Pos) : Two Former :=
  s.formers.upd p (fun f =>
    { f with openStroke := none, discarded := if f.openStroke = none then f.discarded else f.discarded + 1 })

theorem abandonStroke_eq (p : Pos) (s : State) : abandonStroke p s = { s with formers := s.abandoned p } := by
  show { s with formers := _ } = _
  congr 1
  refine Two.upd_eq_of_get ?_
  cases open_ : (s.formers.get p).openStroke with
  | none =>
    simp only [if_true]
    rw [← open_]
  | some o => simp only [reduceCtorEq, if_false]

/-! ### The rule -/

theorem writerEnable_finishes (tag pos sw : Byte) (s : State) :
    exec (.writerEnable tag [pos, sw]) s =
      .next (finishStep (takeRequest tag true false (writerEnableRule [pos, sw]) noAfter s)) := rfl

theorem switchOf_eq_none {n : Nat} (above : 1 < n) : switchOf n = none := by
  match n, above with
  | n + 2, _ => rfl

theorem writerEnableRule_of_bad {pos sw : Byte} {s : State} (bad : 1 < pos.toNat ∨ 1 < sw.toNat) :
    writerEnableRule [pos, sw] s = (s, .refused .badValue) := by
  rcases bad with bad | bad
  · simp [writerEnableRule, posOfCode_eq_none bad]
  · cases position : posOfCode pos.toNat <;> simp [writerEnableRule, switchOf_eq_none bad, position]

theorem writerEnableRule_on {pos : Byte} {p : Pos} {s : State} (named : posOfCode pos.toNat = some p) :
    writerEnableRule [pos, 1#8] s = (enablePos p s, .done []) := by
  simp [writerEnableRule, named, switchOf]

theorem writerEnableRule_off {pos : Byte} {p : Pos} {s : State} (named : posOfCode pos.toNat = some p) :
    writerEnableRule [pos, 0#8] s = (disablePos p s, .done []) := by
  simp [writerEnableRule, named, switchOf]

/-! ### ON -/

theorem enablePos_of_off {p : Pos} {s : State} (off : (s.posRec p).state = .off) :
    enablePos p s = { s with
      floor := { s.floor with pos := s.floor.pos.upd p (fun r =>
        { r with state := if (s.links.get p).link = .up then .shadow else .down }) }
      formers := s.formers.upd p (fun f =>
        { f with latched := if (s.links.get p).link = .up then (s.links.get p).lastReport.getD 0 else 0 }) } := by
  rw [enablePos, if_pos off]
  rfl

theorem enablePos_of_on {p : Pos} {s : State} (on : (s.posRec p).state ≠ .off) : enablePos p s = s := if_neg on

/-! ### OFF -/

theorem disablePos_of_off {p : Pos} {s : State} (off : (s.posRec p).state = .off) : disablePos p s = s := if_pos off

section
variable {p : Pos} {s : State}

theorem withdraw_of_idle {st : PosState} (idle : (s.posRec p).state = .shadow ∨ (s.posRec p).state = .down) :
    withdraw p st s = s.onPos p (PosRec.become st) := by
  unfold withdraw
  rcases idle with idle | idle <;> rw [idle]

theorem withdraw_of_live {st : PosState} (live : (s.posRec p).state = .live) : withdraw p st s = losePos p st s := by
  unfold withdraw
  rw [live]

theorem withdraw_of_requesting {st : PosState} (requesting : (s.posRec p).state = .requesting) :
    withdraw p st s = cancelPass p st s := by
  unfold withdraw
  rw [requesting]

theorem disablePos_of_idle (idle : (s.posRec p).state = .shadow ∨ (s.posRec p).state = .down) :
    disablePos p s = { s with
      floor := { s.floor with pos := s.floor.pos.upd p (fun r => { r with state := .off, queue := [], pending := none }) }
      formers := s.abandoned p } := by
  have on : (s.posRec p).state ≠ .off := by rcases idle with idle | idle <;> rw [idle] <;> decide
  have idle_then : ((abandonStroke p s).posRec p).state = .shadow ∨ ((abandonStroke p s).posRec p).state = .down := idle
  rw [disablePos, if_neg on, withdraw_of_idle idle_then, abandonStroke_eq]
  cases p <;> rfl

/-- The empty QUEUE and PENDING that a disabled position is left with change nothing after a withdrawal. -/
theorem disablePos_of_held (held : (s.posRec p).state = .live ∨ (s.posRec p).state = .requesting) :
    disablePos p s = (withdraw p .off { s with formers := s.abandoned p }).onPos p
      (fun r => { r with queue := [], pending := none }) := by
  have on : (s.posRec p).state ≠ .off := by rcases held with held | held <;> rw [held] <;> decide
  rw [disablePos, if_neg on, abandonStroke_eq]

theorem withdraw_gains_of_held {st : PosState} (held : (s.posRec p).state = .live ∨ (s.posRec p).state = .requesting) :
    Gains s (withdraw p st s) := by
  rcases held with live | requesting
  · rw [withdraw_of_live live]
    exact losePos_gains p st s
  · rw [withdraw_of_requesting requesting]
    exact cancelPass_gains p st s

theorem disablePos_gains (held : (s.posRec p).state = .live ∨ (s.posRec p).state = .requesting) :
    Gains s (disablePos p s) := by
  rw [disablePos_of_held held]
  have abandoned : Gains s { s with formers := s.abandoned p } := .of_same rfl rfl rfl rfl (TimeBase.butStamps_refl _)
  exact (Gains.onFloor _ _).after ((withdraw_gains_of_held (s := { s with formers := s.abandoned p }) held).after abandoned)

theorem disablePos_formers (held : (s.posRec p).state = .live ∨ (s.posRec p).state = .requesting) :
    (disablePos p s).formers = s.abandoned p := by
  rw [disablePos_of_held held]
  simp [State.onPos]

/-- A position's record once it is OFF and what it queued has been dropped. -/
def PosRec.dropped (r : PosRec) : PosRec :=
  { r with
    state := .off
    queue := []
    pending := none
    relayDrops := r.relayDrops + BitVec.ofNat 32 (r.queue.length + r.pending.toList.length) }

theorem disablePos_floor_of_live (live : (s.posRec p).state = .live) :
    (disablePos p s).floor = { s.floor with
      pos := (s.floor.pos.upd p PosRec.dropped).upd (otherPos p)
        (fun x => if x.state = .requesting then { x with state := .live } else x)
      state := if (s.posRec (otherPos p)).state = .requesting then .held else .vacant
      waitFrom := none
      floorLosses := s.floor.floorLosses + 1 } := by
  rw [disablePos_of_held (.inl live), withdraw_of_live (s := { s with formers := s.abandoned p }) live, State.onPos,
    onFloor_floor, losePos_floor]
  cases p <;> rfl

theorem disablePos_floor_of_requesting (requesting : (s.posRec p).state = .requesting) :
    (disablePos p s).floor = { s.floor with
      pos := s.floor.pos.upd p PosRec.dropped
      state := .held
      waitFrom := none
      cancelledPasses := s.floor.cancelledPasses + 1 } := by
  rw [disablePos_of_held (.inr requesting),
    withdraw_of_requesting (s := { s with formers := s.abandoned p }) requesting, State.onPos, onFloor_floor,
    cancelPass_floor]
  cases p <;> rfl

theorem disablePos_kept_of_requesting (requesting : (s.posRec p).state = .requesting) :
    (disablePos p s).trans = s.trans ∧ (disablePos p s).script = s.script ∧ (disablePos p s).feeds = s.feeds := by
  rw [disablePos_of_held (.inr requesting),
    withdraw_of_requesting (s := { s with formers := s.abandoned p }) requesting]
  simp [State.onPos]

end

/-- What a withdrawn position leaves to the other: the floor of R34 or of R33. -/
theorem disablePos_positions {p : Pos} {s : State}
    (held : (s.posRec p).state = .live ∨ (s.posRec p).state = .requesting) :
    (disablePos p s).posRec p = (s.posRec p).dropped ∧
      ((s.posRec p).state = .live →
        (disablePos p s).floor.floorLosses = s.floor.floorLosses + 1 ∧
        (disablePos p s).floor.cancelledPasses = s.floor.cancelledPasses ∧
        (if (s.posRec (otherPos p)).state = .requesting then
          (disablePos p s).floor.state = .held ∧
            (disablePos p s).posRec (otherPos p) = { s.posRec (otherPos p) with state := .live }
        else (disablePos p s).floor.state = .vacant ∧
          (disablePos p s).posRec (otherPos p) = s.posRec (otherPos p))) ∧
      ((s.posRec p).state = .requesting →
        (disablePos p s).floor.cancelledPasses = s.floor.cancelledPasses + 1 ∧
        (disablePos p s).floor.floorLosses = s.floor.floorLosses ∧ (disablePos p s).floor.state = .held ∧
        (disablePos p s).floor.waitFrom = none ∧ (disablePos p s).posRec (otherPos p) = s.posRec (otherPos p)) := by
  rcases held with live | requesting
  · refine ⟨?_, fun _ => ⟨?_, ?_, ?_⟩, fun requesting => absurd (live.symm.trans requesting) (by decide)⟩
    · rw [State.posRec, disablePos_floor_of_live live]
      dsimp only
      rw [Two.get_upd_other _ _ _ _ (otherPos_ne p).symm, Two.get_upd_same]
      rfl
    · rw [disablePos_floor_of_live live]
    · rw [disablePos_floor_of_live live]
    · have other : (disablePos p s).posRec (otherPos p) = if (s.posRec (otherPos p)).state = .requesting then
          { s.posRec (otherPos p) with state := .live } else s.posRec (otherPos p) := by
        rw [State.posRec, disablePos_floor_of_live live]
        dsimp only
        rw [Two.get_upd_same, Two.get_upd_other _ _ _ _ (otherPos_ne p)]
        rfl
      rw [other, disablePos_floor_of_live live]
      split
      next => exact ⟨rfl, rfl⟩
      next => exact ⟨rfl, rfl⟩
  · refine ⟨?_, fun live => absurd (live.symm.trans requesting) (by decide), fun _ => ?_⟩
    · rw [State.posRec, disablePos_floor_of_requesting requesting]
      exact Two.get_upd_same _ _ _
    · rw [State.posRec, disablePos_floor_of_requesting requesting]
      exact ⟨rfl, rfl, rfl, rfl, Two.get_upd_other _ _ _ _ (otherPos_ne p)⟩

/-- Settles O24: the rule by the state of the position, the withdrawal by `losePos_floor` and `cancelPass_floor`. -/
theorem writerEnableSwitchesThePosition : Obligations.WriterEnableSwitchesThePosition := by
  intro tag pos sw s accepts calm
  refine ⟨fun bad => ?bad, fun p named => ⟨?on, ?off⟩⟩
  case bad => rw [writerEnable_finishes, finishStep_request_refused accepts calm (writerEnableRule_of_bad bad)]
  case on =>
    rintro rfl
    rw [writerEnable_finishes]
    congr 1
    by_cases off : (s.posRec p).state = .off
    · rw [if_pos off]
      exact finishStep_request_counted accepts ((writerEnableRule_on named).trans (by
        rw [enablePos_of_off (s := s.counted) off]
        rfl)) rfl calm.2
    · rw [if_neg off]
      exact finishStep_request_refused accepts calm ((writerEnableRule_on named).trans (by
        rw [enablePos_of_on (s := s.counted) off]))
  case off =>
    rintro rfl
    refine ⟨fun off => ?_, fun idle => ?_, fun held => ?_⟩
    · rw [writerEnable_finishes, finishStep_request_refused accepts calm ((writerEnableRule_off named).trans (by
        rw [disablePos_of_off (s := s.counted) off]))]
    · rw [writerEnable_finishes]
      congr 1
      exact finishStep_request_counted accepts ((writerEnableRule_off named).trans (by
        rw [disablePos_of_idle (s := s.counted) idle]
        rfl)) rfl calm.2
    · have calm_left : (disablePos p s.counted).calm := (disablePos_gains (s := s.counted) held).calm ⟨calm.1, calm.2⟩
      obtain ⟨record, after_live, after_requesting⟩ := disablePos_positions (s := s.counted) held
      refine ⟨_, (writerEnable_finishes tag pos 0#8 s).trans (congrArg Host.Outcome.next
        (finishStep_request_taken accepts (writerEnableRule_off named) calm_left)), ?_, ?_, ?_, ?_,
        mem_settled_addReply _ _ _ _, ?_⟩
      · rw [State.posRec, settled_floor]
        exact record
      · rw [settled_kept]
        exact after_live
      · intro requesting
        obtain ⟨cancelled, losses, state, timer, other⟩ := after_requesting requesting
        rw [State.posRec, settled_kept]
        exact ⟨cancelled, losses, state, timer, other, disablePos_kept_of_requesting (s := s.counted) requesting⟩
      · rw [settled_kept]
        exact disablePos_formers (s := s.counted) held
      · rw [settled_kept]
        refine State.eq_of_blocks ?_ rfl ?_ rfl rfl ?_ rfl rfl rfl rfl rfl rfl ?_ ?_ rfl rfl ?_ ?_ <;>
          simp [addReply, State.counted]

end Sys2Proof.Machine
end

section
/-! A valid key report that opens or extends a stroke, and the link it takes UP (R2, R3, R8, R10, R11, R13). -/

namespace Sys2Proof.Machine

/-! ### The characters of a report -/

/-- The receiver of a link holds these bytes of a report. -/
def State.holding (s : State) (p : Pos) (held : Bytes) : State := s.onLink p (fun l => { l with rx := .collect held })

theorem holding_holding (s : State) (p : Pos) (x y : Bytes) : (s.holding p x).holding p y = s.holding p y := by
  simp only [State.holding, State.onLink, State.onLinks, Two.upd_upd]

theorem holding_rx (s : State) (p : Pos) (held : Bytes) : ((s.holding p held).links.get p).rx = .collect held :=
  congrArg KeyLink.rx (Two.get_upd_same s.links p _)

theorem holding_inBreak (s : State) (p : Pos) (held : Bytes) :
    ((s.holding p held).links.get p).inBreak = (s.links.get p).inBreak :=
  by simp [State.holding, State.onLink]

theorem eq_holding {s : State} {p : Pos} {held : Bytes} (rx : (s.links.get p).rx = .collect held) :
    s.holding p held = s := by
  have same : s.links.upd p (fun l => { l with rx := .collect held }) = s.links := Two.upd_id (by rw [← rx])
  show { s with links := s.links.upd p (fun l => { l with rx := .collect held }) } = s
  rw [same]

section
variable {p : Pos} {s : State} (no_break : (s.links.get p).inBreak = false)
include no_break

theorem keyChar_of_second {b0 c : Byte} (later : c.msb = false) :
    keyChar p c (s.holding p [b0]) = s.holding p [b0, c] := by
  simp only [keyChar, holding_inBreak, no_break, later, holding_rx, Bool.false_eq_true, if_false]
  exact holding_holding s p _ _

theorem keyChar_of_third {b0 b1 c : Byte} (later : c.msb = false) :
    keyChar p c (s.holding p [b0, b1]) = s.holding p [b0, b1, c] := by
  simp only [keyChar, holding_inBreak, no_break, later, holding_rx, Bool.false_eq_true, if_false]
  exact holding_holding s p _ _

theorem keyChar_of_first {b0 : Byte} (hunt : (s.links.get p).rx = .hunt) (lead : b0.msb = true) :
    keyChar p b0 s = s.holding p [b0] := by
  rw [keyChar_of_lead no_break lead, damageProgress_of_hunt hunt]
  rfl

end

/-- Whether they come with one command or end a report in progress, the four characters complete one report. -/
theorem keyChars_of_completes {p : Pos} {chars : Bytes} {b0 b1 b2 b3 : Byte} {s : State}
    (completes : s.completes p chars b0 b1 b2 b3) :
    keyChars p chars s = completeReport p b0 b1 b2 b3 (s.holding p [b0, b1, b2]) := by
  obtain ⟨no_break, begun, lead, second, third, fourth, some_chars, bytes⟩ := completes
  have last : keyChar p b3 (s.holding p [b0, b1, b2]) = completeReport p b0 b1 b2 b3 (s.holding p [b0, b1, b2]) :=
    keyChar_of_fourth (by rw [holding_inBreak]; exact no_break) (holding_rx s p _) fourth
  cases rx : (s.links.get p).rx with
  | hunt =>
    rw [rx] at bytes
    obtain rfl : chars = [b0, b1, b2, b3] := bytes
    simp only [keyChars, List.foldl_cons, List.foldl_nil]
    rw [keyChar_of_first no_break rx lead, keyChar_of_second no_break second, keyChar_of_third no_break third, last]
  | collect held =>
    rw [rx] at bytes begun
    have here := eq_holding rx
    match held, bytes with
    | [], _ => exact absurd rfl begun
    | [_], bytes =>
      simp only [KeyRx.held, List.cons_append, List.nil_append, List.cons.injEq] at bytes
      obtain ⟨rfl, rfl⟩ := bytes
      simp only [keyChars, List.foldl_cons, List.foldl_nil]
      rw [← here, keyChar_of_second no_break second, keyChar_of_third no_break third, last, holding_holding]
    | [_, _], bytes =>
      simp only [KeyRx.held, List.cons_append, List.nil_append, List.cons.injEq] at bytes
      obtain ⟨rfl, rfl, rfl⟩ := bytes
      simp only [keyChars, List.foldl_cons, List.foldl_nil]
      rw [← here, keyChar_of_third no_break third, last, holding_holding]
    | [_, _, _], bytes =>
      simp only [KeyRx.held, List.cons_append, List.nil_append, List.cons.injEq] at bytes
      obtain ⟨rfl, rfl, rfl, rfl⟩ := bytes
      simp only [keyChars, List.foldl_cons, List.foldl_nil]
      rw [← here, last, holding_holding]
    | _ :: _ :: _ :: _ :: more, bytes =>
      have empty : more ++ chars = [] := by
        simp only [KeyRx.held, List.cons_append, List.cons.injEq] at bytes
        exact bytes.2.2.2.2
      exact absurd (List.append_eq_nil_iff.mp empty).2 some_chars

/-! ### The stroke former -/

section
variable {p : Pos} {k : Keys} {s : State}

theorem formerReport_of_off (off : (s.posRec p).state = .off) : formerReport p k s = s := if_pos off

/-- The unlatched part of a report opens a stroke where none is open (R10). -/
theorem formerReport_of_none (on : (s.posRec p).state ≠ .off) (running : s.windingDown = false)
    (none_open : (s.formers.get p).openStroke = none) :
    formerReport p k s =
      if k &&& ~~~((s.formers.get p).latched &&& k) = 0 then
        { s with formers := s.formers.upd p (fun f => { f with latched := (s.formers.get p).latched &&& k }) }
      else
        { s with
          time := s.time.stamped
          formers := s.formers.upd p (fun f =>
            { f with
              latched := (s.formers.get p).latched &&& k
              openStroke := some
                { keys := k &&& ~~~((s.formers.get p).latched &&& k), openTime := s.time.now, timecode := s.time.stamp
                  damaged := false, held := false, inSession := decide (s.script.session = .opened) } }) } := by
  have latched_open : ((latch p ((s.formers.get p).latched &&& k) s).formers.get p).openStroke = none :=
    (congrArg Former.openStroke (Two.get_upd_same s.formers p _)).trans none_open
  have same : (latch p ((s.formers.get p).latched &&& k) s).windingDown = false := running
  simp only [formerReport, if_neg on, latched_open, same, Bool.false_eq_true, or_false]
  split
  · rfl
  · simp only [openStroke, latch, State.onFormer, State.onFormers, State.stamped, State.onTime, Two.upd_upd]
    rfl

theorem formerReport_kept (running : s.windingDown = false) (none_open : (s.formers.get p).openStroke = none) :
    formerReport p k s = { s with time := (formerReport p k s).time, formers := (formerReport p k s).formers } := by
  by_cases off : (s.posRec p).state = .off
  · rw [formerReport_of_off off]
  · rw [formerReport_of_none off running none_open]
    split <;> rfl

/-- The unlatched part of a report joins the open stroke (R11). -/
theorem formerReport_of_some {o : OpenStroke} (on : (s.posRec p).state ≠ .off)
    (is_open : (s.formers.get p).openStroke = some o) (free : k &&& ~~~((s.formers.get p).latched &&& k) ≠ 0) :
    formerReport p k s = { s with formers := s.formers.upd p (fun f =>
      { f with
        latched := (s.formers.get p).latched &&& k
        openStroke := some { o with keys := o.keys ||| (k &&& ~~~((s.formers.get p).latched &&& k)) } }) } := by
  have latched_open : ((latch p ((s.formers.get p).latched &&& k) s).formers.get p).openStroke = some o :=
    (congrArg Former.openStroke (Two.get_upd_same s.formers p _)).trans is_open
  simp only [formerReport, if_neg on, latched_open, if_neg free]
  simp only [latch, State.onFormer, State.onFormers, Two.upd_upd]
  congr 1
  refine Two.upd_eq_of_get ?_
  simp only [addKeys, is_open, Option.map_some]

end

/-! ### The link -/

/-- The links once a valid report has been received (R3, R8). -/
def State.heard (s : State) (p : Pos) (k : Keys) : State :=
  s.onLink p (fun l => { l with rx := .hunt, lastReport := some k, silenceFrom := some s.time.now })

theorem holding_heard (s : State) (p : Pos) (k : Keys) (held : Bytes) : (s.holding p held).heard p k = s.heard p k := by
  simp only [State.holding, State.heard, State.onLink, State.onLinks, Two.upd_upd]

theorem keyReport_finishes {p : Pos} {chars : Bytes} {b0 b1 b2 b3 : Byte} {s : State}
    (completes : s.completes p chars b0 b1 b2 b3) (check : keyCount (keyField b0 b1 b2 b3) = countField b3) :
    exec (.keyReport p chars) s = .next (finishStep (formerReport p (keyField b0 b1 b2 b3)
      (linkUp p (s.heard p (keyField b0 b1 b2 b3))))) := by
  show Host.Outcome.next (finishStep (keyChars p chars s)) = _
  rw [keyChars_of_completes completes, completeReport, if_pos check, ← holding_heard s p _ [b0, b1, b2]]
  rfl

theorem linkUp_of_up {p : Pos} {s : State} (up : (s.links.get p).link = .up) : linkUp p s = s := if_pos up

theorem heard_link (s : State) (p : Pos) (k : Keys) : ((s.heard p k).links.get p).link = (s.links.get p).link :=
  by simp [State.heard, State.onLink]

/-- A DOWN link comes UP, and a DOWN position SHADOW (R8, R22). -/
def State.risen (s : State) (p : Pos) (k : Keys) : State :=
  { s with
    links := s.links.upd p (fun l =>
      { l with rx := .hunt, link := .up, lastReport := some k, silenceFrom := some s.time.now })
    floor := { s.floor with pos := s.floor.pos.upd p (fun r =>
      if r.state = .down then { r with state := .shadow } else r) } }

theorem linkUp_of_down {p : Pos} {k : Keys} {s : State} (down : (s.links.get p).link = .down) :
    linkUp p (s.heard p k) = setCause (.keyLinkDown p) false (s.risen p k) := by
  have not_up : ((s.heard p k).links.get p).link ≠ .up := by rw [heard_link, down]; decide
  rw [linkUp, if_neg not_up]
  congr 1
  simp only [State.heard, State.onLink, State.onLinks, Two.upd_upd, floorLinkUp]
  split
  next is_down =>
    simp only [State.onPos, State.onFloor, State.risen]
    congr 2
    exact Two.upd_eq_of_get (if_pos is_down).symm
  next other =>
    have same : s.floor.pos.upd p (fun r => if r.state = .down then { r with state := .shadow } else r) = s.floor.pos :=
      Two.upd_id (if_neg other)
    rw [State.risen, same]

theorem risen_off {s : State} {p : Pos} {k : Keys} : ((s.risen p k).posRec p).state = .off ↔ (s.posRec p).state = .off := by
  have is : (s.risen p k).posRec p =
      if (s.posRec p).state = .down then { s.posRec p with state := .shadow } else s.posRec p :=
    Two.get_upd_same s.floor.pos p _
  rw [is]
  split
  next down => simp [down]
  · exact Iff.rfl

/-- Settles O20: an UP link by the branches of `formerReport`, a DOWN one by `linkUp_of_down`. -/
theorem keyReportFormsAStroke : Obligations.KeyReportFormsAStroke := by
  intro p chars b0 b1 b2 b3 s completes check calm k latched report
  have report_is : report = .next (finishStep (formerReport p k (linkUp p (s.heard p k)))) :=
    keyReport_finishes completes check
  refine ⟨fun up => ⟨fun off => ?_, fun on => ⟨fun none_open => ?_, fun o is_open free => ?_⟩⟩, fun down none_open => ?down⟩
  · rw [report_is, linkUp_of_up ((heard_link s p k).trans up), formerReport_of_off (s := s.heard p k) off,
      finishStep_calm (s.heard p k) calm]
    rfl
  · have running : (s.heard p k).windingDown = false := by simp [State.windingDown, State.heard, State.onLink, calm.1]
    rw [report_is, linkUp_of_up ((heard_link s p k).trans up),
      formerReport_of_none (s := s.heard p k) on running none_open]
    refine congrArg Host.Outcome.next ((finishStep_calm _ ?_).trans ?_)
    · split <;> exact calm
    · rfl
  · rw [report_is, linkUp_of_up ((heard_link s p k).trans up),
      formerReport_of_some (s := s.heard p k) on is_open free]
    exact congrArg Host.Outcome.next (finishStep_calm _ calm)
  case down =>
    have raised := linkUp_of_down (k := k) down
    generalize risen : setCause (.keyLinkDown p) false (s.risen p k) = u at raised
    have told : Tells 1 (s.risen p k) u := by rw [← risen]; exact setCause_tells _ _ _
    have cause : u.hasCause (.keyLinkDown p) = false := by rw [← risen]; exact setCause_hasCause_same _ _ _
    have calm_u : u.calm := ⟨told.phase.trans calm.1, by rw [told.kept]; exact calm.2⟩
    have floor : u.floor = (s.risen p k).floor := by rw [told.kept]
    have off_iff : (u.posRec p).state = .off ↔ (s.posRec p).state = .off := by
      rw [State.posRec, floor]
      exact risen_off
    have former : u.formers = s.formers := by rw [told.kept]; rfl
    have now : u.time.now = s.time.now := by rw [told.stamps]; rfl
    have script : u.script = s.script := by rw [told.kept]; rfl
    have running : u.windingDown = false := by simp [State.windingDown, calm_u.1]
    have none_u : (u.formers.get p).openStroke = none := by rw [former]; exact none_open
    have kept := formerReport_kept (k := k) running none_u
    have opens := formerReport_of_none (p := p) (k := k) (s := u)
    have rests := formerReport_of_off (p := p) (k := k) (s := u)
    have runs : report = .next (formerReport p k u).settled := by
      rw [report_is, raised, finishStep_calm _ (by rw [kept]; exact calm_u)]
    generalize formerReport p k u = v at kept opens rests runs
    have frame : v.settled = { v with
      time := v.settled.time, store := v.settled.store, log := v.settled.log, dict := v.settled.dict
      host := v.settled.host, conds := v.settled.conds } := settled_kept v
    refine ⟨v.settled, runs, ?_, ?_, ?_, fun off => ?_, fun on => ⟨fun none_free => ?_, fun free => ?_⟩, ?_⟩
    · rw [frame, kept, told.kept]
      rfl
    · rw [frame, kept, floor]
      rfl
    · have is : v.hasCause (.keyLinkDown p) = false := by rw [kept]; exact cause
      exact (settled_hasCause v _).trans is
    · rw [frame, rests (off_iff.mpr off)]
      exact former
    · rw [frame, opens (mt off_iff.mp on) running none_u, former, if_pos none_free]
    · refine ⟨u.time.stamp, ?_⟩
      rw [frame, opens (mt off_iff.mp on) running none_u, former, if_neg free, now, script]
    · rw [frame, kept, told.kept]
      rfl

end Sys2Proof.Machine
end

section
/-! Where a record offered to the log writer goes: the OPEN page, a new page, or nowhere (R74). -/

namespace Sys2Proof.Machine

/-! ### The page a record enters -/

/-- A log page with this number holds these records and no others. -/
def State.hasPage (s : State) (n : Nat) (recs : List Bytes) : Prop := ∃ q ∈ s.log.pages, q.page = n ∧ q.records = recs

/-- A log page with this number holds these records first. -/
def State.holdsPage (s : State) (n : Nat) (recs : List Bytes) : Prop := ∃ q ∈ s.log.pages, q.page = n ∧ recs <+: q.records

theorem State.hasPage.holds {s : State} {n : Nat} {recs : List Bytes} (has : s.hasPage n recs) : s.holdsPage n recs := by
  obtain ⟨q, held, number, rfl⟩ := has
  exact ⟨q, held, number, List.prefix_rfl⟩

theorem Gains.holdsPage {s t : State} (gains : Gains s t) {n : Nat} {recs : List Bytes} (holds : s.holdsPage n recs) :
    t.holdsPage n recs := by
  obtain ⟨q, held, rfl, first⟩ := holds
  obtain ⟨r, kept, same, more⟩ := gains.pages q held
  exact ⟨r, kept, same, first.trans more⟩

theorem hasPage_congr {s t : State} {n : Nat} {recs : List Bytes}
    (same : t.log.pages.map (fun q => (q.page, q.records)) = s.log.pages.map (fun q => (q.page, q.records)))
    (has : s.hasPage n recs) : t.hasPage n recs := by
  obtain ⟨q, held, rfl, rfl⟩ := has
  have there : (q.page, q.records) ∈ t.log.pages.map (fun q => (q.page, q.records)) := by
    rw [same]
    exact List.mem_map_of_mem held
  obtain ⟨r, kept, is⟩ := List.mem_map.mp there
  exact ⟨r, kept, (Prod.mk.inj is).1, (Prod.mk.inj is).2⟩

theorem hasPage_settled {s : State} {n : Nat} {recs : List Bytes} (has : s.hasPage n recs) : s.settled.hasPage n recs :=
  hasPage_congr (settled_log_pages s) has

theorem holdsPage_settled {s : State} {n : Nat} {recs : List Bytes} (holds : s.holdsPage n recs) :
    s.settled.holdsPage n recs := by
  obtain ⟨q, held, number, first⟩ := holds
  obtain ⟨r, kept, same, is⟩ := hasPage_settled ⟨q, held, number, rfl⟩
  exact ⟨r, kept, same, by rw [is]; exact first⟩

theorem State.holdsPage.more {s : State} {n : Nat} {recs : List Bytes} {rec : Bytes} (holds : s.holdsPage n (recs ++ [rec])) :
    ∃ q ∈ s.log.pages, q.page = n ∧ ∃ more, q.records = recs ++ rec :: more := by
  obtain ⟨q, held, number, more, is⟩ := holds
  exact ⟨q, held, number, more, by rw [← is, List.append_assoc]; rfl⟩

/-! ### Whether a record is taken -/

/-- The log writer takes a record: the store logs, and a page is OPEN or may be opened (R74). -/
def State.admits (s : State) : Prop := s.logTakes = true ∧ (s.log.openPage ≠ none ∨ s.newPage ≠ none)

theorem newPage_ne_none_iff {s : State} {h : Header} (header : s.store.header = some h) :
    s.newPage ≠ none ↔ s.log.pages.length < 8 ∧ ∃ a, s.store.log.append = some a ∧ a < h.log.len * 256 := by
  cases append : s.store.log.append with
  | none => simp [State.newPage, append]
  | some a =>
    have pages : s.store.logPages = h.log.len * 256 := by simp [Store.logPages, header]
    simp [State.newPage, Store.logFull, append, pages, Config.bufferPages]

theorem newPage_of_room {s : State} {h : Header} {a : Nat} (header : s.store.header = some h)
    (append : s.store.log.append = some a) (room : s.log.pages.length < 8) (short : a < h.log.len * 256) :
    s.newPage = some a := by
  have pages : s.store.logPages = h.log.len * 256 := by simp [Store.logPages, header]
  simp [State.newPage, Store.logFull, append, pages, Config.bufferPages, room, short]

theorem admits_iff {s : State} {h : Header} (header : s.store.header = some h) :
    s.admits ↔ (s.store.state = .ready ∨ s.store.state = .fault) ∧
      (s.log.openPage ≠ none ∨ s.log.pages.length < 8 ∧ ∃ a, s.store.log.append = some a ∧ a < h.log.len * 256) := by
  rw [State.admits, newPage_ne_none_iff header, State.logTakes, decide_eq_true_eq]

theorem newPage_eq_some {s : State} {a : Nat} (new : s.newPage ≠ none) (append : s.store.log.append = some a) :
    s.newPage = some a := by
  unfold State.newPage at new ⊢
  split at new
  next room => rw [if_pos room, append]
  · exact absurd rfl new

section
variable {rec : Bytes} {s : State}

theorem offerRecord_of_open {page : BufPage} (takes : s.logTakes = true) (opened : s.log.openPage = some page) :
    offerRecord rec s = (s.onLog (fun w => { w with pages := w.pages.map (BufPage.take rec) }), true) := by
  simp [offerRecord, takes, opened]

theorem offerRecord_of_new {a : Nat} (takes : s.logTakes = true) (none_open : s.log.openPage = none)
    (new : s.newPage = some a) :
    offerRecord rec s = (logCauses ((s.onLog (fun w =>
      { w with pages := w.pages ++ [{ state := .opened, page := a, records := [rec], since := s.time.now }] })).onStore
        (fun st => { st with log := { st.log with append := some (a + 1) } })), true) := by
  simp [offerRecord, takes, none_open, new]

theorem offerRecord_of_refused (refused : ¬ s.admits) : offerRecord rec s = (s, false) := by
  unfold State.admits at refused
  cases takes : s.logTakes with
  | false => simp [offerRecord, takes]
  | true =>
    simp only [takes, true_and, not_or, not_not] at refused
    simp [offerRecord, takes, refused.1, refused.2]

theorem offerRecord_taken (admits : s.admits) : (offerRecord rec s).2 = true := by
  obtain ⟨takes, place⟩ := admits
  cases opened : s.log.openPage with
  | some page => rw [offerRecord_of_open takes opened]
  | none =>
    obtain ⟨a, new⟩ := Option.ne_none_iff_exists'.mp (place.resolve_left (by simp [opened]))
    rw [offerRecord_of_new takes opened new]

/-- The OPEN page is the first that is OPEN. -/
theorem openPage_opened {w : LogWriter} {page : BufPage} (opened : w.openPage = some page) :
    page ∈ w.pages ∧ page.state = .opened :=
  ⟨List.mem_of_find?_eq_some opened, by simpa using List.find?_some opened⟩

theorem offerRecord_page_of_open {page : BufPage} (takes : s.logTakes = true) (opened : s.log.openPage = some page) :
    (offerRecord rec s).1.hasPage page.page (page.records ++ [rec]) := by
  obtain ⟨held, is_open⟩ := openPage_opened opened
  rw [offerRecord_of_open takes opened]
  exact ⟨page.take rec, List.mem_map_of_mem held, page.take_page rec, by simp [BufPage.take, is_open]⟩

theorem offerRecord_page_of_new {a : Nat} (takes : s.logTakes = true) (none_open : s.log.openPage = none)
    (new : s.newPage = some a) :
    (offerRecord rec s).1.hasPage a [rec] ∧ (offerRecord rec s).1.store.log.append = some (a + 1) := by
  rw [offerRecord_of_new takes none_open new]
  exact ⟨⟨{ state := .opened, page := a, records := [rec], since := s.time.now }, by simp, rfl, rfl⟩, by simp⟩

theorem offerOther_of_taken (admits : s.admits) : offerOther rec s = (offerRecord rec s).1 := by
  simp [offerOther, offerRecord_taken admits]

theorem offerOther_of_refused (refused : ¬ s.admits) :
    offerOther rec s = s.onLog (fun w => { w with recordsRefused := w.recordsRefused + 1 }) := by
  simp [offerOther, offerRecord_of_refused refused]

end

/-! ### The end of a step clears no condition -/

theorem enterOwed_keepsSet (s : State) : KeepsSet s (enterOwed s) := by
  unfold enterOwed
  split
  · exact fun _ => id
  · exact onCond_keepsSet _ (by exact fun _ => id) (s.stamped.onHost _)

theorem chooseFrame_keepsSet (s : State) : KeepsSet s (chooseFrame s) := by
  unfold chooseFrame
  (repeat' split)
  · exact fun _ => id
  · exact fun _ => id
  · exact enterOwed_keepsSet (s.onHost _)
  · exact fun _ => id
  · exact fun _ => id

theorem settled_keepsSet (s : State) : KeepsSet s s.settled := by
  have taken : KeepsSet s s.takeUp := by
    rw [takeUp_eq]
    exact fun _ => id
  exact taken.trans (chooseFrame_keepsSet _)

end Sys2Proof.Machine
end

section
/-! The loss of a key link: the open stroke it closes, the position it takes down and the floor (R5 to R7, R16, R19, R22,
R25, R33, R34). -/

namespace Sys2Proof.Machine

/-! ### The report in progress -/

/-- An open stroke, marked DAMAGED when `b` holds. -/
def OpenStroke.marked (b : Bool) (o : OpenStroke) : OpenStroke := { o with damaged := o.damaged || b }

/-- A former whose open stroke, if any, has been marked DAMAGED when `b` holds. -/
def Former.marked (b : Bool) (f : Former) : Former := { f with openStroke := f.openStroke.map (OpenStroke.marked b) }

theorem Former.marked_false (f : Former) : f.marked false = f := by
  obtain ⟨o, _, _, _, _, _⟩ := f
  cases o <;> simp [Former.marked, OpenStroke.marked]

theorem damageProgress_eq (p : Pos) (s : State) : ∃ b, damageProgress p s = { s with
    links := s.links.upd p (fun l =>
      { l with rx := .hunt, damagedReports := if l.rx = .hunt then l.damagedReports else l.damagedReports + 1 })
    formers := s.formers.upd p (Former.marked b) } := by
  cases rx : (s.links.get p).rx with
  | hunt =>
    refine ⟨false, ?_⟩
    have links : s.links.upd p (fun l =>
        { l with rx := .hunt, damagedReports := if l.rx = .hunt then l.damagedReports else l.damagedReports + 1 }) =
        s.links := Two.upd_id (by rw [if_pos rx, ← rx])
    rw [damageProgress_of_hunt rx, links, Two.upd_id (Former.marked_false _)]
  | collect held =>
    refine ⟨decide ((s.posRec p).state ≠ .off), ?_⟩
    have busy : (s.links.get p).rx ≠ .hunt := by simp [rx]
    rw [damageProgress_of_collect rx, damagedReport_eq]
    congr 1
    · exact Two.upd_eq_of_get (by rw [if_neg busy])
    · unfold State.markedFormers
      split
      next off => simp [off, Two.upd_id (Former.marked_false _)]
      next on =>
        have marked : decide ((s.posRec p).state ≠ .off) = true := decide_eq_true on
        rw [marked]
        refine Two.upd_eq_of_get ?_
        cases is_open : (s.formers.get p).openStroke <;> simp [Former.marked, OpenStroke.marked, is_open]

/-! ### The stroke that the loss closes -/

/-- The record of the stroke of a position that the loss of its link closes. -/
def lostRecord (p : Pos) (o : OpenStroke) (seq : Count) : StrokeRec :=
  { pos := p, keys := o.keys, openTime := o.openTime, timecode := o.timecode, seq := seq, damaged := true, held := false
    unlogged := false }

theorem echoStroke_tells (r : StrokeRec) (seq : Option Count) (s : State) : Tells 1 s (echoStroke r seq s) := by
  unfold echoStroke
  split
  · exact offerNotice_tells _ s
  · exact .refl 1 s

theorem echoStroke_gains (r : StrokeRec) (seq : Option Count) (s : State) : Gains s (echoStroke r seq s) := by
  unfold echoStroke
  split
  · exact offerNotice_gains _ s
  · exact .refl s

theorem mem_echoStroke {r : StrokeRec} {seq : Option Count} {s : State} (echo : s.settings.strokeEcho = true)
    (room : s.host.notices.length < 32) :
    .stroke r.pos seq r.keys r.timecode r.damaged r.held r.unlogged ∈ (echoStroke r seq s).host.notices := by
  rw [echoStroke, if_pos echo]
  exact mem_offerNotice room

section
variable {p : Pos} {o : OpenStroke} {s : State} (is_open : (s.formers.get p).openStroke = some o)
include is_open

/-- Outside its session the stroke is counted as discarded. -/
theorem closeStroke_of_outside (outside : (o.inSession && s.sessionOpen) = false) :
    closeStroke p false true true s = echoStroke (lostRecord p o s.seqCounter) none { s with
      formers := s.formers.upd p (fun f => { f.close false true with discarded := f.discarded + 1 }) } := by
  have session : (s.onFormer p (Former.close false true)).sessionOpen = s.sessionOpen := rfl
  simp only [closeStroke, is_open, Bool.or_true, session, outside, Bool.false_eq_true, if_false]
  simp only [discardStroke, State.onFormer, State.onFormers, OpenStroke.record, Two.upd_upd]
  rfl

/-- The state in which the closed stroke is offered to the log writer. -/
def State.numbering (s : State) (p : Pos) : State :=
  { s with seqCounter := s.seqCounter + 1, formers := s.formers.upd p (Former.close false true) }

/-- In its session the stroke takes its number, is offered to the log writer and is a relay drop at the LIVE or REQUESTING
position. -/
theorem closeStroke_of_inside (inside : (o.inSession && s.sessionOpen) = true) :
    closeStroke p false true true s =
      let r := lostRecord p o s.seqCounter
      let x := { r with unlogged := !(offerStroke r (s.numbering p)).2 }
      echoStroke x (some s.seqCounter) (disposeLost x (offerStroke r (s.numbering p)).1) := by
  have session : (s.onFormer p (Former.close false true)).sessionOpen = s.sessionOpen := rfl
  simp only [closeStroke, is_open, Bool.or_true, session, inside, if_true]
  rfl

end

/-! ### What the closed stroke leaves -/

/-- A position's record once the stroke of a lost link is a relay drop (R25). -/
def PosRec.relayed (numbered : Bool) (r : PosRec) : PosRec :=
  { r with relayDrops :=
      if numbered = true ∧ (r.state = .live ∨ r.state = .requesting) then r.relayDrops + 1 else r.relayDrops }

/-- A former whose open stroke the loss of its link has closed, before the latched set is emptied. -/
def Former.lost (numbered : Bool) (f : Former) : Former :=
  if f.openStroke = none then f
  else
    { f with
      openStroke := none
      closed := f.closed + 1
      damagedCloses := f.damagedCloses + 1
      discarded := if numbered then f.discarded else f.discarded + 1 }

/-- What the close of the stroke of a lost link leaves: the formers, the number taken, the relay drop, and the blocks that
records and notices reach. -/
structure LostStroke (p : Pos) (numbered : Bool) (u z : State) : Prop where
  kept : z = { u with
    formers := z.formers, seqCounter := z.seqCounter, floor := z.floor, time := z.time, store := z.store, log := z.log
    host := z.host, conds := z.conds }
  formers : z.formers = u.formers.upd p (Former.lost numbered)
  seqCounter : z.seqCounter = if numbered then u.seqCounter + 1 else u.seqCounter
  floor : z.floor = { u.floor with pos := u.floor.pos.upd p (PosRec.relayed numbered) }
  calm : u.calm → z.calm

theorem PosRec.relayed_false (r : PosRec) : r.relayed false = r := by simp [PosRec.relayed]

theorem LostStroke.of_none {p : Pos} {u : State} (none_open : (u.formers.get p).openStroke = none) :
    LostStroke p false u u where
  kept := rfl
  formers := (Two.upd_id (show Former.lost false (u.formers.get p) = _ from if_pos none_open)).symm
  seqCounter := rfl
  floor := by rw [Two.upd_id (PosRec.relayed_false _)]
  calm := id

theorem disposeLost_eq (x : StrokeRec) (s : State) : disposeLost x s = { s with
    floor := { s.floor with pos := s.floor.pos.upd x.pos (PosRec.relayed true) } } := by
  have same : s.floor.pos.upd x.pos (fun r =>
      if r.state = .live ∨ r.state = .requesting then { r with relayDrops := r.relayDrops + 1 } else r) =
      s.floor.pos.upd x.pos (PosRec.relayed true) := by
    refine Two.upd_eq_of_get ?_
    unfold PosRec.relayed
    split
    next held => rw [if_pos ⟨rfl, held⟩]
    next other => rw [if_neg (fun both => other both.2)]
  rw [← same]
  rfl

section
variable {p : Pos} {o : OpenStroke} {u : State} (is_open : (u.formers.get p).openStroke = some o)
include is_open

theorem closeStroke_lost_outside (outside : (o.inSession && u.sessionOpen) = false) :
    LostStroke p false u (closeStroke p false true true u) ∧
      (u.settings.strokeEcho = true → u.host.notices.length < 32 →
        .stroke p none o.keys o.timecode true false false ∈ (closeStroke p false true true u).host.notices) := by
  rw [closeStroke_of_outside is_open outside]
  generalize before : ({ u with
    formers := u.formers.upd p (fun f => { f.close false true with discarded := f.discarded + 1 }) } : State) = v
  have told := echoStroke_tells (lostRecord p o u.seqCounter) none v
  have gains := echoStroke_gains (lostRecord p o u.seqCounter) none v
  refine ⟨⟨?_, ?_, ?_, ?_, fun calm => gains.calm (by rw [← before]; exact calm)⟩, fun echo room => ?_⟩
  · rw [told.kept, ← before]
  · rw [told.kept, ← before]
    show u.formers.upd p (fun f => { f.close false true with discarded := f.discarded + 1 }) = _
    refine Two.upd_eq_of_get ?_
    simp [Former.lost, is_open, Former.close]
  · rw [told.kept, ← before]
    rfl
  · rw [told.kept, ← before, Two.upd_id (PosRec.relayed_false _)]
  · exact mem_echoStroke (r := lostRecord p o u.seqCounter) (seq := none) (by rw [← before]; exact echo)
      (by rw [← before]; exact room)

omit is_open in
theorem offerStroke_of_taken {r : StrokeRec} {s : State} (admits : s.admits) :
    offerStroke r s = offerRecord (strokeRecord s r) s := by
  simp [offerStroke, offerRecord_taken admits]

omit is_open in
theorem offerStroke_of_refused {r : StrokeRec} {s : State} (refused : ¬ s.admits) :
    offerStroke r s =
      (raiseLatched .unloggedStrokes (s.onLog (fun w => { w with unloggedCount := w.unloggedCount + 1 })), false) := by
  simp [offerStroke, offerRecord_of_refused refused]

omit is_open in
theorem offerRecord_few (rec : Bytes) (s : State) :
    (offerRecord rec s).1.host.notices.length ≤ s.host.notices.length + 2 := by
  unfold offerRecord
  (repeat' split)
  · exact Nat.le_add_right _ _
  · exact Nat.le_add_right _ _
  · exact Nat.le_add_right _ _
  · exact (logCauses_tells _).few

theorem closeStroke_lost_inside (inside : (o.inSession && u.sessionOpen) = true) :
    LostStroke p true u (closeStroke p false true true u) := by
  rw [closeStroke_of_inside is_open inside]
  dsimp only
  generalize record : lostRecord p o u.seqCounter = r
  generalize offered : (offerStroke r (u.numbering p)).1 = v
  generalize marked : ({ r with unlogged := !(offerStroke r (u.numbering p)).2 } : StrokeRec) = x
  have told := echoStroke_tells x (some u.seqCounter) (disposeLost x v)
  have gains := echoStroke_gains x (some u.seqCounter) (disposeLost x v)
  have position : x.pos = p := by rw [← marked, ← record]; rfl
  have kept : v = { u.numbering p with time := v.time, store := v.store, log := v.log, host := v.host, conds := v.conds } := by
    rw [← offered]
    refine State.eq_of_blocks ?_ ?_ ?_ ?_ rfl ?_ rfl rfl ?_ ?_ ?_ ?_ ?_ ?_ rfl rfl ?_ ?_ <;> simp
  refine ⟨?_, ?_, ?_, ?_, fun calm => gains.calm ?_⟩
  · rw [told.kept, disposeLost_eq, kept]
    rfl
  · rw [told.kept, disposeLost_eq, kept]
    show u.formers.upd p (Former.close false true) = _
    refine Two.upd_eq_of_get ?_
    simp [Former.lost, is_open, Former.close]
  · rw [told.kept, disposeLost_eq, kept]
    rfl
  · rw [told.kept, disposeLost_eq, position, kept]
    rfl
  · rw [disposeLost_eq, ← offered]
    exact ⟨by simpa [State.numbering] using calm.1, by simpa [State.numbering] using calm.2⟩

/-- A stroke whose record is taken. -/
theorem closeStroke_lost_taken (inside : (o.inSession && u.sessionOpen) = true) (admits : u.admits) :
    (closeStroke p false true true u).log.unloggedCount = u.log.unloggedCount ∧
      (∀ page, u.log.openPage = some page → (closeStroke p false true true u).hasPage page.page
        (page.records ++ [strokeRecord u (lostRecord p o u.seqCounter)])) ∧
      (∀ a, u.log.openPage = none → u.store.log.append = some a → (closeStroke p false true true u).hasPage a
        [strokeRecord u (lostRecord p o u.seqCounter)]) ∧
      (u.settings.strokeEcho = true → u.host.notices.length < 24 →
        .stroke p (some u.seqCounter) o.keys o.timecode true false false ∈
          (closeStroke p false true true u).host.notices) := by
  rw [closeStroke_of_inside is_open inside]
  dsimp only
  rw [offerStroke_of_taken (s := u.numbering p) admits, offerRecord_taken (s := u.numbering p) admits]
  have same_bytes : strokeRecord (u.numbering p) (lostRecord p o u.seqCounter) =
      strokeRecord u (lostRecord p o u.seqCounter) := rfl
  rw [same_bytes]
  generalize strokeRecord u (lostRecord p o u.seqCounter) = bytes
  have gains := offerRecord_gains bytes (u.numbering p)
  have few := offerRecord_few bytes (u.numbering p)
  have in_open := fun page => offerRecord_page_of_open (rec := bytes) (s := u.numbering p) (page := page) admits.1
  have in_new := fun a => offerRecord_page_of_new (rec := bytes) (s := u.numbering p) (a := a) admits.1
  have echo_kept : (offerRecord bytes (u.numbering p)).1.settings = u.settings := by simp [State.numbering]
  generalize (offerRecord bytes (u.numbering p)).1 = v at gains few in_open in_new echo_kept
  generalize marked : ({ lostRecord p o u.seqCounter with unlogged := !true } : StrokeRec) = x
  have told := echoStroke_tells x (some u.seqCounter) (disposeLost x v)
  have log : (echoStroke x (some u.seqCounter) (disposeLost x v)).log = v.log := by rw [told.kept, disposeLost_eq]
  simp only [State.hasPage, log]
  refine ⟨by rw [gains.log]; rfl, in_open, fun a none_open append => ?_, fun echo room => ?_⟩
  · have new : (u.numbering p).newPage = some a := by
      have some_page : u.newPage ≠ none := admits.2.resolve_left (by simp [none_open])
      exact newPage_eq_some (s := u) some_page append
    exact (in_new a none_open new).1
  · have told_there := mem_echoStroke (r := x) (seq := some u.seqCounter) (s := disposeLost x v)
      (by rw [disposeLost_eq, echo_kept]; exact echo)
      (by rw [disposeLost_eq]; exact lt_of_le_of_lt few (by show u.host.notices.length + 2 < 32; omega))
    rw [← marked] at told_there ⊢
    exact told_there

/-- A stroke whose record is refused. -/
theorem closeStroke_lost_refused (inside : (o.inSession && u.sessionOpen) = true) (refused : ¬ u.admits) :
    (closeStroke p false true true u).log.unloggedCount = u.log.unloggedCount + 1 ∧
      ((closeStroke p false true true u).conds.get .unloggedStrokes).set = true ∧
      (u.settings.strokeEcho = true → u.host.notices.length < 24 →
        .stroke p (some u.seqCounter) o.keys o.timecode true false true ∈
          (closeStroke p false true true u).host.notices) := by
  rw [closeStroke_of_inside is_open inside]
  dsimp only
  rw [offerStroke_of_refused (s := u.numbering p) refused]
  dsimp only
  generalize counted : (u.numbering p).onLog (fun w => { w with unloggedCount := w.unloggedCount + 1 }) = y
  have raised := raiseLatched_tells .unloggedStrokes y
  have is_set := raiseLatched_set .unloggedStrokes y
  generalize raiseLatched .unloggedStrokes y = v at raised is_set
  generalize marked : ({ lostRecord p o u.seqCounter with unlogged := !false } : StrokeRec) = x
  have told := echoStroke_tells x (some u.seqCounter) (disposeLost x v)
  have gains := echoStroke_gains x (some u.seqCounter) (disposeLost x v)
  refine ⟨?_, gains.set _ (by rw [disposeLost_eq]; exact is_set), fun echo room => ?_⟩
  · rw [told.kept, disposeLost_eq, raised.kept, ← counted]
    rfl
  · have few := raised.few
    have told_there := mem_echoStroke (r := x) (seq := some u.seqCounter) (s := disposeLost x v)
      (by rw [disposeLost_eq, raised.kept, ← counted]; exact echo)
      (by
        rw [disposeLost_eq]
        refine lt_of_le_of_lt few ?_
        rw [← counted]
        show u.host.notices.length + 1 < 32
        omega)
    rw [← marked] at told_there ⊢
    exact told_there

end

end Sys2Proof.Machine
end

section
/-! A break or the silence interval takes a link and its position down (R5 to R7, R22, R33, R34). -/

namespace Sys2Proof.Machine

/-! ### After the stroke has been closed -/

/-- What the loss of a link does once its open stroke is closed: the latched set, the position, the cause. -/
def lossTail (p : Pos) (z : State) : State := setCause (.keyLinkDown p) true (floorLinkDown p (latch p 0 z))

theorem floorLinkDown_of_off {p : Pos} {s : State} (off : (s.posRec p).state = .off) : floorLinkDown p s = s := by
  unfold floorLinkDown
  rw [off]

theorem floorLinkDown_of_on {p : Pos} {s : State} (on : (s.posRec p).state ≠ .off) :
    floorLinkDown p s = withdraw p .down s := by
  unfold floorLinkDown
  split
  next off => exact absurd off on
  · rfl

theorem floorLinkDown_gains (p : Pos) (s : State) : Gains s (floorLinkDown p s) := by
  by_cases off : (s.posRec p).state = .off
  · rw [floorLinkDown_of_off off]
    exact .refl s
  · rw [floorLinkDown_of_on off]
    unfold withdraw
    split
    · exact losePos_gains p .down s
    · exact cancelPass_gains p .down s
    · exact Gains.onFloor s _

section
variable (p : Pos) (z : State)

theorem lossTail_gains : Gains z (lossTail p z) :=
  (setCause_gains _ _ _).after ((floorLinkDown_gains _ _).after (.of_same rfl rfl rfl rfl (TimeBase.butStamps_refl _)))

theorem lossTail_floor_eq : (lossTail p z).floor = (floorLinkDown p (latch p 0 z)).floor := by simp [lossTail]

theorem lossTail_formers : (lossTail p z).formers = z.formers.upd p (fun f => { f with latched := 0 }) := by
  simp [lossTail, latch, State.onFormer]

theorem lossTail_kept : lossTail p z = { z with
    formers := (lossTail p z).formers, floor := (lossTail p z).floor, time := (lossTail p z).time
    store := (lossTail p z).store, log := (lossTail p z).log, trans := (lossTail p z).trans
    script := (lossTail p z).script, feeds := (lossTail p z).feeds, host := (lossTail p z).host
    conds := (lossTail p z).conds } := by
  refine State.eq_of_blocks ?_ rfl ?_ rfl rfl ?_ rfl rfl ?_ rfl rfl rfl ?_ ?_ rfl rfl ?_ ?_ <;> simp [lossTail, latch]

theorem lossTail_cause : (lossTail p z).hasCause (.keyLinkDown p) = true := setCause_hasCause_same _ _ _

end

section
variable {p : Pos} {z : State}

theorem lossTail_of_off (off : (z.posRec p).state = .off) :
    (lossTail p z).floor = z.floor ∧ (lossTail p z).trans = z.trans ∧ (lossTail p z).script = z.script ∧
      (lossTail p z).feeds = z.feeds := by
  rw [lossTail, floorLinkDown_of_off (s := latch p 0 z) off]
  simp [latch]

theorem lossTail_of_idle (idle : (z.posRec p).state = .shadow ∨ (z.posRec p).state = .down) :
    (lossTail p z).floor = { z.floor with pos := z.floor.pos.upd p (fun r => { r with state := .down }) } ∧
      (lossTail p z).trans = z.trans ∧ (lossTail p z).script = z.script ∧ (lossTail p z).feeds = z.feeds := by
  have on : (z.posRec p).state ≠ .off := by rcases idle with idle | idle <;> rw [idle] <;> decide
  rw [lossTail, floorLinkDown_of_on (s := latch p 0 z) on, withdraw_of_idle (s := latch p 0 z) idle]
  simp only [setCause_frame]
  exact ⟨rfl, rfl, rfl, rfl⟩

theorem lossTail_of_requesting (requesting : (z.posRec p).state = .requesting) :
    (lossTail p z).floor = (cancelPass p .down (latch p 0 z)).floor ∧ (lossTail p z).trans = z.trans ∧
      (lossTail p z).script = z.script ∧ (lossTail p z).feeds = z.feeds := by
  have on : (z.posRec p).state ≠ .off := by rw [requesting]; decide
  rw [lossTail, floorLinkDown_of_on (s := latch p 0 z) on, withdraw_of_requesting (s := latch p 0 z) requesting]
  simp [latch]

theorem lossTail_of_live (live : (z.posRec p).state = .live) :
    (lossTail p z).floor = (losePos p .down (latch p 0 z)).floor ∧
      (lossTail p z).trans = (resolveOrder (latch p 0 z)).trans ∧
      (lossTail p z).hasCause .floorVacant =
        (z.sessionOpen && decide ((z.posRec (otherPos p)).state ≠ .requesting)) := by
  have on : (z.posRec p).state ≠ .off := by rw [live]; decide
  rw [lossTail, floorLinkDown_of_on (s := latch p 0 z) on, withdraw_of_live (s := latch p 0 z) live,
    setCause_hasCause_other _ _ (by simp), losePos_hasCause]
  exact ⟨by simp, by simp [losePos_trans], rfl⟩

end

/-! ### The state in which the stroke is closed -/

/-- The record of a lost link; `broken` marks a break that has begun. -/
def KeyLink.lost (broken : Bool) (l : KeyLink) : KeyLink :=
  { l with
    rx := .hunt
    inBreak := broken || l.inBreak
    link := .down
    lastReport := none
    silenceFrom := none
    linkDowns := l.linkDowns + 1
    damagedReports := if l.rx = .hunt then l.damagedReports else l.damagedReports + 1 }

/-- The state in which the open stroke of a lost link is closed: the link is DOWN, the report in progress damaged. -/
def State.losing (s : State) (p : Pos) (broken marked : Bool) : State :=
  { s with links := s.links.upd p (KeyLink.lost broken), formers := s.formers.upd p (Former.marked marked) }

theorem linkDown_of_silence (p : Pos) (s : State) :
    ∃ b, linkDown p (damageProgress p s) = lossTail p (closeStroke p false true true (s.losing p false b)) := by
  obtain ⟨b, damaged⟩ := damageProgress_eq p s
  refine ⟨b, ?_⟩
  rw [damaged]
  simp only [linkDown, lossTail, State.onLink, State.onLinks, Two.upd_upd]
  rfl

theorem linkDown_of_break (p : Pos) (s : State) :
    ∃ b, linkDown p (damageProgress p (s.onLink p (fun l => { l with inBreak := true }))) =
      lossTail p (closeStroke p false true true (s.losing p true b)) := by
  obtain ⟨b, damaged⟩ := damageProgress_eq p (s.onLink p (fun l => { l with inBreak := true }))
  refine ⟨b, ?_⟩
  rw [damaged]
  simp only [linkDown, lossTail, State.onLink, State.onLinks, Two.upd_upd]
  rfl

/-- `u` is `s` some time later, for what the loss of a link reads. -/
structure Ran (s u : State) : Prop where
  kept : u = { s with time := u.time, store := u.store, trans := u.trans }
  inFlight : u.trans.inFlight = s.trans.inFlight
  state : u.store.state = s.store.state
  header : u.store.header = s.store.header
  append : u.store.log.append = s.store.log.append

theorem Ran.refl (s : State) : Ran s s := ⟨rfl, rfl, rfl, rfl, rfl⟩

theorem Ran.runTo (s : State) (t : LocalTime) (limit : Nat) : Ran s (s.runTo t limit) := by
  unfold State.runTo
  split
  · exact ⟨rfl, rfl, rfl, rfl, rfl⟩
  · exact .refl s

/-! ### A stroke is closed by the loss -/

/-- The open stroke of the lost link is closed in its session. -/
def State.numbersLost (s : State) (p : Pos) : Bool :=
  match (s.formers.get p).openStroke with
  | none => false
  | some o => o.inSession && decide (s.script.session = .opened)

section
variable {p : Pos} {s u : State} {broken b : Bool} (ran : Ran s u)
include ran

theorem losing_open : ((u.losing p broken b).formers.get p).openStroke =
    ((s.formers.get p).openStroke).map (OpenStroke.marked b) := by
  rw [ran.kept]
  exact congrArg Former.openStroke (Two.get_upd_same s.formers p _)

theorem losing_session : (u.losing p broken b).sessionOpen = decide (s.script.session = .opened) := by
  rw [ran.kept]
  rfl

theorem lostStroke_of_losing :
    LostStroke p (s.numbersLost p) (u.losing p broken b) (closeStroke p false true true (u.losing p broken b)) := by
  have is_open := losing_open (p := p) (broken := broken) (b := b) ran
  have session := losing_session (p := p) (broken := broken) (b := b) ran
  cases stroke : (s.formers.get p).openStroke with
  | none =>
    have none_open : ((u.losing p broken b).formers.get p).openStroke = none := by rw [is_open, stroke]; rfl
    have same : closeStroke p false true true (u.losing p broken b) = u.losing p broken b := by
      simp only [closeStroke, none_open]
    have not_numbered : s.numbersLost p = false := by simp [State.numbersLost, stroke]
    rw [same, not_numbered]
    exact .of_none none_open
  | some o =>
    rw [stroke, Option.map_some] at is_open
    have numbered : s.numbersLost p = ((o.marked b).inSession && (u.losing p broken b).sessionOpen) := by
      rw [session]
      simp [State.numbersLost, stroke, OpenStroke.marked]
    cases inside : s.numbersLost p with
    | false => exact (closeStroke_lost_outside is_open (numbered.symm.trans inside)).1
    | true => exact closeStroke_lost_inside is_open (numbered.symm.trans inside)

/-- The formers after the loss. -/
theorem lostFormers : (lossTail p (closeStroke p false true true (u.losing p broken b))).formers =
    s.formers.upd p (fun f => { f.lost (s.numbersLost p) with latched := 0 }) := by
  rw [lossTail_formers, (lostStroke_of_losing ran).formers, ran.kept]
  simp only [State.losing, Two.upd_upd]
  refine Two.upd_eq_of_get ?_
  cases stroke : (s.formers.get p).openStroke <;> simp [Former.lost, Former.marked, stroke]

/-- The floor before the position goes down. -/
theorem lostStroke_floor : (closeStroke p false true true (u.losing p broken b)).floor =
    { s.floor with pos := s.floor.pos.upd p (PosRec.relayed (s.numbersLost p)) } := by
  rw [(lostStroke_of_losing ran).floor, ran.kept]
  rfl

theorem lostStroke_state :
    ((closeStroke p false true true (u.losing p broken b)).posRec p).state = (s.posRec p).state := by
  rw [State.posRec, lostStroke_floor ran]
  dsimp only
  rw [Two.get_upd_same]
  rfl

theorem lostStroke_other :
    (closeStroke p false true true (u.losing p broken b)).posRec (otherPos p) = s.posRec (otherPos p) := by
  rw [State.posRec, lostStroke_floor ran]
  exact Two.get_upd_other _ _ _ _ (otherPos_ne p)

omit ran in
/-- A LIVE or REQUESTING position's record once its link is lost. -/
def PosRec.gone (numbered : Bool) (r : PosRec) : PosRec :=
  { r with
    state := .down
    queue := []
    pending := none
    relayDrops := r.relayDrops +
      BitVec.ofNat 32 (r.queue.length + r.pending.toList.length + (if numbered then 1 else 0)) }

omit ran in
theorem PosRec.gone_eq {numbered : Bool} {r : PosRec} (held : r.state = .live ∨ r.state = .requesting) :
    { r.relayed numbered with
      state := .down
      queue := []
      pending := none
      relayDrops := (r.relayed numbered).relayDrops + BitVec.ofNat 32 (r.queue.length + r.pending.toList.length) } =
      r.gone numbered := by
  cases numbered with
  | false => simp [PosRec.relayed, PosRec.gone]
  | true =>
    have drops : r.relayDrops + 1 + BitVec.ofNat 32 (r.queue.length + r.pending.toList.length) =
        r.relayDrops + BitVec.ofNat 32 (r.queue.length + r.pending.toList.length + 1) := by
      rw [BitVec.ofNat_add _ 1, BitVec.add_assoc, BitVec.add_comm 1]
      rfl
    simp only [PosRec.relayed, PosRec.gone, held, and_self, if_true, drops]

theorem lostFloor_of_live (live : (s.posRec p).state = .live) :
    (lossTail p (closeStroke p false true true (u.losing p broken b))).floor =
      { s.floor with
        pos := (s.floor.pos.upd p (fun _ => (s.posRec p).gone (s.numbersLost p))).upd (otherPos p) (fun x =>
          if x.state = .requesting then { x with state := .live } else x)
        state := if (s.posRec (otherPos p)).state = .requesting then .held else .vacant
        waitFrom := none
        floorLosses := s.floor.floorLosses + 1 } := by
  rw [(lossTail_of_live ((lostStroke_state ran).trans live)).1, losePos_floor]
  have kept : ∀ z, (latch p 0 z).floor = z.floor := fun _ => rfl
  have other : ∀ z, (latch p 0 z).posRec (otherPos p) = z.posRec (otherPos p) := fun _ => rfl
  rw [kept, other, lostStroke_other ran, lostStroke_floor ran]
  simp only [Two.upd_upd]
  congr 2
  exact Two.upd_eq_of_get (PosRec.gone_eq (.inl live))

theorem lostFloor_of_requesting (requesting : (s.posRec p).state = .requesting) :
    (lossTail p (closeStroke p false true true (u.losing p broken b))).floor =
      { s.floor with
        pos := s.floor.pos.upd p (fun _ => (s.posRec p).gone (s.numbersLost p))
        state := .held
        waitFrom := none
        cancelledPasses := s.floor.cancelledPasses + 1 } := by
  rw [(lossTail_of_requesting ((lostStroke_state ran).trans requesting)).1, cancelPass_floor]
  have kept : ∀ z, (latch p 0 z).floor = z.floor := fun _ => rfl
  rw [kept, lostStroke_floor ran]
  simp only [Two.upd_upd]
  congr 1
  exact Two.upd_eq_of_get (PosRec.gone_eq (.inr requesting))

theorem lostFloor_of_other (other : (s.posRec p).state ≠ .live ∧ (s.posRec p).state ≠ .requesting) :
    (closeStroke p false true true (u.losing p broken b)).floor = s.floor := by
  rw [lostStroke_floor ran]
  have same : (s.posRec p).relayed (s.numbersLost p) = s.posRec p := by simp [PosRec.relayed, other]
  rw [Two.upd_id same]

theorem lostFloor_of_off (off : (s.posRec p).state = .off) :
    (lossTail p (closeStroke p false true true (u.losing p broken b))).floor = s.floor :=
  (lossTail_of_off ((lostStroke_state ran).trans off)).1.trans (lostFloor_of_other ran (by simp [off]))

theorem lostFloor_of_idle (idle : (s.posRec p).state = .shadow ∨ (s.posRec p).state = .down) :
    (lossTail p (closeStroke p false true true (u.losing p broken b))).floor =
      { s.floor with pos := s.floor.pos.upd p (fun r => { r with state := .down }) } := by
  rw [(lossTail_of_idle (by rw [lostStroke_state ran]; exact idle)).1,
    lostFloor_of_other ran (by rcases idle with idle | idle <;> simp [idle])]

theorem lostState : ((lossTail p (closeStroke p false true true (u.losing p broken b))).posRec p).state =
    if (s.posRec p).state = .off then .off else .down := by
  rw [State.posRec]
  cases state : (s.posRec p).state with
  | off => rw [lostFloor_of_off ran state]; exact state
  | down => rw [lostFloor_of_idle ran (.inr state)]; exact congrArg PosRec.state (Two.get_upd_same _ _ _)
  | shadow => rw [lostFloor_of_idle ran (.inl state)]; exact congrArg PosRec.state (Two.get_upd_same _ _ _)
  | requesting => rw [lostFloor_of_requesting ran state]; exact congrArg PosRec.state (Two.get_upd_same _ _ _)
  | live =>
    rw [lostFloor_of_live ran state]
    refine (congrArg PosRec.state (Two.get_upd_other _ _ _ _ (otherPos_ne p).symm)).trans ?_
    exact congrArg PosRec.state (Two.get_upd_same _ _ _)

end

/-! ### The commands -/

theorem exec_lost {p : Pos} {s : State} {c : Instr} {u : State} (calm : s.calm)
    (lost : c = .breakDetected p ∧ (s.links.get p).inBreak = false ∧ (s.links.get p).link = .up ∧ u = s ∨
      c = .silenceIntervalExpiry p ∧ ∃ t0, (s.links.get p).silenceFrom = some t0 ∧ u = s.runTo t0 500000) :
    Ran s u ∧ ∃ b, exec c s = .next (lossTail p (closeStroke p false true true
      (u.losing p (decide (c = .breakDetected p)) b))).settled := by
  have ran : Ran s u := by
    rcases lost with ⟨-, -, -, rfl⟩ | ⟨-, t0, -, rfl⟩
    · exact .refl u
    · exact .runTo s t0 _
  have calm_u : u.calm := by rw [ran.kept]; exact calm
  have calm_tail : ∀ broken b, (lossTail p (closeStroke p false true true (u.losing p broken b))).calm :=
    fun broken b => (lossTail_gains _ _).calm ((lostStroke_of_losing ran).calm calm_u)
  refine ⟨ran, ?_⟩
  rcases lost with ⟨rfl, no_break, up, rfl⟩ | ⟨rfl, t0, runs, later⟩
  · obtain ⟨b, down⟩ := linkDown_of_break p u
    refine ⟨b, ?_⟩
    obtain ⟨d, damaged⟩ := damageProgress_eq p (u.onLink p (fun l => { l with inBreak := true }))
    have still_up : ((damageProgress p (u.onLink p (fun l => { l with inBreak := true }))).links.get p).link = .up := by
      rw [damaged]
      simp [State.onLink, up]
    show execBreak p u = _
    rw [execBreak, if_neg (by simp [no_break])]
    dsimp only
    rw [if_pos still_up, down, decide_eq_true (rfl : Instr.breakDetected p = .breakDetected p),
      finishStep_calm _ (calm_tail true b)]
  · obtain ⟨b, down⟩ := linkDown_of_silence p u
    refine ⟨b, ?_⟩
    show execSilenceIntervalExpiry p s = _
    simp only [execSilenceIntervalExpiry, runs]
    have limit : Config.silenceLimit = 500000 := rfl
    rw [limit, ← later, down, decide_eq_false (by simp), finishStep_calm _ (calm_tail false b)]

/-- Settles O23: the stroke by `lostStroke_of_losing` and `closeStroke_lost_taken`, the floor by `lostFloor_of_live` and its
like. -/
theorem linkLossTakesThePositionDown : Obligations.LinkLossTakesThePositionDown := by
  intro p s calm
  refine ⟨fun c u lost => ?lost, fun in_break down hunt => ?again, rfl⟩
  case again =>
    have stays : ((s.onLink p (fun l => { l with inBreak := true })).links.get p).rx = .hunt := by
      simpa [State.onLink] using hunt
    have is_down : ((s.onLink p (fun l => { l with inBreak := true })).links.get p).link ≠ .up := by
      simp [State.onLink, down]
    show execBreak p s = _
    rw [execBreak, if_neg (by simp [in_break])]
    dsimp only
    rw [damageProgress_of_hunt stays, if_neg is_down]
    exact congrArg Host.Outcome.next (finishStep_calm (s.onLink p _) calm)
  case lost =>
    obtain ⟨ran, b, runs⟩ := exec_lost calm lost
    generalize decide (c = .breakDetected p) = broken at runs
    intro r numbered gone
    have numbered_is : numbered = s.numbersLost p := rfl
    clear_value numbered
    subst numbered_is
    have closed := lostStroke_of_losing (p := p) (broken := broken) (b := b) ran
    have state := lostStroke_state (p := p) (broken := broken) (b := b) ran
    have other := lostStroke_other (p := p) (broken := broken) (b := b) ran
    have formers := lostFormers (p := p) (broken := broken) (b := b) ran
    have position := lostState (p := p) (broken := broken) (b := b) ran
    have when_off := lostFloor_of_off (p := p) (broken := broken) (b := b) ran
    have when_idle := lostFloor_of_idle (p := p) (broken := broken) (b := b) ran
    have when_live := lostFloor_of_live (p := p) (broken := broken) (b := b) ran
    have when_requesting := lostFloor_of_requesting (p := p) (broken := broken) (b := b) ran
    have is_open := losing_open (p := p) (broken := broken) (b := b) ran
    have session := losing_session (p := p) (broken := broken) (b := b) ran
    have outside := fun o => closeStroke_lost_outside (p := p) (o := OpenStroke.marked b o) (u := u.losing p broken b)
    have taken := fun o => closeStroke_lost_taken (p := p) (o := OpenStroke.marked b o) (u := u.losing p broken b)
    have refuses := fun o => closeStroke_lost_refused (p := p) (o := OpenStroke.marked b o) (u := u.losing p broken b)
    have before : u.losing p broken b = { s with
        links := s.links.upd p (KeyLink.lost broken), formers := s.formers.upd p (Former.marked b)
        time := u.time, store := u.store, trans := u.trans } := by
      rw [ran.kept]
      rfl
    generalize u.losing p broken b = w at *
    generalize closeStroke p false true true w = z at *
    have gains := lossTail_gains p z
    have kept := lossTail_kept p z
    have cause := lossTail_cause p z
    have same_script : z.script = s.script := by rw [closed.kept, before]
    have same_trans : z.trans = u.trans := by rw [closed.kept, before]
    have if_off := lossTail_of_off (p := p) (z := z)
    have if_idle := lossTail_of_idle (p := p) (z := z)
    have if_requesting := lossTail_of_requesting (p := p) (z := z)
    have if_live := lossTail_of_live (p := p) (z := z)
    generalize lossTail p z = v at *
    have frame := settled_kept v
    refine ⟨_, runs, ?links, ?formers, ?seq, ?outside, ?inside, ?state, ?off, ?idle, ?live, ?requesting, ?rest, ?cause, ?kept⟩
    case links =>
      rw [frame, kept, closed.kept, before]
      rfl
    case formers =>
      rw [frame, formers]
      refine Two.upd_eq_of_get ?_
      cases stroke : (s.formers.get p).openStroke <;> simp [Former.lost, stroke]
    case seq => rw [frame, kept, closed.seqCounter, before]
    case outside =>
      intro o stroke not_numbered echo few
      have opened : (w.formers.get p).openStroke = some (o.marked b) := by rw [is_open, stroke]; rfl
      have out : ((o.marked b).inSession && w.sessionOpen) = false := by
        rw [session]
        simpa [State.numbersLost, stroke, OpenStroke.marked] using not_numbered
      refine mem_settled_notices (gains.mem_notices ((outside o opened out).2 ?_ ?_))
      · rw [before]; exact echo
      · rw [before]; exact few.trans (by decide)
    case inside =>
      intro o refused h stroke numbered header decides record
      have opened : (w.formers.get p).openStroke = some (o.marked b) := by rw [is_open, stroke]; rfl
      have within : ((o.marked b).inSession && w.sessionOpen) = true := by
        rw [session]
        simpa [State.numbersLost, stroke, OpenStroke.marked] using numbered
      have decides : refused = true ↔ ¬ ((s.store.state = .ready ∨ s.store.state = .fault) ∧ (s.log.openPage ≠ none ∨
        s.log.pages.length < 8 ∧ ∃ a, s.store.log.append = some a ∧ a < h.log.len * 256)) := decides
      have admits : w.admits ↔ refused ≠ true := by
        have header_w : w.store.header = some h := by rw [before]; exact ran.header.trans header
        rw [Ne, decides, not_not, admits_iff header_w, before]
        simp only [ran.state, ran.append]
      have bytes : strokeRecord w (lostRecord p (o.marked b) w.seqCounter) = record := by rw [before]; rfl
      refine ⟨fun not_refused => ?_, fun is_refused => ?_, fun echo few => ?_⟩
      · obtain ⟨count, in_open, in_new, -⟩ := taken o opened within (admits.mpr (by simp [not_refused]))
        rw [bytes] at in_open in_new
        refine ⟨?_, fun page is => ?_, fun a none append => ?_⟩
        · rw [settled_log, (takeUp_log v).1]
          exact gains.unloggedCount.trans (count.trans (by rw [before]))
        · exact (holdsPage_settled (gains.holdsPage (in_open page (by rw [before]; exact is)).holds)).more
        · exact (holdsPage_settled (gains.holdsPage (in_new a (by rw [before]; exact none)
            (by rw [before]; exact ran.append.trans append)).holds)).more (recs := [])
      · obtain ⟨count, is_set, -⟩ := refuses o opened within (mt admits.mp (by simp [is_refused]))
        refine ⟨?_, ?_⟩
        · rw [settled_log, (takeUp_log v).1]
          exact gains.unloggedCount.trans (count.trans (by rw [before]))
        · exact settled_keepsSet v _ (gains.set _ is_set)
      · refine mem_settled_notices (gains.mem_notices ?_)
        have echo_w : w.settings.strokeEcho = true := by rw [before]; exact echo
        have few_w : w.host.notices.length < 24 := by rw [before]; exact few
        have seq_w : w.seqCounter = s.seqCounter := by rw [before]
        rw [← seq_w]
        cases refused with
        | false => exact (taken o opened within (admits.mpr (by decide))).2.2.2 echo_w few_w
        | true => exact (refuses o opened within (mt admits.mp (by decide))).2.2 echo_w few_w
    case state =>
      rw [State.posRec, settled_floor]
      exact position
    case off => exact fun off => (settled_floor v).trans (when_off off)
    case idle => exact fun idle => (settled_floor v).trans (when_idle idle)
    case live =>
      intro live
      obtain ⟨-, trans, vacant⟩ := if_live (state.trans live)
      have open_z : z.sessionOpen = decide (s.script.session = .opened) := by rw [State.sessionOpen, same_script]
      have trans_z : (latch p 0 z).trans = u.trans := same_trans
      refine ⟨(settled_floor v).trans (when_live live), fun opened => ?_, fun rests => ?_, fun flies => ?_⟩
      · refine (settled_hasCause v _).trans (vacant.trans ?_)
        rw [open_z, other, decide_eq_true opened, Bool.true_and]
      · rw [settled_trans, trans]
        exact resolveOrder_hold (by rw [trans_z]; exact ran.inFlight.trans rests)
      · rw [settled_trans, trans, resolveOrder_of_inFlight (by rw [trans_z]; exact ran.inFlight.trans_ne flies),
          onTrans_trans, trans_z]
    case requesting => exact fun requesting => (settled_floor v).trans (when_requesting requesting)
    case rest =>
      intro not_live
      have rests : v.trans = z.trans ∧ v.script = z.script ∧ v.feeds = z.feeds := by
        cases is : (s.posRec p).state with
        | off => exact (if_off (state.trans is)).2
        | down => exact (if_idle (.inr (state.trans is))).2
        | shadow => exact (if_idle (.inl (state.trans is))).2
        | requesting => exact (if_requesting (state.trans is)).2
        | live => exact absurd is not_live
      obtain ⟨trans, script, feeds⟩ := rests
      rw [frame, trans, script, feeds, same_trans, same_script, closed.kept, before]
      exact ⟨rfl, rfl, rfl⟩
    case cause => exact (settled_hasCause v _).trans cause
    case kept =>
      rw [frame, kept, closed.kept, before, ran.kept]

end Sys2Proof.Machine
end

section
/-! The creation of a unit, and INSERT-NOTE (R74, R123, R124, R128, R131). -/

namespace Sys2Proof.Machine

/-! ### Units up to firmness -/

/-- A unit as it is once FIRM. -/
def TUnit.asFirm (u : TUnit) : TUnit := { u with state := .firm }

theorem TUnit.eq_of_asFirm {u v : TUnit} (same : u.asFirm = v.asFirm) : u = { v with state := u.state } := by
  cases u
  cases v
  simp only [TUnit.asFirm, TUnit.mk.injEq] at same ⊢
  simpa using same

theorem changeUnit_firm_asFirm (n : Nat) (us : List TUnit) :
    (changeUnit n (fun u => { u with state := .firm }) us).map TUnit.asFirm = us.map TUnit.asFirm := by
  rw [changeUnit, List.map_map]
  refine List.map_congr_left fun u _ => ?_
  rw [Function.comp]
  split <;> rfl

/-- Firmness changes the state of units, their count, and nothing else of the transcript. -/
theorem firmOldest_asFirm (k : Nat) (s : State) :
    (firmOldest k s).script = { s.script with
      units := (firmOldest k s).script.units, unitsFirmed := (firmOldest k s).script.unitsFirmed } ∧
      (firmOldest k s).script.units.map TUnit.asFirm = s.script.units.map TUnit.asFirm := by
  induction k generalizing s with
  | zero => exact ⟨rfl, rfl⟩
  | succ k ih =>
    unfold firmOldest
    split
    · exact ⟨rfl, rfl⟩
    next u _ =>
      obtain ⟨kept, same⟩ := ih (firmUnit u.number s)
      refine ⟨?_, ?_⟩
      · rw [kept, firmUnit_script]
      · rw [same, firmUnit_script]
        exact changeUnit_firm_asFirm _ _

theorem getLast?_of_asFirm {us vs : List TUnit} {u : TUnit} (same : us.map TUnit.asFirm = vs.map TUnit.asFirm)
    (last : vs.getLast? = some u) : ∃ st, us.getLast? = some { u with state := st } := by
  have lasts := congrArg List.getLast? same
  rw [List.getLast?_map, List.getLast?_map, last, Option.map_some, Option.map_eq_some_iff] at lasts
  obtain ⟨v, is, firm⟩ := lasts
  exact ⟨v.state, is.trans (congrArg some (TUnit.eq_of_asFirm firm))⟩

/-! ### CREATE -/

theorem freeHead_script (s : State) : (freeHead s).script = { s.script with
    units := (freeHead s).script.units, unitsFreed := (freeHead s).script.unitsFreed, lock := (freeHead s).script.lock
    locksBroken := (freeHead s).script.locksBroken } := by
  unfold freeHead
  split
  · rfl
  · dsimp only
    unfold breakLock
    split <;> simp

/-- The state once CREATE has made room. -/
def State.withRoom (s : State) : State := if Config.unitsMax ≤ s.script.units.length then freeHead s else s

/-- The unit that CREATE appends. -/
def State.numbered (s : State) (u : TUnit) : TUnit :=
  { u with number := s.script.nextNumber, commitTime := if u.isCommitted then some s.time.now else none }

/-- A unit appended and reported. -/
def appendUnit (u : TUnit) (s : State) : State :=
  report (.added s.script.nextNumber) (s.onScript fun t =>
    { t with
      units := t.units ++ [s.numbered u], nextNumber := s.script.nextNumber + 1, unitsCreated := t.unitsCreated + 1 })

theorem createUnit_eq (u : TUnit) (s : State) : createUnit u s =
    if u.isCommitted then firmByCount (appendUnit u s.withRoom) else appendUnit u s.withRoom := rfl

theorem appendUnit_script (u : TUnit) (s : State) : (appendUnit u s).script = { s.script with
    units := s.script.units ++ [s.numbered u], nextNumber := s.script.nextNumber + 1
    unitsCreated := s.script.unitsCreated + 1 } := by
  simp [appendUnit]

theorem withRoom_kept (s : State) : s.withRoom.script.nextNumber = s.script.nextNumber ∧
    s.withRoom.script.sessionNumber = s.script.sessionNumber ∧ s.withRoom.time.now = s.time.now := by
  unfold State.withRoom
  split
  · rw [freeHead_script]
    exact ⟨rfl, rfl, by simp⟩
  · exact ⟨rfl, rfl, rfl⟩

/-- The transcript after CREATE, up to firmness by count. -/
theorem createUnit_asFirm (u : TUnit) (s : State) :
    (createUnit u s).script = { (appendUnit u s.withRoom).script with
      units := (createUnit u s).script.units, unitsFirmed := (createUnit u s).script.unitsFirmed } ∧
      (createUnit u s).script.units.map TUnit.asFirm = (appendUnit u s.withRoom).script.units.map TUnit.asFirm := by
  rw [createUnit_eq]
  split
  · exact firmOldest_asFirm _ _
  · exact ⟨rfl, rfl⟩

/-- What the new unit of CREATE is, but for its state, which firmness by count may change. -/
theorem createUnit_script (u : TUnit) (s : State) :
    (createUnit u s).script.nextNumber = s.script.nextNumber + 1 ∧
      (createUnit u s).script.sessionNumber = s.script.sessionNumber ∧
      ∃ st, (createUnit u s).script.units.getLast? = some { s.numbered u with state := st } := by
  obtain ⟨next, session, now⟩ := withRoom_kept s
  obtain ⟨kept, same⟩ := createUnit_asFirm u s
  rw [appendUnit_script] at kept same
  refine ⟨?_, ?_, ?_⟩
  · rw [kept, ← next]
  · rw [kept, ← session]
  · have unit : s.withRoom.numbered u = s.numbered u := by rw [State.numbered, State.numbered, next, now]
    rw [unit] at same
    exact getLast?_of_asFirm same List.getLast?_concat

/-! ### INSERT-NOTE -/

section
variable {tag code : Byte} {text : Bytes} {s : State}

theorem insertNote_finishes (text_lt : text.length < 256) :
    exec (.insertNote tag (code :: byte text.length :: text)) s = .next (finishStep (takeRequest tag true false
      (insertNoteRule tag (code :: byte text.length :: text)) noAfter s)) := by
  show Host.Outcome.next _ = _
  rw [lenText1_label code text_lt]

theorem insertNoteRule_of_bad (unknown : clsOfCode code.toNat = none) :
    insertNoteRule tag (code :: byte text.length :: text) s = (s, .refused .badValue) := by
  simp only [insertNoteRule, byteAt_cons_zero, unknown]

variable {c : Cls} (known : clsOfCode code.toNat = some c)
include known

theorem insertNoteRule_eq :
    insertNoteRule tag (code :: byte text.length :: text) s =
      if 48 < text.length then (s, .refused .tooLong)
      else if s.script.session ≠ .opened then (s, .refused .noSession)
      else if 4 ≤ s.trans.notes.length then (s, .refused .busy)
      else if s.trans.inFlight = none ∧ s.trans.hold = [] ∧ s.trans.notes = [] then
        (insertNote { tag := tag, text := text, cls := c } s, .done (be 4 s.script.nextNumber))
      else (s.onTrans (fun t => { t with notes := t.notes ++ [{ tag := tag, text := text, cls := c }] }), .accepted) := by
  simp only [insertNoteRule, byteAt_cons_zero, known, List.drop_succ_cons, List.drop_zero, Config.textMax,
    Config.notesMax, Translator.atRest, Bool.and_eq_true, Option.isNone_iff_eq_none, List.isEmpty_iff, and_assoc]

end

theorem clsOfCode_eq_none {n : Nat} (above : 3 < n) : clsOfCode n = none := by
  match n, above with
  | n + 4, _ => rfl

/-- The NOTE-MARK record of a note inserted now. -/
def State.noteMark (s : State) : Bytes :=
  logRecord 0 (logFlags none false false false false false) s.time.stamp s.script.nextNumber s.logSession 5

/-- A note is inserted: its record is offered to a log that stands as before. -/
theorem insertNote_offers (n : Note) (s : State) :
    ∃ y f, insertNote n s = (offerOther s.noteMark y).onTrans f ∧ y.log = s.log ∧ y.store = s.store := by
  obtain ⟨-, session, -⟩ := createUnit_script (noteUnit n s.trans.base s.stamp) s.stamped
  have mark : noteRecord (createUnit (noteUnit n s.trans.base s.stamp) s.stamped) s.script.nextNumber s.stamp =
      s.noteMark := by
    rw [noteRecord, State.logSession, session]
    rfl
  refine ⟨createUnit (noteUnit n s.trans.base s.stamp) s.stamped,
    fun t => { t with notesInserted := t.notesInserted + 1 }, ?_, by simp, by simp⟩
  rw [← mark]
  rfl

theorem insertNote_script (n : Note) (s : State) :
    (insertNote n s).script = (createUnit (noteUnit n s.trans.base s.stamp) s.stamped).script := by
  simp [insertNote]

theorem admits_congr {s t : State} (log : t.log = s.log) (store : t.store = s.store) : t.admits ↔ s.admits := by
  rw [State.admits, State.admits, State.logTakes, State.logTakes, State.newPage, State.newPage, log, store]

section
variable (n : Note) {s : State}

theorem insertNote_page_of_open {page : BufPage} (takes : s.logTakes = true) (opened : s.log.openPage = some page) :
    (insertNote n s).hasPage page.page (page.records ++ [s.noteMark]) := by
  obtain ⟨y, f, is, log, store⟩ := insertNote_offers n s
  have admits : y.admits := (admits_congr log store).mpr ⟨takes, .inl (by simp [opened])⟩
  rw [is, offerOther_of_taken admits]
  exact offerRecord_page_of_open (by rw [State.logTakes, store]; exact takes) (by rw [log]; exact opened)

theorem insertNote_page_of_new {a : Nat} (takes : s.logTakes = true) (none_open : s.log.openPage = none)
    (new : s.newPage = some a) :
    (insertNote n s).hasPage a [s.noteMark] ∧ (insertNote n s).store.log.append = some (a + 1) := by
  obtain ⟨y, f, is, log, store⟩ := insertNote_offers n s
  have admits : y.admits := (admits_congr log store).mpr ⟨takes, .inr (by simp [new])⟩
  rw [is, offerOther_of_taken admits]
  exact offerRecord_page_of_new (by rw [State.logTakes, store]; exact takes) (by rw [log]; exact none_open)
    (by rw [State.newPage, log, store]; exact new)

theorem insertNote_log_of_refused (refused : ¬ s.admits) :
    (insertNote n s).log = { s.log with recordsRefused := s.log.recordsRefused + 1 } := by
  obtain ⟨y, f, is, log, store⟩ := insertNote_offers n s
  rw [is, offerOther_of_refused (mt (admits_congr log store).mp refused), onTrans_log, onLog_log, log]

end

theorem settled_script (s : State) : s.settled.script = s.script := by rw [settled_kept]

/-- Settles O44: the rule by its branches, the unit by `createUnit_script`, the record by where `offerRecord` puts it. -/
theorem insertNoteMakesANote : Obligations.InsertNoteMakesANote := by
  intro tag code text s accepts calm text_lt payload
  have runs : ∀ t, finishStep (takeRequest tag true false (insertNoteRule tag payload) noAfter s) = t →
      exec (.insertNote tag payload) s = .next t := fun t is =>
    (insertNote_finishes text_lt).trans (congrArg Host.Outcome.next is)
  refine ⟨fun bad => ?bad, fun c known => ⟨fun long => ?long, fun short => ⟨fun closed => ?closed, fun opened =>
    ⟨fun full => ?full, fun room waits => ?queues, fun rests no_hold no_notes => ?acts⟩⟩⟩⟩
  case bad =>
    exact runs _ (finishStep_request_refused accepts calm (insertNoteRule_of_bad (clsOfCode_eq_none bad)))
  case long =>
    exact runs _ (finishStep_request_refused accepts calm ((insertNoteRule_eq known).trans (if_pos long)))
  case closed =>
    exact runs _ (finishStep_request_refused accepts calm ((insertNoteRule_eq known).trans
      ((if_neg (Nat.not_lt.mpr short)).trans (if_pos closed))))
  case full =>
    exact runs _ (finishStep_request_refused accepts calm ((insertNoteRule_eq known).trans
      ((if_neg (Nat.not_lt.mpr short)).trans ((if_neg (not_not.mpr opened)).trans (if_pos full)))))
  case queues =>
    have not_rest : ¬ (s.trans.inFlight = none ∧ s.trans.hold = [] ∧ s.trans.notes = []) := by tauto
    exact runs _ (finishStep_request_counted accepts ((insertNoteRule_eq known).trans
      ((if_neg (Nat.not_lt.mpr short)).trans ((if_neg (not_not.mpr opened)).trans
        ((if_neg (Nat.not_le.mpr room)).trans (if_neg not_rest))))) rfl calm.2)
  case acts =>
    have rule : insertNoteRule tag payload s.counted =
        (insertNote { tag := tag, text := text, cls := c } s.counted, .done (be 4 s.script.nextNumber)) :=
      (insertNoteRule_eq (s := s.counted) known).trans ((if_neg (Nat.not_lt.mpr short)).trans
        ((if_neg (not_not.mpr opened)).trans ((if_neg (by simp [State.counted, no_notes])).trans
          (if_pos ⟨rests, no_hold, no_notes⟩))))
    have gains := insertNote_gains { tag := tag, text := text, cls := c } s.counted
    have trans := insertNote_trans { tag := tag, text := text, cls := c } s.counted
    obtain ⟨next, -, st, last⟩ := createUnit_script
      (noteUnit { tag := tag, text := text, cls := c } s.counted.trans.base s.counted.stamp) s.counted.stamped
    rw [← insertNote_script] at next last
    have in_open := fun page => insertNote_page_of_open { tag := tag, text := text, cls := c } (s := s.counted) (page := page)
    have in_new := fun a => insertNote_page_of_new { tag := tag, text := text, cls := c } (s := s.counted) (a := a)
    have not_taken := insertNote_log_of_refused { tag := tag, text := text, cls := c } (s := s.counted)
    generalize insertNote { tag := tag, text := text, cls := c } s.counted = u at *
    have answered := mem_settled_addReply tag (.done (be 4 s.script.nextNumber)) .nothing u
    have ended := runs _ (finishStep_request_taken accepts rule (gains.calm ⟨calm.1, calm.2⟩))
    have log : (addReply tag (.done (be 4 s.script.nextNumber)) .nothing u).log = u.log := rfl
    have store : (addReply tag (.done (be 4 s.script.nextNumber)) .nothing u).store = u.store := rfl
    have script : (addReply tag (.done (be 4 s.script.nextNumber)) .nothing u).script = u.script := rfl
    have trans_v : (addReply tag (.done (be 4 s.script.nextNumber)) .nothing u).trans = u.trans := rfl
    generalize addReply tag (.done (be 4 s.script.nextNumber)) .nothing u = v at answered ended log store script trans_v
    have refused : ¬ s.admits → v.settled.log.recordsRefused = s.log.recordsRefused + 1 ∧
        v.settled.log.pages.map (fun q => (q.page, q.records)) = s.log.pages.map (fun q => (q.page, q.records)) := by
      intro turned_away
      rw [settled_log_pages, settled_log, (takeUp_log v).1, log, not_taken turned_away]
      exact ⟨rfl, rfl⟩
    have has : ∀ n recs, u.hasPage n recs → v.settled.hasPage n recs := fun n recs has =>
      hasPage_settled (hasPage_congr (by rw [log]) has)
    refine ⟨v.settled, ended, answered, ?_, ?_, ⟨_, (congrArg (fun t => t.units.getLast?) ((settled_script v).trans script)).trans
      last, rfl⟩, fun logs => ⟨fun page is => has _ _ (in_open page (decide_eq_true logs) is), fun h a none header append =>
      ⟨fun room short => ?_, fun full => refused ?_⟩⟩, fun not_ready not_fault => refused ?_⟩
    · rw [settled_script, script]
      exact next
    · rw [settled_trans, trans_v]
      exact trans
    · have new : s.newPage = some a := newPage_of_room header append room short
      obtain ⟨page, appended⟩ := in_new a (decide_eq_true logs) none new
      refine ⟨has _ _ page, ?_⟩
      rw [settled_store, (takeUp_taken v).eq, store]
      exact appended
    · rw [admits_iff header]
      rintro ⟨-, opened | ⟨room, b, is, short⟩⟩
      · exact opened none
      · obtain rfl : a = b := Option.some.inj (append.symm.trans is)
        omega
    · rintro ⟨takes, -⟩
      rcases of_decide_eq_true takes with ready | fault
      · exact not_ready ready
      · exact not_fault fault

end Sys2Proof.Machine
end

section
/-! OPEN-SESSION (R27, R53, R134, R135). -/

namespace Sys2Proof.Machine

/-! ### The request -/

/-- The payload of OPEN-SESSION (R196). -/
def openPayload (job session epoch : Nat) (pos : Byte) : Bytes := be 4 job ++ be 2 session ++ be 4 epoch ++ [pos]

section
variable {job session epoch : Nat} {pos : Byte} (job_lt : job < 4294967296) (session_lt : session < 65536)
  (epoch_lt : epoch < 4294967296)

theorem openPayload_eq : openPayload job session epoch pos = be 4 job ++ (be 2 session ++ (be 4 epoch ++ [pos])) := by
  simp only [openPayload, List.append_assoc]

include job_lt in
theorem openPayload_job : be4At (openPayload job session epoch pos) 0 = job := by
  rw [openPayload_eq]
  exact be4At_here job _ job_lt

include session_lt in
theorem openPayload_session : be2At (openPayload job session epoch pos) 4 = session := by
  rw [openPayload_eq]
  exact (be2At_skip (be 4 job) _ 0).trans (be2At_here session _ session_lt)

include epoch_lt in
theorem openPayload_epoch : be4At (openPayload job session epoch pos) 6 = epoch := by
  rw [openPayload_eq]
  refine (be4At_skip (be 4 job) _ 2).trans ((be4At_skip (be 2 session) _ 0).trans ?_)
  exact be4At_here epoch _ epoch_lt

theorem openPayload_pos : byteAt (openPayload job session epoch pos) 10 = pos.toNat := by
  rw [openPayload_eq]
  refine (byteAt_skip (be 4 job) _ 6).trans ((byteAt_skip (be 2 session) _ 4).trans ?_)
  exact byteAt_skip (be 4 epoch) [pos] 0

end

theorem openSession_finishes (tag pos : Byte) (job session epoch : Nat) (s : State) :
    exec (.openSession tag (openPayload job session epoch pos)) s =
      .next (finishStep (takeRequest tag true false (openRule (openPayload job session epoch pos)) noAfter s)) := rfl

/-! ### The search that OPEN-SESSION completes -/

theorem readbackParts_gains (tag : Byte) (head : Bytes) (i : Nat) (parts : List (Nat × Bytes)) (s : State) :
    Gains s (readbackParts tag head i parts s) := by
  induction parts generalizing i s with
  | nil => exact .refl s
  | cons x parts ih => exact (ih _ _).after (offerNotice_gains _ s)

theorem completeSearch_gains (s : State) : Gains s (completeSearch s) := by
  unfold completeSearch
  split
  · exact .refl s
  · exact (readbackParts_gains _ _ _ _ _).after (.of_same rfl rfl rfl rfl (TimeBase.butStamps_refl _))

theorem completeSearch_script (s : State) : (completeSearch s).script = { s.script with search := none } := by
  unfold completeSearch
  split
  next none => rw [← none]
  next q _ => simp [completeReadback]

/-! ### The steps of R135 -/

section
variable (payload : Bytes) (s : State)

theorem openTranscript_gains : Gains s (openTranscript payload s) :=
  (completeSearch_gains _).after (.of_same (by simp) (by simp) (by simp) (by simp) (by simp [TimeBase.butStamps]))

theorem openTranscript_script : (openTranscript payload s).script =
    { s.script.opened payload with search := none } := by
  rw [openTranscript, completeSearch_script]
  simp

theorem openTranscript_agedTo : (openTranscript payload s).feeds.agedTo = 0 := by
  unfold openTranscript completeSearch
  dsimp only
  split
  · rfl
  · simp [completeReadback]

/-- The state after steps 1 to 4 of R135, UNLOGGED-COUNT 0. -/
def State.freshBlocks : State :=
  (openBlocks (be4At payload 6) (openTranscript payload s)).onLog (fun w => { w with unloggedCount := 0 })

/-- The state after step 5 of R135: the SESSION-OPEN record has been offered. -/
def State.openRecorded : State :=
  offerOther (openRecord (s.freshBlocks payload) (s.freshBlocks payload).stamp) (s.freshBlocks payload).stamped

/-- The state after step 6 of R135. -/
def State.floorStarted : State := startFloor ((s.openRecorded payload).onFloor Floor.openSession)

theorem takeOpen_eq : takeOpen payload s =
    (floorVacantCause (syncCauses (s.floorStarted payload)),
      .done (be 4 (s.freshBlocks payload).stamp ++
        [byte (floorCode (floorVacantCause (syncCauses (s.floorStarted payload))).floor.state),
          byte (optPosCode (floorVacantCause (syncCauses (s.floorStarted payload))).floor.live)])) := rfl

theorem startFloor_gains (s : State) : Gains s (startFloor s) := by
  unfold startFloor
  split
  · exact .refl s
  split
  · exact takeFloor_gains _ _ s
  · exact .refl s

theorem takeOpen_gains : Gains (s.freshBlocks payload) (takeOpen payload s).1 := by
  rw [takeOpen_eq]
  have recorded : Gains (s.freshBlocks payload) (s.openRecorded payload) :=
    (offerOther_gains _ _).after (.stamped _)
  exact (floorVacantCause_gains _).after ((setCause_gains _ _ _).after ((setCause_gains _ _ _).after
    ((startFloor_gains _).after ((Gains.onFloor _ _).after recorded))))

theorem freshBlocks_eq : s.freshBlocks payload = { openTranscript payload s with
    formers := (leaveSession (openTranscript payload s)).formers
    seqCounter := 1
    time := (openTranscript payload s).time.openSession (be4At payload 6)
    trans := (openTranscript payload s).trans.openSession
    log := { (openTranscript payload s).log with unloggedCount := 0 } } := rfl

theorem freshBlocks_calm (calm : s.calm) : (s.freshBlocks payload).calm := (openTranscript_gains payload s).calm calm

theorem takeOpen_kept :
    (takeOpen payload s).1.script = { s.script.opened payload with search := none } ∧
    (takeOpen payload s).1.seqCounter = 1 ∧ (takeOpen payload s).1.trans = s.trans.openSession ∧
    (takeOpen payload s).1.feeds.agedTo = 0 ∧ (takeOpen payload s).1.settings = s.settings ∧
    (takeOpen payload s).1.flash = s.flash := by
  rw [takeOpen_eq]
  simp only [State.floorStarted, State.openRecorded, floorVacantCause_frame, syncCauses_frame, startFloor_frame,
    onFloor_script, onFloor_seqCounter, onFloor_trans, onFloor_feeds, onFloor_settings, onFloor_flash, offerOther_frame,
    State.stamped_frame]
  refine ⟨openTranscript_script payload s, rfl, ?_, openTranscript_agedTo payload s, ?_, ?_⟩
  · show (openTranscript payload s).trans.openSession = _
    simp
  · show (openTranscript payload s).settings = s.settings
    simp
  · show (openTranscript payload s).flash = s.flash
    simp

theorem takeOpen_time : (takeOpen payload s).1.time.anchorCode =
      (if s.time.sync = .unlocked then be4At payload 6 else s.time.anchorCode) ∧
    (takeOpen payload s).1.time.anchorAt = (if s.time.sync = .unlocked then s.time.now else s.time.anchorAt) ∧
    (takeOpen payload s).1.time.sync = s.time.sync := by
  have cleared : (openTranscript payload s).time.butStamps s.time := (openTranscript_gains payload s).time
  have told : (takeOpen payload s).1.time.butStamps (s.freshBlocks payload).time := (takeOpen_gains payload s).time
  rw [told, freshBlocks_eq]
  simp only [TimeBase.openSession]
  rw [cleared]
  split <;> exact ⟨rfl, rfl, rfl⟩

/-- The positions and the floor that a session starts with. -/
theorem startFloor_floor {p : Pos} {s : State} (starting : s.script.startingPos = some p) :
    (startFloor s).floor = if (s.posRec p).state = .shadow then
        { s.floor with
          pos := s.floor.pos.upd p (fun r => { r with state := .live }), state := .held, waitFrom := none }
      else s.floor := by
  simp only [startFloor, starting]
  split
  · exact takeFloor_floor p .sessionOpen s
  · rfl

theorem takeOpen_floor {p : Pos} (starting : posOfCode (byteAt payload 10) = some p) :
    (takeOpen payload s).1.floor = if (s.posRec p).state = .shadow then
        { s.floor.openSession with
          pos := s.floor.openSession.pos.upd p (fun r => { r with state := .live }), state := .held, waitFrom := none }
      else s.floor.openSession := by
  have floor : (s.openRecorded payload).floor = s.floor := by
    simp only [State.openRecorded, offerOther_frame, State.stamped_frame]
    show (openTranscript payload s).floor = s.floor
    simp
  have begins : ((s.openRecorded payload).onFloor Floor.openSession).script.startingPos = some p := by
    simp only [State.openRecorded, onFloor_script, offerOther_frame, State.stamped_frame]
    show (openTranscript payload s).script.startingPos = some p
    rw [openTranscript_script]
    exact starting
  have position : (((s.openRecorded payload).onFloor Floor.openSession).posRec p).state = (s.posRec p).state := by
    show (((s.openRecorded payload).floor.openSession).pos.get p).state = _
    rw [floor]
    cases p <;> rfl
  rw [takeOpen_eq]
  simp only [floorVacantCause_frame, syncCauses_frame, State.floorStarted]
  rw [startFloor_floor begins, position, onFloor_floor, floor]

omit payload s in
/-- Each position at the start of a session. -/
theorem openFloor_get (f : Floor) (p q : Pos) :
    (if (f.pos.get p).state = .shadow then
        { f.openSession with
          pos := f.openSession.pos.upd p (fun r => { r with state := .live }), state := .held, waitFrom := none }
      else f.openSession).pos.get q = { PosRec.reset with
        state := if (f.pos.get p).state = .shadow ∧ q = p then .live else (f.pos.get q).state } := by
  have each : ∀ q, f.openSession.pos.get q = { PosRec.reset with state := (f.pos.get q).state } := by
    intro q
    cases q <;> rfl
  by_cases shadow : (f.pos.get p).state = .shadow
  · rw [if_pos shadow]
    dsimp only
    by_cases same : q = p
    · rw [same, Two.get_upd_same, each, if_pos ⟨shadow, rfl⟩]
    · rw [Two.get_upd_other _ _ _ _ same, each, if_neg (fun both => same both.2)]
  · rw [if_neg shadow, each, if_neg (fun both => shadow both.1)]

theorem takeOpen_causes :
    (takeOpen payload s).1.hasCause .floorVacant = decide ((takeOpen payload s).1.floor.state = .vacant) ∧
      (takeOpen payload s).1.hasCause .syncUnlocked = decide (s.time.sync = .unlocked) := by
  obtain ⟨script, -⟩ := takeOpen_kept payload s
  obtain ⟨-, -, sync⟩ := takeOpen_time payload s
  have opened : (takeOpen payload s).1.script.session = .opened := by rw [script]; rfl
  rw [takeOpen_eq] at opened sync ⊢
  dsimp only at opened sync ⊢
  generalize s.floorStarted payload = x at opened sync ⊢
  have told : (floorVacantCause (syncCauses x)).time.butStamps x.time :=
    ((floorVacantCause_gains _).after ((setCause_gains _ _ _).after (setCause_gains _ _ x))).time
  simp only [floorVacantCause_frame, syncCauses_frame] at opened ⊢
  refine ⟨?_, ?_⟩
  · rw [floorVacantCause, setCause_hasCause_same]
    simp [State.sessionOpen, opened]
  · rw [floorVacantCause, setCause_hasCause_other _ _ (by decide), syncCauses, setCause_hasCause_same, opened,
      ← sync, told.sync]
    simp

end

/-! ### The refusals -/

/-- The end of a step changes the time base in its stamps alone. -/
theorem settled_time (s : State) : s.settled.time.butStamps s.time := by
  have entered : ∀ t : State, (enterOwed t).time.butStamps t.time := by
    intro t
    unfold enterOwed
    split <;> rfl
  have chosen : (chooseFrame s.takeUp).time.butStamps s.takeUp.time := by
    unfold chooseFrame
    (repeat' split)
    · rfl
    · rfl
    · exact entered (s.takeUp.onHost _)
    · rfl
    · rfl
  have kept : s.takeUp.time = s.time := by rw [takeUp_eq]
  rw [kept] at chosen
  exact chosen

theorem openRefusal_eq {payload : Bytes} {s : State} :
    openRefusal payload s =
      if be2At payload 4 = 0 ∨ posOfCode (byteAt payload 10) = none then some .badValue
      else if s.script.session ≠ .closed then some .sessionOpen
      else if s.store.state = .ready then none
      else if s.store.state = .unformatted then some .unformatted
      else if s.store.state = .fault then some .storeFault
      else some .notMounted := by
  have session : s.inSession = true ↔ s.script.session ≠ .closed := by
    cases is : s.script.session <;> simp [State.inSession, is]
  simp only [openRefusal, session]
  cases s.store.state <;> simp

theorem openRule_of_refused {payload : Bytes} {s : State} {r : Reason} (refused : openRefusal payload s = some r) :
    openRule payload s = (s, .refused r) := by
  simp only [openRule, refused]

/-- Settles O46: the refusals by `openRefusal_eq`, the session by the steps of `takeOpen`. -/
theorem openSessionStartsAfresh : Obligations.OpenSessionStartsAfresh := by
  intro tag pos job session epoch s accepts calm job_lt session_lt epoch_lt payload
  have payload_is : payload = openPayload job session epoch pos := rfl
  have runs := openSession_finishes tag pos job session epoch s
  have is_session := openPayload_session (job := job) (epoch := epoch) (pos := pos) session_lt
  have is_pos := openPayload_pos (job := job) (session := session) (epoch := epoch) (pos := pos)
  have refuses : ∀ r, openRefusal (openPayload job session epoch pos) s.counted = some r →
      exec (.openSession tag payload) s = .next (s.replyAndTakeUp tag (.refused r)) := fun r refused =>
    runs.trans (congrArg Host.Outcome.next (finishStep_request_refused accepts calm (openRule_of_refused refused)))
  have refusal := openRefusal_eq (payload := openPayload job session epoch pos) (s := s.counted)
  rw [is_session, is_pos] at refusal
  refine ⟨fun bad => ?bad, fun p some_session named => ?named⟩
  case bad =>
    refine refuses _ (refusal.trans (if_pos ?_))
    exact bad.imp id posOfCode_eq_none
  case named =>
    rw [if_neg (by simp [some_session, named])] at refusal
    refine ⟨fun in_session => refuses _ (refusal.trans (if_pos in_session)), fun closed => ?_⟩
    rw [if_neg (not_not.mpr (by exact closed))] at refusal
    have store : s.counted.store = s.store := rfl
    rw [store] at refusal
    refine ⟨fun unmounted => refuses _ ?_, fun blank => refuses _ ?_, fun fault => refuses _ ?_, fun ready => ?ready⟩
    · rw [refusal]
      rcases unmounted with is | is | is <;> simp [is]
    · simp [refusal, blank]
    · simp [refusal, fault]
    case ready =>
      rw [if_pos ready] at refusal
      have rule : openRule (openPayload job session epoch pos) s.counted =
          takeOpen (openPayload job session epoch pos) s.counted := by simp only [openRule, refusal]
      obtain ⟨script, seq, trans, aged, settings, flash⟩ := takeOpen_kept (openPayload job session epoch pos) s.counted
      obtain ⟨code, anchored, -⟩ := takeOpen_time (openPayload job session epoch pos) s.counted
      have floor := takeOpen_floor (openPayload job session epoch pos) s.counted (p := p) (by rw [is_pos]; exact named)
      obtain ⟨vacant, unlocked⟩ := takeOpen_causes (openPayload job session epoch pos) s.counted
      have gains := takeOpen_gains (openPayload job session epoch pos) s.counted
      have calm_u := gains.calm (freshBlocks_calm _ _ ⟨calm.1, calm.2⟩)
      obtain ⟨z, answer⟩ : ∃ z, (takeOpen (openPayload job session epoch pos) s.counted).2 = .done (be 4 z ++
          [byte (floorCode (takeOpen (openPayload job session epoch pos) s.counted).1.floor.state),
            byte (optPosCode (takeOpen (openPayload job session epoch pos) s.counted).1.floor.live)]) := ⟨_, rfl⟩
      have unlogged : (takeOpen (openPayload job session epoch pos) s.counted).1.log.unloggedCount = 0 :=
        gains.unloggedCount
      generalize takeOpen (openPayload job session epoch pos) s.counted = x at *
      obtain ⟨u, r⟩ := x
      dsimp only at *
      subst answer
      rw [openPayload_epoch epoch_lt] at code
      have ended := runs.trans (congrArg Host.Outcome.next (finishStep_request_taken accepts rule calm_u))
      have frame := settled_kept (addReply tag (.done (be 4 z ++ [byte (floorCode u.floor.state),
        byte (optPosCode u.floor.live)])) .nothing u)
      have position : ∀ q, u.floor.pos.get q = { PosRec.reset with
          state := if (s.posRec p).state = .shadow ∧ q = p then .live else (s.posRec q).state } := by
        intro q
        rw [floor]
        exact openFloor_get s.floor p q
      refine ⟨_, ended, ?script, ?seq, fun unlocked => ?anchors, fun locked => ?anchored, ?trans, ?unlogged, ?aged, ?other,
        ?starting, ?floor, ?vacant, ?unlocked, ⟨z, ?answered⟩, ?settings, ?flash⟩
      case script =>
        rw [settled_script]
        refine script.trans ?_
        rw [Transcript.opened, openPayload_job job_lt, is_session, openPayload_epoch epoch_lt, is_pos]
        simp [Transcript.reset, named]
      case seq => rw [frame]; exact seq
      case anchors =>
        rw [settled_time]
        refine ⟨code.trans (if_pos unlocked), anchored.trans (if_pos unlocked)⟩
      case anchored =>
        rw [settled_time]
        exact ⟨code.trans (if_neg locked), anchored.trans (if_neg locked)⟩
      case trans => rw [settled_trans]; exact trans
      case unlogged =>
        rw [settled_log, (takeUp_log _).1]
        exact unlogged
      case aged => rw [frame]; exact aged
      case other => rw [settled_floor]; exact (position _).trans (by simp [otherPos_ne])
      case starting => rw [settled_floor]; exact (position _).trans (by simp)
      case floor =>
        rw [settled_floor]
        refine (congrArg Floor.state floor).trans ?_
        by_cases shadow : (s.posRec p).state = .shadow
        · exact (congrArg Floor.state (if_pos shadow)).trans (if_pos shadow).symm
        · exact (congrArg Floor.state (if_neg shadow)).trans (if_neg shadow).symm
      case vacant =>
        rw [settled_floor]
        exact (settled_hasCause _ _).trans vacant
      case unlocked => exact (settled_hasCause _ _).trans unlocked
      case answered => rw [settled_floor]; exact mem_settled_addReply _ _ _ _
      case settings => rw [frame]; exact settings
      case flash => rw [frame]; exact flash

end Sys2Proof.Machine
end

section
/-! The resolution of the hold list: every PROVISIONAL unit is committed, and the COMMITTED units beyond undo-depth are
FIRM (R118, R128, R131). -/

namespace Sys2Proof.Machine

/-! ### The newest COMMITTED units -/

/-- All but the newest `d` COMMITTED units of a list become FIRM. -/
def keepNewest (d : Nat) : List TUnit → List TUnit
  | [] => []
  | u :: us => (if u.isCommitted ∧ d ≤ us.countP TUnit.isCommitted then u.asFirm else u) :: keepNewest d us

/-- The PROVISIONAL units that `q` names are committed at `now`. -/
def commitNamed (now : LocalTime) (q : TUnit → Bool) (us : List TUnit) : List TUnit :=
  us.map fun u => if u.isProvisional && q u then { u with state := .committed, commitTime := some now } else u

theorem firmFirst_eq_keepNewest (d : Nat) (us : List TUnit) :
    firmFirst (us.countP TUnit.isCommitted - d) us = keepNewest d us := by
  induction us with
  | nil => rfl
  | cons u us ih =>
    cases committed : u.isCommitted with
    | false =>
      rw [firmFirst_cons_other committed, List.countP_cons_of_neg (by simp [committed]), ih, keepNewest,
        if_neg (by simp [committed])]
    | true =>
      rw [List.countP_cons_of_pos committed, keepNewest]
      by_cases many : d ≤ us.countP TUnit.isCommitted
      · rw [if_pos ⟨committed, many⟩, Nat.succ_sub many, firmFirst_cons_committed committed, ih]
        rfl
      · rw [if_neg (fun both => many both.2), ← ih]
        have none_due : us.countP TUnit.isCommitted + 1 - d = 0 := by omega
        have none_left : us.countP TUnit.isCommitted - d = 0 := by omega
        rw [none_due, none_left, firmFirst_zero, firmFirst_zero]

theorem countP_keepNewest (d : Nat) (us : List TUnit) :
    (keepNewest d us).countP TUnit.isCommitted = min d (us.countP TUnit.isCommitted) := by
  induction us with
  | nil => simp [keepNewest]
  | cons u us ih =>
    rw [keepNewest, List.countP_cons, List.countP_cons, ih]
    cases committed : u.isCommitted with
    | false => simp [committed]
    | true =>
      by_cases many : d ≤ us.countP TUnit.isCommitted
      · have firm : u.asFirm.isCommitted = false := rfl
        simp only [many, and_self, if_true, firm, Bool.false_eq_true, if_false]
        omega
      · simp only [many, and_false, if_false, committed, if_true]
        omega

theorem TUnit.provisional_not_committed {u : TUnit} (provisional : u.isProvisional = true) : u.isCommitted = false := by
  simp only [TUnit.isProvisional, decide_eq_true_eq] at provisional
  simp [TUnit.isCommitted, provisional]

theorem TUnit.committed_not_provisional {u : TUnit} (committed : u.isCommitted = true) : u.isProvisional = false := by
  by_contra provisional
  rw [TUnit.provisional_not_committed (by simpa using provisional)] at committed
  exact absurd committed (by decide)

section
variable (now : LocalTime) (q : TUnit → Bool)

/-- How many units are COMMITTED after some PROVISIONAL ones have been. -/
theorem countP_commitNamed (us : List TUnit) :
    (commitNamed now q us).countP TUnit.isCommitted =
      us.countP TUnit.isCommitted + us.countP (fun u => u.isProvisional && q u) := by
  induction us with
  | nil => rfl
  | cons u us ih =>
    rw [commitNamed] at ih ⊢
    rw [List.map_cons, List.countP_cons, ih, List.countP_cons, List.countP_cons]
    cases named : u.isProvisional && q u with
    | false => simp; omega
    | true =>
      have other := TUnit.provisional_not_committed (Bool.and_eq_true_iff.mp named).1
      simp [TUnit.isCommitted] at other ⊢
      simp [other]
      omega

theorem countP_named_keepNewest (d : Nat) (us : List TUnit) :
    (keepNewest d us).countP (fun u => u.isProvisional && q u) = us.countP (fun u => u.isProvisional && q u) := by
  induction us with
  | nil => rfl
  | cons u us ih =>
    rw [keepNewest, List.countP_cons, List.countP_cons, ih]
    split
    next firmed =>
      have firm : u.asFirm.isProvisional = false := rfl
      rw [TUnit.committed_not_provisional firmed.1, firm]
      rfl
    · rfl

/-- To keep the newest COMMITTED units before others are committed makes no difference once they are kept again. -/
theorem keepNewest_commitNamed_keepNewest (d : Nat) (us : List TUnit) :
    keepNewest d (commitNamed now q (keepNewest d us)) = keepNewest d (commitNamed now q us) := by
  induction us with
  | nil => rfl
  | cons u us ih =>
    have tail : d ≤ (commitNamed now q (keepNewest d us)).countP TUnit.isCommitted ↔
        d ≤ (commitNamed now q us).countP TUnit.isCommitted := by
      rw [countP_commitNamed, countP_commitNamed, countP_keepNewest, countP_named_keepNewest]
      omega
    have more : us.countP TUnit.isCommitted ≤ (commitNamed now q us).countP TUnit.isCommitted := by
      rw [countP_commitNamed]
      omega
    have cons : ∀ v vs, commitNamed now q (v :: vs) =
        (if v.isProvisional && q v then { v with state := .committed, commitTime := some now } else v) ::
          commitNamed now q vs := fun _ _ => rfl
    rw [keepNewest, cons, keepNewest, cons, keepNewest, ih]
    simp only [tail]
    congr 1
    by_cases firmed : u.isCommitted ∧ d ≤ us.countP TUnit.isCommitted
    · have still := TUnit.committed_not_provisional firmed.1
      have firm : u.asFirm.isProvisional = false := rfl
      have not_committed : u.asFirm.isCommitted = false := rfl
      rw [if_pos firmed]
      simp [still, firm, not_committed, firmed.1, firmed.2.trans more]
    · rw [if_neg firmed]

end

/-! ### PROMOTE -/

/-- The transcript's numbers rise. -/
def State.rises (s : State) : Prop := s.script.units.Pairwise (fun x y => x.number < y.number)

/-- Its PROVISIONAL unit is committed. -/
theorem changeUnit_eq_commitNamed {now : LocalTime} {n : Nat} {us : List TUnit}
    (provisional : ∀ u ∈ us, u.number = n → u.isProvisional = true) :
    changeUnit n (fun u => { u with state := .committed, commitTime := some now }) us =
      commitNamed now (fun u => decide (u.number = n)) us := by
  refine List.map_congr_left fun u within => ?_
  by_cases same : u.number = n
  · simp [same, provisional u within same]
  · simp [same]

theorem commitNamed_numbers (now : LocalTime) (q : TUnit → Bool) (us : List TUnit) :
    (commitNamed now q us).map TUnit.number = us.map TUnit.number := by
  rw [commitNamed, List.map_map]
  refine List.map_congr_left fun u _ => ?_
  rw [Function.comp]
  split <;> rfl

theorem rising_of_numbers {us vs : List TUnit} (same : us.map TUnit.number = vs.map TUnit.number)
    (rises : vs.Pairwise (fun x y => x.number < y.number)) : us.Pairwise (fun x y => x.number < y.number) := by
  have numbers : (vs.map TUnit.number).Pairwise (· < ·) := List.pairwise_map.mpr rises
  rw [← same] at numbers
  exact List.pairwise_map.mp numbers

theorem promoteUnit_units {n : Nat} {s : State} (rises : s.rises)
    (provisional : ∀ u ∈ s.script.units, u.number = n → u.isProvisional = true) :
    (promoteUnit n s).script.units =
      keepNewest s.settings.undoDepth (commitNamed s.time.now (fun u => decide (u.number = n)) s.script.units) := by
  unfold promoteUnit firmByCount
  generalize promoted : report (.committed n) (s.onScript _) = v
  have units : v.script.units = commitNamed s.time.now (fun u => decide (u.number = n)) s.script.units := by
    rw [← promoted]
    simp [changeUnit_eq_commitNamed provisional]
  have depth : v.settings.undoDepth = s.settings.undoDepth := by
    rw [← promoted]
    simp
  have rises_v : v.script.units.Pairwise (fun x y => x.number < y.number) := by
    rw [units]
    exact rising_of_numbers (commitNamed_numbers _ _ _) rises
  rw [firmOldest_script rises_v, Transcript.committedCount, units, depth, firmFirst_eq_keepNewest]

/-! ### The whole hold list -/

theorem mem_keepNewest {d : Nat} {us : List TUnit} {x : TUnit} (within : x ∈ keepNewest d us) :
    x ∈ us ∨ ∃ u ∈ us, u.isCommitted = true ∧ x = u.asFirm := by
  induction us with
  | nil => exact absurd within (by simp [keepNewest])
  | cons u us ih =>
    rw [keepNewest, List.mem_cons] at within
    rcases within with rfl | later
    · split
      next firmed => exact .inr ⟨u, .head _, firmed.1, rfl⟩
      · exact .inl (.head _)
    · exact (ih later).imp (.tail _) fun ⟨v, mem, firmed⟩ => ⟨v, .tail _ mem, firmed⟩

theorem mem_commitNamed {now : LocalTime} {q : TUnit → Bool} {us : List TUnit} {x : TUnit}
    (within : x ∈ commitNamed now q us) : x ∈ us ∨ ∃ u ∈ us, q u = true ∧ x.number = u.number := by
  obtain ⟨u, mem, rfl⟩ := List.mem_map.mp within
  split
  next named => exact .inr ⟨u, mem, (Bool.and_eq_true_iff.mp named).2, rfl⟩
  · exact .inl mem

theorem keepNewest_numbers (d : Nat) (us : List TUnit) :
    (keepNewest d us).map TUnit.number = us.map TUnit.number := by
  rw [← firmFirst_eq_keepNewest, firmFirst_numbers]

theorem commitNamed_commitNamed (now : LocalTime) (l m : List Nat) (us : List TUnit) :
    commitNamed now (fun u => decide (u.number ∈ m)) (commitNamed now (fun u => decide (u.number ∈ l)) us) =
      commitNamed now (fun u => decide (u.number ∈ l ++ m)) us := by
  rw [commitNamed, commitNamed, commitNamed, List.map_map]
  refine List.map_congr_left fun u _ => ?_
  rw [Function.comp]
  by_cases provisional : u.isProvisional = true
  · by_cases first : u.number ∈ l
    · have done : ({ u with state := .committed, commitTime := some now } : TUnit).isProvisional = false := rfl
      simp [provisional, first, done]
    · simp [provisional, first]
  · simp [provisional]

theorem commitUnit_kept (u : TUnit) (s : State) :
    (commitUnit u s).script = (promoteUnit u.number s).script ∧ (commitUnit u s).time = s.time ∧
      (commitUnit u s).settings = s.settings := by
  simp [commitUnit]

/-- Units committed one after the other are committed together. -/
theorem foldl_commitUnit_units {todo : List TUnit} {s : State} (rises : s.rises)
    (apart : (todo.map TUnit.number).Nodup)
    (provisional : ∀ u ∈ s.script.units, u.number ∈ todo.map TUnit.number → u.isProvisional = true) :
    (todo.foldl (fun s u => commitUnit u s) s).script.units =
      if todo = [] then s.script.units
      else keepNewest s.settings.undoDepth
        (commitNamed s.time.now (fun u => decide (u.number ∈ todo.map TUnit.number)) s.script.units) := by
  induction todo generalizing s with
  | nil => rfl
  | cons w todo ih =>
    obtain ⟨script, time, settings⟩ := commitUnit_kept w s
    rw [List.map_cons, List.nodup_cons] at apart
    have units : (commitUnit w s).script.units = keepNewest s.settings.undoDepth
        (commitNamed s.time.now (fun u => decide (u.number ∈ [w.number])) s.script.units) := by
      rw [script, promoteUnit_units rises fun u within same => provisional u within (by simp [same])]
      simp only [List.mem_singleton]
    have rises_after : (commitUnit w s).rises := by
      rw [State.rises, units]
      exact rising_of_numbers (by rw [keepNewest_numbers, commitNamed_numbers]) rises
    have still : ∀ u ∈ (commitUnit w s).script.units, u.number ∈ todo.map TUnit.number → u.isProvisional = true := by
      have untouched : ∀ x ∈ commitNamed s.time.now (fun u => decide (u.number ∈ [w.number])) s.script.units,
          x.number ∈ todo.map TUnit.number → x.isProvisional = true := by
        intro x within named
        rcases mem_commitNamed within with old | ⟨u, -, same, number⟩
        · exact provisional x old (.tail _ named)
        · rw [number, List.mem_singleton.mp (of_decide_eq_true same)] at named
          exact absurd named apart.1
      intro x within named
      rw [units] at within
      rcases mem_keepNewest within with kept | ⟨u, mem, committed, rfl⟩
      · exact untouched x kept named
      · have both := TUnit.provisional_not_committed (untouched u mem named)
        rw [committed] at both
        exact absurd both (by decide)
    rw [List.foldl_cons, ih rises_after apart.2 still, units, time, settings, if_neg (List.cons_ne_nil _ _)]
    cases todo with
    | nil => simp
    | cons v todo =>
      rw [if_neg (List.cons_ne_nil _ _), keepNewest_commitNamed_keepNewest, commitNamed_commitNamed]
      simp

theorem mem_provisionals {s : State} {u : TUnit} :
    u ∈ s.script.provisionals ↔ u ∈ s.script.units ∧ u.isProvisional = true := List.mem_filter

/-- The resolution commits every PROVISIONAL unit, and firmness by count is met once all are. -/
theorem resolveHold_units {s : State} (rises : s.rises) :
    (resolveHold s).script.units =
      if s.script.provisionals = [] then s.script.units
      else keepNewest s.settings.undoDepth (commitNamed s.time.now (fun _ => true) s.script.units) := by
  have distinct : (s.script.units.map TUnit.number).Nodup :=
    (List.pairwise_map.mpr rises).imp fun lt => Nat.ne_of_lt lt
  have apart : (s.script.provisionals.map TUnit.number).Nodup :=
    List.Nodup.sublist (List.Sublist.map _ List.filter_sublist) distinct
  have named : ∀ u ∈ s.script.units, u.number ∈ s.script.provisionals.map TUnit.number → u.isProvisional = true := by
    intro u within listed
    obtain ⟨v, mem, same⟩ := List.mem_map.mp listed
    obtain ⟨held, provisional⟩ := mem_provisionals.mp mem
    rw [← List.inj_on_of_nodup_map distinct held within same]
    exact provisional
  have all : commitNamed s.time.now (fun u => decide (u.number ∈ s.script.provisionals.map TUnit.number))
      s.script.units = commitNamed s.time.now (fun _ => true) s.script.units := by
    refine List.map_congr_left fun u within => ?_
    by_cases provisional : u.isProvisional = true
    · simp [provisional, List.mem_map_of_mem (f := TUnit.number) (mem_provisionals.mpr ⟨within, provisional⟩)]
    · simp [provisional]
  rw [resolveHold, onTrans_script, foldl_commitUnit_units rises apart named, all]

/-- Which units firmness by count makes FIRM: those with `d` COMMITTED units above them. -/
theorem keepNewest_eq_map {d : Nat} {us : List TUnit} (rises : us.Pairwise (fun x y => x.number < y.number)) :
    keepNewest d us = us.map (fun x =>
      if x.isCommitted ∧ d < us.countP (fun y => decide (x.number ≤ y.number) && y.isCommitted) then x.asFirm else x) := by
  induction us with
  | nil => rfl
  | cons u us ih =>
    obtain ⟨below, rises⟩ := List.pairwise_cons.mp rises
    rw [keepNewest, List.map_cons, ih rises]
    congr 1
    · have above : us.countP (fun y => decide (u.number ≤ y.number) && y.isCommitted) = us.countP TUnit.isCommitted :=
        List.countP_congr fun y within => by simp [(below y within).le]
      by_cases committed : u.isCommitted = true
      · rw [List.countP_cons_of_pos (by simp [committed]), above]
        simp only [Nat.lt_succ_iff]
      · simp [committed]
    · refine List.map_congr_left fun x within => ?_
      rw [List.countP_cons_of_neg (by simp [below x within])]

/-- The unit as the resolution of the hold list among `units`, at `now` and with undo-depth `d`, leaves it. -/
def TUnit.resolvedIn (units : List TUnit) (d : Nat) (now : LocalTime) (x : TUnit) : TUnit :=
  if x.state = .firm then x
  else
    { x with
      state :=
        if (∃ y ∈ units, y.state = .provisional) ∧
          d < units.countP (fun y => decide (x.number ≤ y.number ∧ y.state ≠ .firm)) then .firm else .committed
      commitTime := if x.state = .provisional then some now else x.commitTime }

/-- The units as the resolution of the hold list leaves them. -/
theorem resolveHold_units_map {s : State} (rises : s.rises) :
    (resolveHold s).script.units =
      s.script.units.map (TUnit.resolvedIn s.script.units s.settings.undoDepth s.time.now) := by
  rw [resolveHold_units rises]
  by_cases some_held : s.script.provisionals = []
  · rw [if_pos some_held]
    have none_provisional : ∀ y ∈ s.script.units, y.state ≠ .provisional := by
      intro y within provisional
      have : y ∈ s.script.provisionals := mem_provisionals.mpr ⟨within, by simp [TUnit.isProvisional, provisional]⟩
      rw [some_held] at this
      exact absurd this List.not_mem_nil
    refine (List.map_id _).symm.trans (List.map_congr_left fun x within => ?_)
    have still : ¬ ∃ y ∈ s.script.units, y.state = .provisional := fun ⟨y, mem, held⟩ => none_provisional y mem held
    rw [id, TUnit.resolvedIn]
    cases state : x.state with
    | provisional => exact absurd state (none_provisional x within)
    | committed => simp only [still, false_and, if_false, reduceCtorEq]; rw [← state]
    | firm => rfl
  · rw [if_neg some_held]
    obtain ⟨y, within, provisional⟩ : ∃ y ∈ s.script.units, y.state = .provisional := by
      obtain ⟨y, mem⟩ := List.exists_mem_of_ne_nil _ some_held
      obtain ⟨within, provisional⟩ := mem_provisionals.mp mem
      exact ⟨y, within, of_decide_eq_true provisional⟩
    have some_provisional : ∃ y ∈ s.script.units, y.state = .provisional := ⟨y, within, provisional⟩
    rw [keepNewest_eq_map (rising_of_numbers (commitNamed_numbers _ _ _) rises), commitNamed, List.map_map]
    refine List.map_congr_left fun x _ => ?_
    have count : ∀ n, (s.script.units.map fun u =>
        if u.isProvisional && true then { u with state := .committed, commitTime := some s.time.now } else u).countP
          (fun y => decide (n ≤ y.number) && y.isCommitted) =
        s.script.units.countP (fun y => decide (n ≤ y.number ∧ y.state ≠ .firm)) := by
      intro n
      rw [List.countP_map]
      refine List.countP_congr fun y _ => ?_
      rw [Function.comp]
      cases state : y.state <;> simp [TUnit.isProvisional, TUnit.isCommitted, state]
    rw [Function.comp, count, TUnit.resolvedIn]
    cases state : x.state <;> simp [TUnit.isProvisional, TUnit.isCommitted, TUnit.asFirm, state, some_provisional]
    case committed =>
      split
      · rfl
      · rw [← state]
    case provisional =>
      split <;> rfl

end Sys2Proof.Machine
end

section
/-! HOLD_TIMER_EXPIRY: the hold list is resolved and the translator comes to rest (R117, R118, R131). -/

namespace Sys2Proof.Machine

/-! ### What a resolution leaves of the transcript and the translator -/

theorem commitUnit_script (u : TUnit) (s : State) : (commitUnit u s).script = { s.script with
    units := (commitUnit u s).script.units, unitsFirmed := (commitUnit u s).script.unitsFirmed } := by
  rw [(commitUnit_kept u s).1, promoteUnit, firmByCount]
  refine (firmOldest_asFirm _ _).1.trans ?_
  simp

theorem resolveHold_script (s : State) : (resolveHold s).script = { s.script with
    units := (resolveHold s).script.units, unitsFirmed := (resolveHold s).script.unitsFirmed } := by
  have each : ∀ (todo : List TUnit) (s : State), (todo.foldl (fun s u => commitUnit u s) s).script = { s.script with
      units := (todo.foldl (fun s u => commitUnit u s) s).script.units
      unitsFirmed := (todo.foldl (fun s u => commitUnit u s) s).script.unitsFirmed } := by
    intro todo
    induction todo with
    | nil => exact fun _ => rfl
    | cons u todo ih =>
      intro s
      rw [List.foldl_cons, ih, commitUnit_script]
  exact each _ s

theorem committed_trans (n : Nat) (kind : UnitKind) (outline : List Nat) (t : Translator) :
    Translator.committed n kind outline t = { t with
      unitsCommitted := (Translator.committed n kind outline t).unitsCommitted
      numbers := (Translator.committed n kind outline t).numbers
      untranslatesMade := (Translator.committed n kind outline t).untranslatesMade
      untranslates := (Translator.committed n kind outline t).untranslates
      untranslatesDropped := (Translator.committed n kind outline t).untranslatesDropped } := by
  unfold Translator.committed Translator.joinUntranslate
  cases kind
  case untranslate =>
    dsimp only
    split <;> rfl
  all_goals rfl

/-- The translator after the resolution. -/
theorem resolveHold_trans (s : State) : (resolveHold s).trans = { s.trans with
    base := s.trans.after
    hold := []
    timer := none
    unitsCommitted := (resolveHold s).trans.unitsCommitted
    numbers := (resolveHold s).trans.numbers
    untranslatesMade := (resolveHold s).trans.untranslatesMade
    untranslates := (resolveHold s).trans.untranslates
    untranslatesDropped := (resolveHold s).trans.untranslatesDropped } := by
  have each : ∀ (todo : List TUnit) (s : State), (todo.foldl (fun s u => commitUnit u s) s).trans = { s.trans with
      unitsCommitted := (todo.foldl (fun s u => commitUnit u s) s).trans.unitsCommitted
      numbers := (todo.foldl (fun s u => commitUnit u s) s).trans.numbers
      untranslatesMade := (todo.foldl (fun s u => commitUnit u s) s).trans.untranslatesMade
      untranslates := (todo.foldl (fun s u => commitUnit u s) s).trans.untranslates
      untranslatesDropped := (todo.foldl (fun s u => commitUnit u s) s).trans.untranslatesDropped } := by
    intro todo
    induction todo with
    | nil => exact fun _ => rfl
    | cons u todo ih =>
      intro s
      have step : (commitUnit u s).trans = Translator.committed u.number u.kind u.outline s.trans := by simp [commitUnit]
      rw [List.foldl_cons, ih, step, committed_trans]
  rw [resolveHold]
  dsimp only [onTrans_trans]
  rw [each]

/-! ### No unit is left PROVISIONAL -/

/-- No unit of the list is PROVISIONAL. -/
def noneProvisional (us : List TUnit) : Prop := ∀ x ∈ us, x.state ≠ .provisional

theorem mem_changeUnit {n : Nat} {f : TUnit → TUnit} {us : List TUnit} {x : TUnit} (within : x ∈ changeUnit n f us) :
    (x ∈ us ∧ x.number ≠ n) ∨ ∃ u ∈ us, x = f u := by
  obtain ⟨u, mem, rfl⟩ := List.mem_map.mp within
  split
  · exact .inr ⟨u, mem, rfl⟩
  next other => exact .inl ⟨mem, other⟩

theorem mem_firmOldest {k : Nat} {s : State} {x : TUnit} (within : x ∈ (firmOldest k s).script.units) :
    x ∈ s.script.units ∨ x.state = .firm := by
  induction k generalizing s with
  | zero => exact .inl within
  | succ k ih =>
    unfold firmOldest at within
    split at within
    · exact .inl within
    · rcases ih within with before | firm
      · rw [firmUnit_script] at before
        rcases mem_changeUnit before with old | ⟨u, -, rfl⟩
        · exact .inl old.1
        · exact .inr rfl
      · exact .inr firm

/-- A unit that is PROVISIONAL after another has been committed was so before. -/
theorem mem_commitUnit {u x : TUnit} {s : State} (within : x ∈ (commitUnit u s).script.units)
    (provisional : x.state = .provisional) : x ∈ s.script.units ∧ x.number ≠ u.number := by
  rw [(commitUnit_kept u s).1, promoteUnit, firmByCount] at within
  rcases mem_firmOldest within with before | firm
  · simp only [report_frame, onScript_script] at before
    rcases mem_changeUnit before with old | ⟨v, -, rfl⟩
    · exact old
    · exact absurd provisional (by simp)
  · rw [firm] at provisional
    exact absurd provisional (by simp)

theorem resolveHold_noneProvisional (s : State) : noneProvisional (resolveHold s).script.units := by
  have each : ∀ (todo : List TUnit) (s : State) (x : TUnit),
      x ∈ (todo.foldl (fun s u => commitUnit u s) s).script.units → x.state = .provisional →
        x ∈ s.script.units ∧ x.number ∉ todo.map TUnit.number := by
    intro todo
    induction todo with
    | nil => exact fun _ x within _ => ⟨within, List.not_mem_nil⟩
    | cons u todo ih =>
      intro s x within provisional
      obtain ⟨before, later⟩ := ih _ x within provisional
      obtain ⟨old, other⟩ := mem_commitUnit before provisional
      exact ⟨old, by simp [other, later]⟩
  intro x within provisional
  obtain ⟨held, unnamed⟩ := each _ s x within provisional
  exact unnamed (List.mem_map_of_mem (mem_provisionals.mpr ⟨held, by simp [TUnit.isProvisional, provisional]⟩))

/-! ### The queued notes follow the units -/

theorem mem_createUnit {u x : TUnit} {s : State} (within : x ∈ (createUnit u s).script.units) :
    x ∈ s.script.units ∨ x.state = u.state ∨ x.state = .firm := by
  have made : x ∈ (appendUnit u s.withRoom).script.units ∨ x.state = .firm := by
    rw [createUnit_eq] at within
    split at within
    · exact mem_firmOldest within
    · exact .inl within
  rcases made with listed | firm
  · rw [appendUnit_script] at listed
    rcases List.mem_append.mp listed with old | new
    · left
      unfold State.withRoom at old
      split at old
      · rw [freeHead_units] at old
        exact List.mem_of_mem_drop old
      · exact old
    · rw [List.mem_singleton.mp new]
      exact .inr (.inl rfl)
  · exact .inr (.inr firm)

theorem insertQueued_script (n : Note) (s : State) : (insertQueued n s).script = (insertNote n s).script := by
  simp [insertQueued]

theorem insertQueued_noneProvisional {n : Note} {s : State} (before : noneProvisional s.script.units) :
    noneProvisional (insertQueued n s).script.units := by
  intro x within
  rw [insertQueued_script, insertNote_script] at within
  rcases mem_createUnit within with old | new | firm
  · exact before x (by simpa using old)
  · rw [new]
    exact (by decide : UnitState.committed ≠ .provisional)
  · rw [firm]
    decide

/-- With room for it a note is the newest unit, up to firmness by count. -/
theorem insertQueued_asFirm {n : Note} {s : State} (room : s.script.units.length < Config.unitsMax) :
    ∃ u, (insertQueued n s).script.units.map TUnit.asFirm = s.script.units.map TUnit.asFirm ++ [u] := by
  rw [insertQueued_script, insertNote_script, (createUnit_asFirm _ _).2, appendUnit_script]
  have stays : s.stamped.withRoom.script.units = s.script.units := by
    rw [State.withRoom, if_neg (by simpa using room)]
    simp
  rw [stays, List.map_append]
  exact ⟨_, rfl⟩

theorem foldl_insertQueued_asFirm (notes : List Note) {s : State}
    (room : s.script.units.length + notes.length ≤ Config.unitsMax) :
    ∃ us, us.length = notes.length ∧
      (notes.foldl (fun s n => insertQueued n s) s).script.units.map TUnit.asFirm =
        s.script.units.map TUnit.asFirm ++ us := by
  induction notes generalizing s with
  | nil => exact ⟨[], rfl, by simp⟩
  | cons n notes ih =>
    rw [List.length_cons] at room
    obtain ⟨u, first⟩ := insertQueued_asFirm (n := n) (s := s) (by omega)
    have length : (insertQueued n s).script.units.length = s.script.units.length + 1 := by
      simpa using congrArg List.length first
    obtain ⟨us, count, rest⟩ := ih (s := insertQueued n s) (by omega)
    refine ⟨u :: us, by simp [count], ?_⟩
    rw [List.foldl_cons, rest, first, List.append_assoc]
    rfl

theorem insertNotes_asFirm {s : State} (rests : s.trans.atRest = true)
    (room : s.script.units.length + s.trans.notes.length ≤ Config.unitsMax) :
    ∃ us, us.length = s.trans.notes.length ∧
      (insertNotes s).script.units.map TUnit.asFirm = s.script.units.map TUnit.asFirm ++ us := by
  rw [insertNotes, if_pos rests]
  exact foldl_insertQueued_asFirm s.trans.notes room

theorem insertNotes_noneProvisional {s : State} (before : noneProvisional s.script.units) :
    noneProvisional (insertNotes s).script.units := by
  have each : ∀ (notes : List Note) (s : State), noneProvisional s.script.units →
      noneProvisional (notes.foldl (fun s n => insertQueued n s) s).script.units := by
    intro notes
    induction notes with
    | nil => exact fun _ before => before
    | cons n notes ih => exact fun s before => ih _ (insertQueued_noneProvisional before)
  unfold insertNotes
  split
  · exact each _ _ before
  · exact before

theorem insertNotes_of_none {s : State} (none_queued : s.trans.notes = []) : insertNotes s = s := by
  have same : s.onTrans (fun t => { t with notes := [] }) = s := by
    rw [State.onTrans, ← none_queued]
  unfold insertNotes
  rw [none_queued]
  split
  · exact same
  · rfl

/-- What the notes change of the translator. -/
theorem insertNotes_trans (s : State) : (insertNotes s).trans = { s.trans with
    notes := (insertNotes s).trans.notes
    notesInserted := (insertNotes s).trans.notesInserted
    untranslates := (insertNotes s).trans.untranslates } := by
  have each : ∀ (notes : List Note) (s : State), (notes.foldl (fun s n => insertQueued n s) s).trans = { s.trans with
      notes := (notes.foldl (fun s n => insertQueued n s) s).trans.notes
      notesInserted := (notes.foldl (fun s n => insertQueued n s) s).trans.notesInserted
      untranslates := (notes.foldl (fun s n => insertQueued n s) s).trans.untranslates } := by
    intro notes
    induction notes with
    | nil => exact fun _ => rfl
    | cons n notes ih =>
      intro s
      rw [List.foldl_cons, ih, insertQueued_trans, insertNote_trans]
  unfold insertNotes
  split
  · rw [onTrans_trans, each]
  · rfl

/-! ### The report of a close -/

/-- The session asks for the report that the hold list is resolved (R137). -/
def State.asksReport (s : State) : Prop :=
  s.trans.atRest = true ∧ s.script.session = .closing ∧ s.script.resolved = false

theorem reportResolved_of_asked {s : State} (asked : s.asksReport) : reportResolved s = holdResolved s := by
  obtain ⟨rests, closing, open_⟩ := asked
  simp [reportResolved, rests, closing, open_]

theorem reportResolved_of_not {s : State} (idle : ¬ s.asksReport) : reportResolved s = s := by
  unfold reportResolved
  rw [if_neg]
  intro asked
  simp only [Bool.and_eq_true, decide_eq_true_eq, Bool.not_eq_true'] at asked
  exact idle ⟨asked.1.1, asked.1.2, asked.2⟩

/-- The report makes every unit FIRM. -/
theorem holdResolved_script (s : State) : (holdResolved s).script =
    (firmAll (s.onScript fun t => { t with resolved := true })).script := by
  simp [holdResolved]

theorem reportResolved_asFirm (s : State) :
    (reportResolved s).script.units.map TUnit.asFirm = s.script.units.map TUnit.asFirm := by
  by_cases asked : s.asksReport
  · rw [reportResolved_of_asked asked, holdResolved_script, firmAll, (firmOldest_asFirm _ _).2]
    rfl
  · rw [reportResolved_of_not asked]

theorem reportResolved_noneProvisional {s : State} (before : noneProvisional s.script.units) :
    noneProvisional (reportResolved s).script.units := by
  by_cases asked : s.asksReport
  · rw [reportResolved_of_asked asked, holdResolved_script, firmAll]
    intro x within
    rcases mem_firmOldest within with old | firm
    · exact before x old
    · rw [firm]
      decide
  · rw [reportResolved_of_not asked]
    exact before

theorem firmFirst_all {us : List TUnit} (resolved : noneProvisional us) :
    firmFirst (us.countP TUnit.isCommitted) us = us.map TUnit.asFirm := by
  induction us with
  | nil => rfl
  | cons u us ih =>
    have rest := ih fun x within => resolved x (.tail _ within)
    cases state : u.state with
    | provisional => exact absurd state (resolved u (.head _))
    | committed =>
      have committed : u.isCommitted = true := by simp [TUnit.isCommitted, state]
      rw [List.countP_cons_of_pos committed, firmFirst_cons_committed committed, rest]
      rfl
    | firm =>
      have other : u.isCommitted = false := by simp [TUnit.isCommitted, state]
      have same : u.asFirm = u := by rw [TUnit.asFirm, ← state]
      rw [List.countP_cons_of_neg (by simp [other]), firmFirst_cons_other other, rest, List.map_cons, same]

/-- Once nothing is PROVISIONAL the report leaves all units FIRM. -/
theorem reportResolved_units {s : State} (rises : s.rises) (resolved : noneProvisional s.script.units)
    (rests : s.trans.atRest = true) :
    (reportResolved s).script.units =
      if s.script.session = .closing ∧ s.script.resolved = false then s.script.units.map TUnit.asFirm
      else s.script.units := by
  by_cases asks : s.script.session = .closing ∧ s.script.resolved = false
  · rw [if_pos asks, reportResolved_of_asked ⟨rests, asks⟩, holdResolved_script, firmAll]
    have script := firmOldest_script (k := s.script.committedCount)
      (s := s.onScript fun t => { t with resolved := true }) rises
    exact (congrArg Transcript.units script).trans (firmFirst_all resolved)
  · rw [if_neg asks, reportResolved_of_not (fun asked => asks asked.2)]

/-- The floor after a report: a session that is not CLOSING keeps it. -/
theorem reportResolved_of_opened {s : State} (opened : s.script.session = .opened) : reportResolved s = s :=
  reportResolved_of_not fun asked => absurd (opened.symm.trans asked.2.1) (by decide)

/-! ### The end of the step -/

/-- What the end of a step leaves of the transcript, the translator, the floor and the memory. -/
theorem finishStep_kept {s : State} (normal : s.host.phase = .normal) (no_restart : s.log.flush ≠ .restart) :
    finishStep s = { s with
      time := (finishStep s).time
      store := (finishStep s).store
      log := (finishStep s).log
      dict := (finishStep s).dict
      script := { s.script with
        session := (finishStep s).script.session, closeTag := (finishStep s).script.closeTag }
      host := (finishStep s).host
      conds := (finishStep s).conds } := by
  have flush : s.takeUp.log.flush ≠ .restart := by rw [takeUp_log_flush]; exact no_restart
  have script : (finishStep s).script = { s.script with
      session := (finishStep s).script.session, closeTag := (finishStep s).script.closeTag } := by
    have kept : s.takeUp.script = s.script := by simp [State.takeUp]
    rw [finishStep_of_normal normal no_restart]
    rcases flushReport_of_normal flush with same | ⟨failed, done⟩
    · simp only [same, chooseFrame_frame, kept]
    · have closed : (closeDone failed s.takeUp).script = _ := congrArg State.script (closeDone_tells failed s.takeUp).kept
      simp only [done, chooseFrame_frame, closed, kept]
  refine State.eq_of_blocks ?_ ?_ ?_ ?_ rfl ?_ rfl rfl rfl ?_ script ?_ ?_ ?_ rfl rfl ?_ ?_
  all_goals
    rw [finishStep_of_normal normal no_restart]
    simp [State.takeUp]

end Sys2Proof.Machine
end

section
/-! HOLD_TIMER_EXPIRY settled (R117). -/

namespace Sys2Proof.Machine

/-- The hold list resolved by its expiry, and the test for the clean boundary. -/
def State.expired (s : State) : State :=
  cleanTest ((resolveHold s).onTrans fun t => { t with holdExpiries := t.holdExpiries + 1 })

section
variable {s : State}

theorem holdExpire_of_held (rests : s.trans.inFlight = none) (holds : s.trans.hold ≠ []) :
    holdExpire s = afterRest s.expired := by
  unfold holdExpire
  rw [rests]
  dsimp only
  rw [if_neg (by simpa using holds)]
  rfl

theorem holdExpire_of_empty (rests : s.trans.inFlight = none) (empty : s.trans.hold = []) : holdExpire s = s := by
  unfold holdExpire
  rw [rests]
  dsimp only
  rw [if_pos (by simpa using empty)]

theorem holdExpire_of_inFlight (flies : s.trans.inFlight ≠ none) :
    holdExpire s = { s with trans := { s.trans with expiryPending := true } } := by
  unfold holdExpire
  split
  · rfl
  next rests => exact absurd rests flies

theorem expired_script (s : State) : s.expired.script = (resolveHold s).script := by simp [State.expired]

theorem expired_trans (s : State) : s.expired.trans = { (resolveHold s).trans with
    holdExpiries := s.trans.holdExpiries + 1 } := by
  have before : (resolveHold s).trans.holdExpiries = s.trans.holdExpiries := by rw [resolveHold_trans]
  rw [← before]
  simp [State.expired]

theorem expired_atRest (rests : s.trans.inFlight = none) : s.expired.trans.atRest = true := by
  rw [expired_trans, resolveHold_trans, Translator.atRest, rests]
  rfl

theorem expired_storeKept (s : State) : StoreKept s s.expired :=
  (cleanTest_storeKept _).after (.of_same (by simp) (by simp) (by simp) (by simp))

theorem afterRest_storeKept (s : State) : StoreKept s (afterRest s) :=
  (reportResolved_storeKept _).after (insertNotes_storeKept s)

theorem expired_floor_still (still : s.floor.state ≠ .passing) : s.expired.floor = s.floor := by
  rw [State.expired, cleanTest_of_not_passing (by simpa using still)]
  simp

/-- With nothing left to relay the expiry completes a pass (R30). -/
theorem expired_floor_passing {p : Pos} (rests : s.trans.inFlight = none) (passing : s.floor.state = .passing)
    (live : (s.posRec p).state = .live) (requesting : (s.posRec (otherPos p)).state = .requesting) :
    s.expired.floor =
      if (s.posRec p).queue = [] then
        { s.floor with
          pos := (s.floor.pos.upd p (fun r => { r with state := .shadow })).upd (otherPos p)
            (fun r => { r with state := .live })
          state := .held
          waitFrom := none
          cleanPasses := s.floor.cleanPasses + 1 }
      else s.floor := by
  generalize resolved : (resolveHold s).onTrans (fun t => { t with holdExpiries := t.holdExpiries + 1 }) = v
  have floor : v.floor = s.floor := by
    rw [← resolved]
    simp
  have trans : v.trans.inFlight = none ∧ v.trans.hold = [] := by
    rw [← resolved, onTrans_trans, resolveHold_trans]
    exact ⟨rests, rfl⟩
  have same : ∀ q, v.posRec q = s.posRec q := fun q => by rw [State.posRec, floor, State.posRec]
  have test : s.expired = cleanTest v := by rw [State.expired, resolved]
  rw [test, cleanTest_of_passing (by rw [floor]; exact passing) (by rw [same]; exact live)
    (by rw [same]; exact requesting), same]
  simp only [trans, true_and]
  split
  · rw [cleanPass_floor, floor]
  · exact floor

/-! ### The units after the step -/

/-- Units that only differ in being COMMITTED or FIRM, with others after them. -/
theorem take_of_asFirm {us vs : List TUnit} {ws : List TUnit}
    (same : us.map TUnit.asFirm = vs.map TUnit.asFirm ++ ws) :
    (us.take vs.length).map TUnit.asFirm = vs.map TUnit.asFirm ∧ us.length = vs.length + ws.length := by
  refine ⟨?_, by simpa using congrArg List.length same⟩
  rw [List.map_take, same, List.take_left' (List.length_map _)]

theorem expired_rises (rises : s.rises) : s.expired.rises := by
  rw [State.rises, expired_script]
  refine rising_of_numbers ?_ rises
  rw [resolveHold_units_map rises, List.map_map]
  refine List.map_congr_left fun x _ => ?_
  rw [Function.comp, TUnit.resolvedIn]
  split <;> rfl

theorem afterRest_asFirm (rests : s.trans.atRest = true)
    (room : s.script.units.length + s.trans.notes.length ≤ Config.unitsMax) :
    ∃ us, us.length = s.trans.notes.length ∧
      (afterRest s).script.units.map TUnit.asFirm = s.script.units.map TUnit.asFirm ++ us := by
  obtain ⟨us, count, same⟩ := insertNotes_asFirm rests room
  exact ⟨us, count, (reportResolved_asFirm _).trans same⟩

theorem afterRest_units (rests : s.trans.atRest = true) (none_queued : s.trans.notes = []) (rises : s.rises)
    (resolved : noneProvisional s.script.units) :
    (afterRest s).script.units =
      if s.script.session = .closing ∧ s.script.resolved = false then s.script.units.map TUnit.asFirm
      else s.script.units := by
  rw [afterRest, insertNotes_of_none none_queued, reportResolved_units rises resolved rests]

theorem afterRest_floor_of_opened (opened : s.script.session = .opened) : (afterRest s).floor = s.floor := by
  rw [afterRest, reportResolved_of_opened (by simpa using opened)]
  simp

end

/-- What the time that passes leaves as it was. -/
theorem advance_kept (d : Nat) (s : State) : s.advance d = { s with
    time := (s.advance d).time, trans := { s.trans with timer := (s.advance d).trans.timer }
    store := (s.advance d).store } := rfl

/-- Settles O43: the hold list by `resolveHold_units_map`, the notes and the report of the close by what they leave of
the units. -/
theorem holdExpiryCommitsTheHoldList : Obligations.HoldExpiryCommitsTheHoldList := by
  intro s calm
  refine ⟨?_, ?_⟩
  · intro stopped
    show execHoldTimerExpiry s = _
    unfold execHoldTimerExpiry
    split
    · rfl
    next e timer =>
      rw [if_pos (stopped.resolve_left (by simp [timer]))]
  intro e u timer hold_time is_u
  have exec_is : exec .holdTimerExpiry s = .next (finishStep (holdExpire u)) := by
    show execHoldTimerExpiry s = _
    unfold execHoldTimerExpiry
    rw [timer]
    dsimp only
    rw [if_neg hold_time, ← is_u]
  obtain ⟨script, settings, floor, host, log, trans⟩ : u.script = s.script ∧ u.settings = s.settings ∧
      u.floor = s.floor ∧ u.host = s.host ∧ u.log = s.log ∧
      u.trans = { s.trans with timer := u.trans.timer } := by
    rw [is_u]
    split
    · rw [advance_kept]
      exact ⟨rfl, rfl, rfl, rfl, rfl, rfl⟩
    · exact ⟨rfl, rfl, rfl, rfl, rfl, rfl⟩
  have calm_u : u.calm := by
    rw [State.calm, host, log]
    exact calm
  have flight : u.trans.inFlight = s.trans.inFlight := by rw [trans]
  have held : u.trans.hold = s.trans.hold := by rw [trans]
  have same_pos : ∀ q, u.posRec q = s.posRec q := fun q => by rw [State.posRec, floor, State.posRec]
  rw [exec_is]
  refine ⟨?_, ?_, ?_⟩
  · intro rests empty
    rw [holdExpire_of_empty (flight.trans rests) (held.trans empty), finishStep_calm u calm_u]
  · intro rests holds units fromOn resolved firm
    have rests_u := flight.trans rests
    rw [holdExpire_of_held rests_u (by rw [held]; exact holds)]
    have kept := (afterRest_storeKept u.expired).after (expired_storeKept u)
    have ends := finishStep_kept (s := afterRest u.expired) (kept.phase.trans calm_u.1)
      (kept.restart calm_u.1 (by rw [calm_u.2]; decide))
    have rests_after := expired_atRest rests_u
    have notes : u.expired.trans.notes = s.trans.notes := by rw [expired_trans, resolveHold_trans, trans]
    have trans_after : (afterRest u.expired).trans = { u.expired.trans with
        notes := (insertNotes u.expired).trans.notes
        notesInserted := (insertNotes u.expired).trans.notesInserted
        untranslates := (insertNotes u.expired).trans.untranslates } := by
      rw [← insertNotes_trans]
      simp [afterRest]
    have none_left : noneProvisional u.expired.script.units := by
      rw [expired_script]
      exact resolveHold_noneProvisional u
    have script_after : u.expired.script.session = s.script.session ∧
        u.expired.script.resolved = s.script.resolved := by
      rw [expired_script, resolveHold_script, script]
      exact ⟨rfl, rfl⟩
    refine ⟨_, rfl, ?_, ?_, ?_, ?_, ?_, ?_, ?_, ?_, ?_⟩
    · rw [ends, trans_after, expired_trans, resolveHold_trans]
    · rw [ends, trans_after, expired_trans, resolveHold_trans]
    · rw [ends, trans_after, expired_trans, resolveHold_trans, trans]
    · rw [ends, trans_after, expired_trans, trans]
    · rw [ends]
      exact reportResolved_noneProvisional (insertNotes_noneProvisional none_left)
    · intro rises room
      have rises_u : u.rises := by rw [State.rises, script]; exact rises
      have resolved_is : u.expired.script.units = resolved := by
        rw [expired_script, resolveHold_units_map rises_u, script, settings]
        rfl
      have length : resolved.length = units.length := List.length_map _
      obtain ⟨us, count, same⟩ := afterRest_asFirm rests_after
        (by rw [resolved_is, notes, length]; exact room)
      rw [notes] at count
      rw [resolved_is] at same
      obtain ⟨old, total⟩ := take_of_asFirm same
      rw [ends]
      refine ⟨?_, ?_, ?_⟩
      · rw [length] at old
        exact old
      · rw [total, count, length]
      · intro none_queued
        rw [none_queued] at notes
        refine (afterRest_units rests_after notes (expired_rises rises_u) none_left).trans ?_
        rw [script_after.1, script_after.2, resolved_is]
        rfl
    · intro opened still
      rw [ends]
      exact (afterRest_floor_of_opened (script_after.1.trans opened)).trans
        ((expired_floor_still (by rw [floor]; exact still)).trans floor)
    · intro p opened passing live requesting
      rw [ends]
      refine (afterRest_floor_of_opened (script_after.1.trans opened)).trans ?_
      rw [expired_floor_passing rests_u (by rw [floor]; exact passing) (by rw [same_pos]; exact live)
        (by rw [same_pos]; exact requesting), same_pos, floor]
    · have frame : afterRest u.expired = { u with
          floor := (afterRest u.expired).floor
          time := (afterRest u.expired).time
          store := (afterRest u.expired).store
          log := (afterRest u.expired).log
          trans := (afterRest u.expired).trans
          script := (afterRest u.expired).script
          feeds := (afterRest u.expired).feeds
          host := (afterRest u.expired).host
          conds := (afterRest u.expired).conds } := by
        refine State.eq_of_blocks ?_ ?_ ?_ rfl rfl ?_ rfl rfl ?_ rfl rfl rfl ?_ ?_ rfl rfl ?_ ?_ <;>
          simp [afterRest, State.expired]
      generalize (afterRest u.expired) = v at ends frame
      rw [ends, frame]
  · intro flies
    rw [holdExpire_of_inFlight (by rw [flight]; exact flies)]
    exact congrArg Host.Outcome.next (finishStep_calm _ calm_u)

end Sys2Proof.Machine
end

section
/-! RESTART and its end (R72, R138, R194). -/

namespace Sys2Proof.Machine

/-! ### The request -/

/-- The drain asks of the host link only whether the part winds down. -/
theorem drainNext_onHost_of_windingDown {g : HostLink → HostLink} {s : State}
    (winds : (s.onHost g).windingDown = s.windingDown) : drainNext (s.onHost g) = (drainNext s).onHost g := by
  have ready : drainReady (s.onHost g) = drainReady s := by
    funext o
    unfold drainReady
    rw [winds]
    rfl
  unfold drainNext
  simp only [onHost_dict, ready]
  split
  · rfl
  · split
    · rw [← onDict_onHost]
      exact drainStep_onHost g _
    · rfl

theorem takeUp_onHost_of_windingDown {g : HostLink → HostLink} {s : State}
    (winds : (s.onHost g).windingDown = s.windingDown) : (s.onHost g).takeUp = s.takeUp.onHost g := by
  have later : ∀ t : State, t.host = s.host → (t.onHost g).windingDown = t.windingDown := by
    intro t host
    rw [State.windingDown, State.windingDown, onHost_host] at winds ⊢
    rw [host]
    exact winds
  rw [State.takeUp, drainBegin, drainNext_onHost_of_windingDown winds,
    drainNext_onHost_of_windingDown (later _ (by simp)), drainNext_onHost_of_windingDown (later _ (by simp)),
    storePump_onHost]
  rfl

/-- The host link once it has taken a RESTART. -/
def HostLink.asked (h : HostLink) : HostLink :=
  { h with
    rx := .hunt
    framesReceived := h.framesReceived + 1
    requestsTaken := h.requestsTaken + 1
    phase := .restarting }

theorem restart_finishes {tag : Byte} {s : State} (accepts : s.accepts) (calm : s.calm) :
    exec (.restart tag []) s = .next
      { s.takeUp with host := { s.host.answer tag (.done []) .restart with phase := .restarting } } := by
  obtain ⟨normal, quiet⟩ := calm
  show Host.Outcome.next (finishStep (takeRequest tag true false restartRule afterRestart s)) = _
  rw [takeRequest_taken _ _ _ _ _ accepts]
  have rule : restartRule s.counted = (s.onHost HostLink.asked, .done []) := rfl
  have steps : finishStep (addReply tag (.done []) .restart (s.onHost HostLink.asked)) =
      chooseFrame (addReply tag (.done []) .restart (s.takeUp.onHost HostLink.asked)) := by
    have restarts : HostPhase.restarting ≠ .draining := by decide
    refine (finishStep_of_owesNoReport (s := addReply _ _ _ (s.onHost HostLink.asked)) (.inl quiet)
      (.inl restarts)).trans ?_
    refine congrArg chooseFrame (takeUp_onHost_of_windingDown (s := s)
      (g := fun h => { h.asked with replies := h.replies ++ [⟨tag, .done [], .restart⟩] }) ?_)
    simp [State.windingDown, normal, HostLink.asked]
  have answer : (s.onHost fun h => { h with phase := .restarting }).host.answer tag (.done []) .restart =
      { s.host.answer tag (.done []) .restart with phase := .restarting } := by
    unfold HostLink.answer
    cases sending : s.host.sending <;> simp [sending]
  rw [rule, ← answer]
  exact congrArg Host.Outcome.next (steps.trans (chooseFrame_addReply _ _ _ (s.onHost _) _ (by
    simp [HostLink.asked, State.counted, takeUp_host])))

/-! ### What the end of a step takes up while the part winds down -/

section
variable {s : State}

/-- Nothing is drained (R101). -/
theorem drainBegin_of_windingDown (winds : s.windingDown = true) : drainBegin s = s := by
  have next : drainNext s = s := by
    unfold drainNext
    split
    · rfl
    · rw [if_neg]
      simp [drainReady, winds]
  rw [drainBegin, next, next, next]

/-- The store has nothing to take up. -/
structure State.idles (s : State) : Prop where
  waiting : s.store.waiting = []
  dictWork : s.store.dictWork = []
  job : s.store.job = none
  pages : s.log.pages = []
  ended : s.store.inProgress = none ∧ s.store.suspended = none ∨ s.store.state = .fault

theorem storePump_of_idles (idles : s.idles) : storePump s = s := by
  have no_read : startRead s = s := by rw [startRead, idles.waiting]
  have no_page : logReady s = none := by rw [logReady, idles.pages]
  have no_work : pumpIdle s = s := by
    unfold pumpIdle
    simp only [no_page, idles.dictWork, idles.job, idles.waiting, List.isEmpty_nil, Bool.not_true, List.head?_nil]
    split <;> rfl
  unfold storePump
  split
  · rfl
  rcases idles.ended with ⟨ran, suspended⟩ | fault
  · simp only [ran, suspended, no_read, no_work, idles.job]
    split <;> rfl
  · simp only [fault, no_read]
    split <;> rfl

theorem takeUp_of_idles (winds : s.windingDown = true) (idles : s.idles) : s.takeUp = s := by
  rw [State.takeUp, drainBegin_of_windingDown winds, storePump_of_idles idles]

theorem idles_restartEnded (idles : s.idles) : s.store.restartEnded = true := by
  rcases idles.ended with ⟨ran, suspended⟩ | fault
  · simp [Store.restartEnded, ran, suspended, idles.dictWork]
  · simp [Store.restartEnded, fault]

/-- What is left of a state once every block has its power-on values. -/
theorem powerOn_congr {t : State} (flash : t.flash = s.flash) (unfinished : t.store.unfinished = s.store.unfinished)
    (pending : t.pending = s.pending) : t.powerOn = s.powerOn := by
  rw [State.powerOn, State.powerOn, flash, unfinished, pending]

/-- The RESTART ends: nothing is left to flush, to end or to send. -/
theorem transmit_of_ended (draining : s.host.phase = .draining) (replies : s.host.replies = [])
    (ended : s.store.restartEnded = true) : transmit s = s.powerOn := by
  have phase : (chooseFrame s).host.phase = .draining := by simpa using draining
  have none_left : (chooseFrame s).host.replies = [] := by
    rw [chooseFrame_replies, replies]
    split <;> rfl
  unfold transmit
  dsimp only
  have store : (chooseFrame s).store = s.store := by simp
  rw [if_pos ⟨phase, none_left, by rw [store]; exact ended⟩]
  exact powerOn_congr (by simp) (by rw [store]) (by simp)

theorem finishStep_of_ended (idles : s.idles) (replies : s.host.replies = [])
    (flushes : s.host.phase = .windingDown ∧ s.log.flush = .restart ∨
      s.host.phase = .draining ∧ s.log.flush = .none) : finishStep s = s.powerOn := by
  have winds : s.windingDown = true := by
    rcases flushes with ⟨phase, -⟩ | ⟨phase, -⟩ <;> simp [State.windingDown, phase]
  have reported : ∃ f, flushReport s = (s.onLog fun w => { w with flush := .none }).onHost f ∧
      (f s.host).phase = .draining ∧ (f s.host).replies = s.host.replies := by
    have empty : s.log.pages.isEmpty = true := by rw [idles.pages]; rfl
    unfold flushReport
    rw [empty, Bool.true_or, if_pos rfl]
    rcases flushes with ⟨-, flush⟩ | ⟨phase, flush⟩
    · rw [flush]
      exact ⟨_, rfl, rfl, rfl⟩
    · refine ⟨id, ?_, phase, rfl⟩
      have same : (s.onLog fun w => { w with flush := .none }) = s := by rw [State.onLog, ← flush]
      rw [flush, same]
      rfl
  obtain ⟨f, is, draining, same⟩ := reported
  show transmit (flushReport s.takeUp) = _
  rw [takeUp_of_idles winds idles, is]
  have ended : ((s.onLog fun w => { w with flush := .none }).onHost f).store.restartEnded = true :=
    idles_restartEnded (s := s) idles
  exact transmit_of_ended draining (same.trans replies) ended

end

end Sys2Proof.Machine
end

section
/-! The end of the RESTART (R72, R194): the last operation, and RESTART with nothing to flush. -/

namespace Sys2Proof.Machine

/-! ### The last operation of the store -/

section
variable {op : FlashOp} {w : Work} {ran : Nat} {left : List Host.Cell} {s : State}

/-- The end of an operation without an error. -/
def endOf (op : FlashOp) (left : List Host.Cell) : Instr :=
  match op with
  | .program _ _ => .pageProgramEnd false left
  | .erase _ => .blockEraseEnd false left

/-- The store without the operation that has ended. -/
def State.withoutOp (op : FlashOp) (s : State) : State :=
  { s with
    flash := { s.flash with cells := op.apply s.flash.cells }
    store := { s.store with inProgress := none, suspendAt := none } }

theorem exec_endOf (runs : s.store.inProgress = some ⟨op, w, ran, false⟩) (known : w ≠ .abandoned)
    (first : s.store.recovering = none) :
    exec (endOf op left) s = .next (finishStep (workEffect w (s.withoutOp op))) := by
  have ends : exec (endOf op left) s = .next (finishStep (opEnded ⟨op, w, ran, false⟩ false left s)) := by
    cases op with
    | program addr data =>
      show execPageProgramEnd false left s = _
      rw [execPageProgramEnd, runs]
    | erase b =>
      show execBlockEraseEnd false left s = _
      rw [execBlockEraseEnd, runs]
  rw [ends, opEnded_of_done rfl known]
  have cleared : clearOp ⟨op, w, ran, false⟩ false left s = s.withoutOp op := rfl
  rw [cleared, workDone_of_first (by simp [endsRetry, State.withoutOp, first])]

theorem jobDone_of_none (none : s.store.job = none) : workEffect .job s = s := by
  show jobDone s = s
  rw [jobDone, none]

/-- The wait of a LOG-FLUSH: a COMPLETION aside nothing changes. -/
theorem flushProgress_kept (s : State) : flushProgress s = { s with
    time := (flushProgress s).time
    log := { s.log with flushTag := (flushProgress s).log.flushTag }
    host := (flushProgress s).host
    conds := (flushProgress s).conds } ∧
    (flushProgress s).host.phase = s.host.phase ∧ (flushProgress s).host.replies = s.host.replies := by
  unfold flushProgress
  split
  · exact ⟨rfl, rfl, rfl⟩
  split
  · have tells := completeFlush_tells none s
    refine ⟨?_, ?_, ?_⟩
    · rw [tells.kept]
      rfl
    · rw [tells.link]
      rfl
    · rw [tells.link]
      rfl
  · exact ⟨rfl, rfl, rfl⟩

theorem logDone_eq (s : State) : workEffect .logPage s = flushProgress { s with
    store := { s.store with logRelocated := false }, log := { s.log with pages := s.log.pages.drop 1 } } := rfl

/-- With the last page programmed, nothing is left for the store but an operation that is suspended. -/
theorem logDone_ends {page : BufPage} (pages : s.log.pages = [page]) :
    ∃ v, workEffect .logPage s = v ∧ v.flash = s.flash ∧ v.pending = s.pending ∧ v.log.pages = [] ∧
      v.log.flush = s.log.flush ∧ v.host.phase = s.host.phase ∧ v.host.replies = s.host.replies ∧
      v.store = { s.store with logRelocated := false } := by
  obtain ⟨kept, phase, replies⟩ := flushProgress_kept { s with
    store := { s.store with logRelocated := false }, log := { s.log with pages := s.log.pages.drop 1 } }
  refine ⟨_, logDone_eq s, ?_, ?_, ?_, ?_, phase, replies, ?_⟩ <;> rw [kept]
  exact congrArg (List.drop 1) pages

end

section
variable {s : State}

/-- An operation that is suspended is resumed, once nothing else is left. -/
theorem storePump_resumes {r : Running} (ready : s.store.state = .ready) (reading : s.store.reading = none)
    (ran : s.store.inProgress = none) (suspended : s.store.suspended = some r) (first : s.store.recovering = none)
    (waiting : s.store.waiting = []) (dictWork : s.store.dictWork = []) (pages : s.log.pages = []) :
    storePump s = s.onStore Store.resume := by
  have no_page : logReady s = none := by rw [logReady, pages]
  have no_record : s.store.dictWork.find? (fun p => (dictOp s p).outside r.op) = none := by rw [dictWork]; rfl
  unfold storePump
  rw [reading, ready, ran, suspended]
  dsimp only
  unfold pumpSuspended
  dsimp only
  rw [first, no_page, no_record, waiting]
  cases r.op <;> rfl

theorem finishStep_resumes {r : Running} (winds : s.host.phase = .windingDown) (flush : s.log.flush = .restart)
    (ready : s.store.state = .ready) (reading : s.store.reading = none)
    (ran : s.store.inProgress = none) (suspended : s.store.suspended = some r) (first : s.store.recovering = none)
    (waiting : s.store.waiting = []) (dictWork : s.store.dictWork = []) (pages : s.log.pages = []) :
    (finishStep s).host.phase = .draining ∧ (finishStep s).store.inProgress = some r ∧
      (finishStep s).store.suspended = none := by
  have taken : s.takeUp = s.onStore Store.resume := by
    rw [State.takeUp, drainBegin_of_windingDown (by simp [State.windingDown, winds]),
      storePump_resumes ready reading ran suspended first waiting dictWork pages]
  have reported : flushReport s.takeUp = ((s.onStore Store.resume).onLog fun w => { w with flush := .none }).onHost
      fun h => { h with phase := .draining } := by
    rw [taken]
    unfold flushReport
    simp [pages, flush]
  have stays : finishStep s = chooseFrame (flushReport s.takeUp) := by
    show transmit (flushReport s.takeUp) = _
    unfold transmit
    dsimp only
    rw [if_neg]
    rintro ⟨-, -, ended⟩
    rw [reported] at ended
    simp [Store.restartEnded, Store.resume, ready, suspended] at ended
  rw [stays, reported]
  simp [Store.resume, suspended]

end

end Sys2Proof.Machine
end

section
/-! RESTART passed to the blocks (R72, R138, R194). -/

namespace Sys2Proof.Machine

section
variable {s : State}

/-- The host link once the DONE of the RESTART has left the line. -/
def HostLink.windsDown (h : HostLink) : HostLink :=
  { h with sending := none, repliesSent := h.repliesSent + 1, phase := .windingDown }

theorem exec_restartSent {r : Reply} (sending : s.host.sending = some (.reply r)) (after : r.after = .restart) :
    exec .hostFrameSent s =
      .next (finishStep (restartStore (restartScript (abandonOpen (s.onHost HostLink.windsDown))))) := by
  show execHostFrameSent s = _
  rw [execHostFrameSent, sending]
  dsimp only
  unfold frameSentHost replySent
  dsimp only
  rw [after]
  rfl

theorem atRestart_op (formatting : Bool) (r : Running) : (r.atRestart formatting).op = r.op := by
  unfold Running.atRestart Running.discardIf
  (repeat' split) <;> rfl

theorem restart_unfinished (st : Store) : st.restart.unfinished = st.unfinished := by
  simp [Store.unfinished, Store.restart, Option.map_map, Function.comp_def, atRestart_op]

theorem endLookupsOf_of_none {p : Lookup → Bool} (no_lookup : s.dict.lookups = []) :
    endLookupsOf p s = s.onStore (dropReads fun _ => false) := by
  rw [endLookupsOf, no_lookup]
  rfl

/-- A RESTART with no session, no page and nothing to end. -/
theorem restart_at_once (closed : s.script.session = .closed) (pages : s.log.pages = [])
    (no_lookup : s.dict.lookups = []) (replies : s.host.replies = [])
    (ended : s.store.inProgress = none ∧ s.store.suspended = none ∨ s.store.state = .fault) :
    finishStep (restartStore (restartScript (abandonOpen (s.onHost HostLink.windsDown)))) = s.powerOn := by
  have scripted : ∃ u, restartScript (abandonOpen (s.onHost HostLink.windsDown)) = u ∧ u.store = s.store ∧
      u.log = { s.log with flush := .restart } ∧ u.host = s.host.windsDown ∧ u.dict = s.dict ∧ u.flash = s.flash ∧
      u.pending = s.pending := by
    have script : restartScript (abandonOpen (s.onHost HostLink.windsDown)) =
        beginFlush .restart ((abandonOpen (s.onHost HostLink.windsDown)).onScript fun t =>
          { t with search := none, lock := none, closeTag := none }) := by
      unfold restartScript
      dsimp only
      split
      · rfl
      next opened => exact absurd (opened.symm.trans closed) (by decide)
      next closing => exact absurd (closing.symm.trans closed) (by decide)
    refine ⟨_, script, rfl, ?_, rfl, rfl, rfl, rfl⟩
    show { s.log.closePage with flush := Flush.restart } = _
    rw [LogWriter.closePage, pages, ← pages]
    simp [pages]
  obtain ⟨u, is, store, log, host, dict, flash, pending⟩ := scripted
  have restarted : restartStore u = (u.onStore (dropReads fun _ => false)).onStore Store.restart := by
    rw [restartStore, endLookupsOf_of_none (by rw [dict]; exact no_lookup)]
  rw [is, restarted]
  have idles : ((u.onStore (dropReads fun _ => false)).onStore Store.restart).idles := by
    refine ⟨rfl, rfl, rfl, ?_, ?_⟩
    · show u.log.pages = []
      rw [log]
      exact pages
    · rcases ended with ⟨ran, suspended⟩ | fault
      · left
        simp [Store.restart, dropReads, store, ran, suspended]
      · right
        simpa [Store.restart, dropReads, store] using fault
  have flushes : u.host.phase = .windingDown ∧ u.log.flush = .restart := by
    rw [host, log]
    exact ⟨rfl, rfl⟩
  have sent : u.host.replies = [] := by
    rw [host]
    exact replies
  rw [finishStep_of_ended idles sent (.inl flushes)]
  refine powerOn_congr flash ?_ pending
  rw [onStore_store, restart_unfinished, ← store]
  rfl

end

end Sys2Proof.Machine
end

section
/-! RESTART with a session OPEN (R35, R72, R125, R138), and the RESTART settled. -/

namespace Sys2Proof.Machine

/-! ### What the store takes up once reads and records have been abandoned -/

/-- Neither a read nor a record is taken up; a log page may be. -/
def State.takesOnlyPages (s t : State) : Prop :=
  t.store.waiting = s.store.waiting ∧ t.store.dictWork = s.store.dictWork ∧
    (t.log.pages = s.log.pages ∨ t.log.pages = programFirst s.log.pages)

theorem begin_queues (op : FlashOp) (w : Work) (st : Store) :
    (st.begin op w).waiting = st.waiting ∧ (st.begin op w).dictWork = st.dictWork := by
  cases op <;> exact ⟨rfl, rfl⟩

theorem storePump_takesOnlyPages {s : State} (waiting : s.store.waiting = []) (dictWork : s.store.dictWork = []) :
    s.takesOnlyPages (storePump s) := by
  have same : s.takesOnlyPages s := ⟨rfl, rfl, .inl rfl⟩
  have no_read : startRead s = s := by rw [startRead, waiting]
  have page : ∀ p, s.takesOnlyPages (startLog p s) := fun p => ⟨rfl, rfl, .inr rfl⟩
  have job : ∀ j, s.takesOnlyPages (startJob j s) := fun j =>
    ⟨(begin_queues _ _ _).1, (begin_queues _ _ _).2, .inl rfl⟩
  have resumes : s.takesOnlyPages (s.onStore Store.resume) := ⟨rfl, rfl, .inl rfl⟩
  have idle : s.takesOnlyPages (pumpIdle s) := by
    unfold pumpIdle
    simp only [dictWork, waiting, List.isEmpty_nil, Bool.not_true, List.head?_nil, Bool.false_eq_true, if_false]
    (repeat' split) <;> simp_all only [reduceCtorEq]
  have suspended : ∀ r, s.takesOnlyPages (pumpSuspended r s) := by
    intro r
    unfold pumpSuspended
    simp only [dictWork, waiting, List.isEmpty_nil, Bool.not_true, List.find?_nil, Bool.false_eq_true, if_false]
    (repeat' split) <;> simp_all only [reduceCtorEq]
  have running : ∀ r, s.takesOnlyPages (pumpRunning r s) := by
    intro r
    unfold pumpRunning
    split
    · exact same
    · exact ⟨rfl, rfl, .inl rfl⟩
  unfold storePump
  simp only [no_read]
  (repeat' split) <;> simp only [same, job, resumes, idle, suspended, running]

/-! ### All units FIRM -/

theorem countP_changeUnit_firm {us : List TUnit} {u : TUnit} (held : u ∈ us) (committed : u.isCommitted = true) :
    (changeUnit u.number (fun x => { x with state := .firm }) us).countP TUnit.isCommitted <
      us.countP TUnit.isCommitted := by
  have fewer : ∀ vs : List TUnit, (changeUnit u.number (fun x => { x with state := .firm }) vs).countP TUnit.isCommitted ≤
      vs.countP TUnit.isCommitted := by
    intro vs
    rw [changeUnit, List.countP_map]
    refine List.countP_mono_left fun x _ still => ?_
    by_cases same : x.number = u.number
    · simp [same, TUnit.isCommitted] at still
    · simpa [same] using still
  obtain ⟨before, after, rfl⟩ := List.append_of_mem held
  have split_change : changeUnit u.number (fun x => { x with state := .firm }) (before ++ u :: after) =
      changeUnit u.number (fun x => { x with state := .firm }) before ++
        u.asFirm :: changeUnit u.number (fun x => { x with state := .firm }) after := by
    simp [changeUnit, TUnit.asFirm]
  have firm : u.asFirm.isCommitted = false := rfl
  rw [split_change, List.countP_append, List.countP_append, List.countP_cons_of_pos committed,
    List.countP_cons_of_neg (by rw [firm]; decide)]
  have := fewer before
  have := fewer after
  omega

theorem firmOldest_committed (k : Nat) (s : State) :
    (firmOldest k s).script.committedCount ≤ s.script.committedCount - k := by
  induction k generalizing s with
  | zero => exact Nat.le_refl _
  | succ k ih =>
    unfold firmOldest
    cases oldest : s.script.oldestCommitted with
    | none =>
      have no_unit : s.script.committedCount = 0 := List.countP_eq_zero.mpr (List.find?_eq_none.mp oldest)
      simp [no_unit]
    | some u =>
      have fewer : (firmUnit u.number s).script.committedCount < s.script.committedCount := by
        rw [firmUnit_script]
        exact countP_changeUnit_firm (List.mem_of_find?_eq_some oldest) (List.find?_some oldest)
      have := ih (firmUnit u.number s)
      dsimp only
      omega

/-- Where nothing is PROVISIONAL, all units are FIRM (R137). -/
theorem firmAll_firm {s : State} (resolved : noneProvisional s.script.units) :
    ∀ x ∈ (firmAll s).script.units, x.state = .firm := by
  intro x held
  have none_committed : (firmAll s).script.committedCount = 0 := by
    have := firmOldest_committed s.script.committedCount s
    exact Nat.le_zero.mp (this.trans_eq (Nat.sub_self _))
  have not_committed := List.countP_eq_zero.mp none_committed x held
  rcases mem_firmOldest held with before | firm
  · cases state : x.state with
    | provisional => exact absurd state (resolved x before)
    | committed => exact absurd (by simp [TUnit.isCommitted, state]) not_committed
    | firm => rfl
  · exact firm

end Sys2Proof.Machine
end

section
/-! The close of a session by RESTART: the translator and the transcript, the floor, the records (R35, R125, R138). -/

namespace Sys2Proof.Machine

section
variable {s : State}

/-- The state at which the close of a RESTART releases the floor: every unit FIRM, nothing else told but causes. -/
structure FirmedOf (s d : State) : Prop where
  units : ∀ x ∈ d.script.units, x.state = .firm
  session : d.script.session = .closing
  number : d.script.sessionNumber = s.script.sessionNumber
  lock : d.script.lock = none
  search : d.script.search = none
  inFlight : d.trans.inFlight = none
  hold : d.trans.hold = []
  notes : d.trans.notes = []
  log : d.log = s.log
  store : d.store = s.store
  phase : d.host.phase = s.host.phase
  seqCounter : d.seqCounter = s.seqCounter
  formers : d.formers = s.formers

theorem restartScript_of_opened (winds : s.windingDown = true) (opened : s.script.session = .opened) :
    ∃ d, FirmedOf s d ∧ restartScript s = beginFlush .restart (offerClose true (releaseFloor d)) := by
  generalize closing : beginClosing none (s.onScript fun t => { t with search := none, lock := none, closeTag := none }) = b
  have script : b.script = { s.script with
      search := none, lock := none, session := .closing, resolved := false, closeTag := none } := by
    rw [← closing]
    simp [beginClosing]
  have frame : b.log = s.log ∧ b.store = s.store ∧ b.host.phase = s.host.phase ∧ b.seqCounter = s.seqCounter ∧
      b.formers = s.formers := by
    rw [← closing]
    simp
  have script_is : restartScript s = reportResolved (restartTranslator b) := by
    unfold restartScript
    dsimp only
    split
    next closed => exact absurd (opened.symm.trans closed) (by decide)
    · rw [closing]
    next closes => exact absurd (opened.symm.trans closes) (by decide)
  generalize resolved : restartTranslator b = c at script_is
  have c_script : c.script = { b.script with units := c.script.units, unitsFirmed := c.script.unitsFirmed } := by
    rw [← resolved]
    exact resolveHold_script _
  have c_trans : c.trans.inFlight = none ∧ c.trans.hold = [] ∧ c.trans.notes = [] := by
    rw [← resolved, restartTranslator, resolveHold_trans]
    exact ⟨rfl, rfl, rfl⟩
  have c_units : noneProvisional c.script.units := by
    rw [← resolved]
    exact resolveHold_noneProvisional _
  have c_frame : c.log = b.log ∧ c.store = b.store ∧ c.host.phase = b.host.phase ∧ c.seqCounter = b.seqCounter ∧
      c.formers = b.formers := by
    rw [← resolved]
    simp [restartTranslator]
  have asks : c.asksReport := by
    refine ⟨by simp [Translator.atRest, c_trans], ?_, ?_⟩ <;> rw [c_script, script]
  have still : (c.onScript fun t => { t with resolved := true }).windingDown = true := by
    rw [State.windingDown] at winds ⊢
    rw [onScript_host, c_frame.2.2.1, frame.2.2.1]
    exact winds
  have d_script : (firmAll (c.onScript fun t => { t with resolved := true })).script = { c.script with
      resolved := true
      units := (firmAll (c.onScript fun t => { t with resolved := true })).script.units
      unitsFirmed := (firmAll (c.onScript fun t => { t with resolved := true })).script.unitsFirmed } :=
    (firmOldest_asFirm _ _).1
  obtain ⟨log, store, phase, seqCounter, formers⟩ := frame
  obtain ⟨inFlight, hold, notes⟩ := c_trans
  obtain ⟨c_log, c_store, c_phase, c_seqCounter, c_formers⟩ := c_frame
  refine ⟨firmAll (c.onScript fun t => { t with resolved := true }), ?_, ?_⟩
  · refine
      { units := firmAll_firm c_units, session := ?_, number := ?_, lock := ?_, search := ?_, inFlight := ?_
        hold := ?_, notes := ?_, log := ?_, store := ?_, phase := ?_, seqCounter := ?_, formers := ?_ }
    iterate 4 rw [d_script, c_script, script]
    all_goals simp only [firmAll_frame]
    exacts [inFlight, hold, notes, c_log.trans log, c_store.trans store, c_phase.trans phase,
      c_seqCounter.trans seqCounter, c_formers.trans formers]
  · rw [script_is, reportResolved_of_asked asks]
    unfold holdResolved
    dsimp only
    rw [still]
    rfl

/-! ### The records of the close -/

theorem offerOther_of_open {rec : Bytes} {page : BufPage} (takes : s.logTakes = true)
    (opened : s.log.openPage = some page) :
    offerOther rec s = s.onLog fun w => { w with pages := w.pages.map (BufPage.take rec) } := by
  rw [offerOther_of_taken ⟨takes, .inl (by simp [opened])⟩, offerRecord_of_open takes opened]

/-- A page that has room for more stays the OPEN one when it takes a record. -/
theorem openPage_take {rec : Bytes} {page : BufPage} {w : LogWriter} (opened : w.openPage = some page)
    (room : page.records.length + 1 < Config.pageRecords) :
    ({ w with pages := w.pages.map (BufPage.take rec) } : LogWriter).openPage =
      some { page with records := page.records ++ [rec] } := by
  have is_open : page.state = .opened := by simpa using List.find?_some opened
  have taken : page.take rec = { page with records := page.records ++ [rec] } := by
    simp [BufPage.take, is_open, Nat.not_le.mpr room]
  rw [← taken]
  unfold LogWriter.openPage at opened ⊢
  dsimp only at opened ⊢
  generalize w.pages = pages at opened
  induction pages with
  | nil => exact absurd opened (by simp)
  | cons p pages ih =>
    rw [List.find?_cons] at opened
    rw [List.map_cons, List.find?_cons]
    by_cases first : p.state = .opened
    · simp only [first, decide_true] at opened
      obtain rfl := Option.some.inj opened
      simp [taken, is_open]
    · have same : p.take rec = p := by simp [BufPage.take, first]
      simp only [first, decide_false] at opened
      simp only [same, first, decide_false]
      exact ih opened

/-- The floor released, before it is announced. -/
def State.vacated (s : State) : State :=
  (releasePos .b (releasePos .a s)).onFloor fun f => { f with state := .vacant, waitFrom := none }

theorem releaseFloor_eq (s : State) :
    releaseFloor s = floorChanged .release ((s.posRec .a).held + (s.posRec .b).held) s.vacated := rfl

theorem vacated_pos (s : State) (p : Pos) :
    (s.vacated.posRec p).queue = [] ∧ (s.vacated.posRec p).pending = none ∧ (s.vacated.posRec p).state ≠ .live := by
  have linked : ∀ t : State, t.linkedState p ≠ .live := fun t => by
    rw [State.linkedState]
    split <;> decide
  have after : ∀ (t : State) (r : PosRec),
      (if r.state = .live ∨ r.state = .requesting then t.linkedState p else r.state) ≠ .live := by
    intro t r
    split
    · exact linked t
    next other => exact fun live => other (.inl live)
  cases p
  · exact ⟨rfl, rfl, after s s.floor.pos.a⟩
  · exact ⟨rfl, rfl, after (releasePos .a s) s.floor.pos.b⟩

theorem vacated_live (s : State) : s.vacated.floor.live = none := by
  have a := (vacated_pos s .a).2.2
  have b := (vacated_pos s .b).2.2
  exact (if_neg a).trans (if_neg b)

/-- The floor after its release. -/
theorem releaseFloor_floor (s : State) : (releaseFloor s).floor = s.vacated.floor := by
  rw [releaseFloor_eq]
  simp only [floorChanged_frame]

/-- The FLOOR record of the release enters the OPEN page (R35). -/
theorem releaseFloor_log {page : BufPage} (takes : s.logTakes = true) (opened : s.log.openPage = some page) :
    ∃ floorAt, (releaseFloor s).log = { s.log with pages := s.log.pages.map (BufPage.take
        (logRecord 9 (logFlags none false false false false false) floorAt s.seqCounter.toNat s.logSession 4)) } ∧
      (releaseFloor s).store = s.store := by
  generalize announced : offerNotice (.floor s.vacated.stamped.floor.state s.vacated.stamped.floor.live
    s.vacated.stamped.floor.requesting .release ((s.posRec .a).held + (s.posRec .b).held) s.vacated.stamp)
      s.vacated.stamped = z
  have frame : z.log = s.log ∧ z.store = s.store ∧ z.seqCounter = s.seqCounter ∧ z.script = s.script ∧
      z.floor = s.vacated.floor := by
    rw [← announced]
    simp [State.vacated]
  obtain ⟨log, store, seqCounter, script, floor⟩ := frame
  have is : releaseFloor s = floorVacantCause (offerOther (floorRecord z .release z.floor.live s.vacated.stamp) z) := by
    rw [← announced, releaseFloor_eq, floorChanged, if_pos (by simp)]
    rfl
  have record : floorRecord z .release z.floor.live s.vacated.stamp =
      logRecord 9 (logFlags none false false false false false) s.vacated.stamp s.seqCounter.toNat s.logSession 4 := by
    rw [floorRecord, floor, vacated_live, seqCounter, State.logSession, script]
    rfl
  refine ⟨s.vacated.stamp, ?_⟩
  rw [is, record, offerOther_of_open (by rw [State.logTakes, store]; exact takes) (by rw [log]; exact opened)]
  simp [log, store]

/-- What stands in the log after the close of a RESTART. -/
theorem restart_closes_log {page : BufPage} (takes : s.logTakes = true) (opened : s.log.openPage = some page)
    (room : page.records.length ≤ 14) :
    ∃ f, beginFlush .restart (offerClose true (releaseFloor s)) = f ∧ f.store = s.store ∧ f.log.flush = .restart ∧
      (∀ q ∈ f.log.pages, q.state ≠ .opened) ∧
      ∃ floorAt closeAt, f.hasPage page.page (page.records ++
        [logRecord 9 (logFlags none false false false false false) floorAt s.seqCounter.toNat s.logSession 4,
          logRecord 0 (logFlags none false false false false true) closeAt s.seqCounter.toNat s.logSession 3]) := by
  obtain ⟨floorAt, log, store⟩ := releaseFloor_log takes opened
  generalize released : releaseFloor s = r at log store
  have seqCounter : r.seqCounter = s.seqCounter := by rw [← released]; simp
  have script : r.script = s.script := by rw [← released]; simp
  generalize floorRec : logRecord 9 _ floorAt _ _ _ = rec at log
  have r_takes : r.stamped.logTakes = true := by
    rw [State.logTakes] at takes ⊢
    simpa [store] using takes
  have r_opened : r.stamped.log.openPage = some { page with records := page.records ++ [rec] } := by
    have same : r.stamped.log = r.log := by simp
    rw [same, log]
    exact openPage_take opened (by show _ < 16; omega)
  have closing : offerClose true r = r.stamped.onLog fun w => { w with
      pages := w.pages.map (BufPage.take (closeRecord r.stamped r.stamp true)) } := by
    rw [offerClose, offerOther_of_open r_takes r_opened]
  have record : closeRecord r.stamped r.stamp true =
      logRecord 0 (logFlags none false false false false true) r.stamp s.seqCounter.toNat s.logSession 3 := by
    rw [closeRecord, State.logSession, State.logSession]
    simp [seqCounter, script]
  refine ⟨_, rfl, ?_, rfl, ?_, floorAt, r.stamp, ?_⟩
  · rw [closing]
    simpa [beginFlush] using store
  · intro q held
    obtain ⟨x, -, rfl⟩ := List.mem_map.mp held
    split
    · exact (by decide : PageState.waiting ≠ .opened)
    next other => exact other
  · rw [floorRec, ← record, closing]
    obtain ⟨held, is_open⟩ := openPage_opened r_opened
    have full : ∀ x : BufPage, (if x.state = .opened then { x with state := .waiting } else x).page = x.page ∧
        (if x.state = .opened then { x with state := .waiting } else x).records = x.records := by
      intro x
      split <;> exact ⟨rfl, rfl⟩
    refine ⟨_, List.mem_map_of_mem (List.mem_map_of_mem held), ?_, ?_⟩
    · exact (full _).1.trans (BufPage.take_page _ _)
    · refine (full _).2.trans ?_
      have open_page : page.state = .opened := is_open
      simp [BufPage.take, open_page]

end

end Sys2Proof.Machine
end

section
/-! RESTART settled (R194). -/

namespace Sys2Proof.Machine

section
variable {s : State}

theorem addRunResult_of_rests (first last : Nat) (l : Lookup) (rests : s.trans.inFlight = none) :
    addRunResult first last l s = s := by
  rw [addRunResult, State.onTrans, rests, Option.map_none, ← rests]

theorem finishIfDone_of_rests (rests : s.trans.inFlight = none) : finishIfDone s = s := by
  unfold finishIfDone finishStroke
  rw [rests]
  split <;> rfl

theorem completeLookup_of_rests (l : Lookup) (rests : s.trans.inFlight = none) :
    completeLookup l true s = { s with
      time := (completeLookup l true s).time
      dict := (completeLookup l true s).dict
      host := (completeLookup l true s).host
      conds := (completeLookup l true s).conds } := by
  have counted : (countLookup (s.onDict (Dictionary.without l.client))).trans.inFlight = none := rests
  rw [completeLookup, deliver]
  split
  · rw [addRunResult_of_rests _ _ _ counted, finishIfDone_of_rests counted]
    rfl
  · rw [(completeIf_tells _ _ _ _ _).kept]
    rfl
  · rfl

/-- Lookups that end reach no stroke when none is in flight (R125). -/
theorem endLookups_of_rests (ls : List Lookup) (rests : s.trans.inFlight = none) :
    endLookups ls s = { s with
      time := (endLookups ls s).time
      dict := (endLookups ls s).dict
      host := (endLookups ls s).host
      conds := (endLookups ls s).conds } := by
  induction ls generalizing s with
  | nil => rfl
  | cons l ls ih =>
    rw [endLookups]
    generalize ended : completeLookup _ true s = u
    have step : u = { s with time := u.time, dict := u.dict, host := u.host, conds := u.conds } := by
      rw [← ended]
      exact completeLookup_of_rests _ rests
    generalize left : endLookups ls u = v
    have steps : v = { u with time := v.time, dict := v.dict, host := v.host, conds := v.conds } := by
      rw [← left]
      exact ih (by rw [step]; exact rests)
    rw [steps, step]

/-- The store controller and the dictionaries after the taking of RESTART (R72, R101). -/
theorem restartStore_of_rests (rests : s.trans.inFlight = none) :
    restartStore s = { s with
      time := (restartStore s).time
      dict := (restartStore s).dict
      host := (restartStore s).host
      conds := (restartStore s).conds
      store := (dropReads (fun c => (s.dict.lookups.filter fun _ => true).any fun l => decide (l.client = c))
        s.store).restart } := by
  have ends := endLookups_of_rests (s := s.onStore (dropReads fun c =>
    (s.dict.lookups.filter fun _ => true).any fun l => decide (l.client = c))) (s.dict.lookups.filter fun _ => true) rests
  unfold restartStore endLookupsOf
  dsimp only
  rw [ends]
  rfl

theorem restartStore_lookups (s : State) : (restartStore s).dict.lookups = [] := by
  refine List.eq_nil_iff_forall_not_mem.mpr fun l held => ?_
  exact absurd (endLookupsOf_lookups (p := fun _ => true) (s := s) held) (by decide)

theorem mem_programFirst {pages : List BufPage} {q : BufPage} (held : q ∈ programFirst pages) :
    q ∈ pages ∨ q.state = .programming := by
  cases pages with
  | nil => exact .inl held
  | cons p pages =>
    rcases List.mem_cons.mp held with rfl | later
    · exact .inr rfl
    · exact .inl (.tail _ later)

theorem abandonErase_not_erasing (r : Region) : r.abandonErase.state ≠ .erasing := by
  unfold Region.abandonErase
  split
  · decide
  next other => exact other

end

/-- With the OPEN page closed the RESTART waits for it: nothing of the session is left. -/
theorem restart_waits {s : State} {page : BufPage} (winds : s.host.phase = .windingDown)
    (opened : s.script.session = .opened) (ready : s.store.state = .ready) (is_open : s.log.openPage = some page)
    (room : page.records.length ≤ 14) (formers : ∀ p, (s.formers.get p).openStroke = none) :
    let t := finishStep (restartStore (restartScript s))
    t.host.phase = .windingDown ∧ t.script.session = .closing ∧ t.script.lock = none ∧ t.script.search = none ∧
      t.trans.inFlight = none ∧ t.trans.hold = [] ∧ t.trans.notes = [] ∧ (∀ u ∈ t.script.units, u.state = .firm) ∧
      t.floor.state = .vacant ∧
      (∀ p, (t.posRec p).queue = [] ∧ (t.posRec p).pending = none ∧ (t.formers.get p).openStroke = none) ∧
      t.log.flush = .restart ∧ (∀ q ∈ t.log.pages, q.state ≠ .opened) ∧
      (∃ q ∈ t.log.pages, ∃ floorAt closeAt, q.page = page.page ∧ q.records = page.records ++
        [logRecord 9 (logFlags none false false false false false) floorAt s.seqCounter.toNat
            (s.script.sessionNumber.getD 0) 4,
          logRecord 0 (logFlags none false false false false true) closeAt s.seqCounter.toNat
            (s.script.sessionNumber.getD 0) 3]) ∧
      t.store.job = none ∧ t.store.dictWork = [] ∧ t.store.waiting = [] ∧ t.store.logRead = none ∧
      t.store.log.state ≠ .erasing ∧ (∀ d, (t.store.region d).state ≠ .erasing) ∧ t.dict.lookups = [] := by
  intro t
  obtain ⟨d, firmed, closes⟩ := restartScript_of_opened (by simp [State.windingDown, winds]) opened
  obtain ⟨f, is_f, store, flush, none_open, floorAt, closeAt, has⟩ := restart_closes_log (s := d) (page := page)
    (by rw [State.logTakes, firmed.store, ready]; rfl) (by rw [firmed.log]; exact is_open) room
  have f_script : f.script = d.script := by rw [← is_f]; simp
  have f_trans : f.trans = d.trans := by rw [← is_f]; simp
  have f_formers : f.formers = d.formers := by rw [← is_f]; simp
  have f_phase : f.host.phase = .windingDown := by rw [← is_f]; simpa using firmed.phase.trans winds
  have f_floor : f.floor = d.vacated.floor := by rw [← is_f, ← releaseFloor_floor]; simp
  generalize restarted : restartStore f = u
  have kept := restartStore_of_rests (s := f) (by rw [f_trans]; exact firmed.inFlight)
  have u_phase : u.host.phase = .windingDown := by rw [← restarted]; simpa [restartStore] using f_phase
  have u_lookups : u.dict.lookups = [] := by rw [← restarted, restartStore_lookups]
  rw [restarted] at kept
  have u_winds : u.windingDown = true := by simp [State.windingDown, u_phase]
  have u_ready : u.store.state = .ready := by
    rw [kept]
    exact (congrArg Store.state (store.trans firmed.store)).trans ready
  have waits : u.log.pages ≠ [] := by
    obtain ⟨q, held, -⟩ := has
    rw [kept]
    exact List.ne_nil_of_mem held
  have taken : u.takeUp = storePump u := by rw [State.takeUp, drainBegin_of_windingDown u_winds]
  have u_waiting : u.store.waiting = [] := by rw [kept]; rfl
  have u_dictWork : u.store.dictWork = [] := by rw [kept]; rfl
  obtain ⟨waiting, dictWork, pages⟩ := storePump_takesOnlyPages u_waiting u_dictWork
  have u_pages : u.log = f.log := by rw [kept]
  have is_t : t = u.settled := by
    show finishStep (restartStore (restartScript s)) = _
    rw [closes, is_f, restarted]
    exact finishStep_of_owesNoReport (.inr ⟨waits, by rw [u_ready]; decide⟩) (.inl (by rw [u_phase]; decide))
  have t_store : t.store = (storePump u).store := by rw [is_t, settled_store, taken]
  have only := (storePump_taken u).eq
  rw [← t_store] at only waiting dictWork
  have t_script : t.script = d.script := by rw [is_t, settled_script, kept, f_script]
  have t_trans : t.trans = d.trans := by rw [is_t, settled_trans, kept, f_trans]
  have t_floor : t.floor = d.vacated.floor := by rw [is_t, settled_floor, kept, f_floor]
  have t_formers : t.formers = s.formers := by rw [is_t, settled_kept, kept, f_formers, firmed.formers]
  have t_pages : t.log.pages = f.log.pages ∨ t.log.pages = programFirst f.log.pages := by
    rw [is_t, settled_log, taken, ← u_pages]
    exact pages
  have number : s.script.sessionNumber.getD 0 = d.logSession := by rw [State.logSession, firmed.number]
  refine ⟨?_, ?_, ?_, ?_, ?_, ?_, ?_, ?_, ?_, ?_, ?_, ?_, ?_, ?_, ?_, ?_, ?_, ?_, ?_, ?_⟩
  · rw [is_t, State.settled, chooseFrame_host_phase, takeUp_host, u_phase]
  · rw [t_script, firmed.session]
  · rw [t_script, firmed.lock]
  · rw [t_script, firmed.search]
  · rw [t_trans, firmed.inFlight]
  · rw [t_trans, firmed.hold]
  · rw [t_trans, firmed.notes]
  · rw [t_script]
    exact firmed.units
  · rw [t_floor]
    rfl
  · intro p
    obtain ⟨queue, pending, -⟩ := vacated_pos d p
    rw [State.posRec, t_floor, t_formers]
    exact ⟨queue, pending, formers p⟩
  · rw [is_t, settled_log, takeUp_log_flush, u_pages, flush]
  · intro q held
    rcases t_pages with same | first
    · exact none_open q (by rw [← same]; exact held)
    · rw [first] at held
      rcases mem_programFirst held with waits_yet | programs
      · exact none_open q waits_yet
      · rw [programs]
        decide
  · rw [number, ← firmed.seqCounter, is_t]
    obtain ⟨q, held, is⟩ := hasPage_settled (s := u) (by rw [State.hasPage, u_pages]; exact has)
    exact ⟨q, held, floorAt, closeAt, is⟩
  · rw [only, kept]
    rfl
  · rw [dictWork, u_dictWork]
  · rw [waiting, u_waiting]
  · rw [only, kept]
    rfl
  · rw [only, kept]
    exact abandonErase_not_erasing _
  · intro d
    rw [only, kept]
    cases d <;> exact abandonErase_not_erasing _
  · rw [is_t, settled_dict, taken]
    simpa using u_lookups

/-- Settles O59: the request, RESTART at once, RESTART with a session OPEN, and the end of the last operation. -/
theorem restartEndsInPowerOn : Obligations.RestartEndsInPowerOn := by
  refine ⟨fun tag s accepts calm => restart_finishes accepts calm, ?_, ?_⟩
  · intro r s sending after phase flush
    refine ⟨?_, ?_⟩
    · intro closed pages no_lookup replies ended
      rw [exec_restartSent sending after, restart_at_once closed pages no_lookup replies ended]
      rfl
    · intro page opened ready is_open room
      have ends := restart_waits (s := abandonOpen (s.onHost HostLink.windsDown)) rfl opened ready is_open room
        (fun p => by cases p <;> rfl)
      exact ⟨_, exec_restartSent sending after, ends⟩
  · intro op w ran left c s replies runs waiting dictWork job first is_c off
    have exec_is : ∀ known : w ≠ .abandoned, exec c s = .next (finishStep (workEffect w (s.withoutOp op))) := by
      intro known
      rw [is_c]
      exact exec_endOf runs known first
    refine ⟨?_, ?_⟩
    · intro page winds flush is_page pages
      obtain ⟨v, is_v, flash, pending, v_pages, v_flush, v_phase, v_replies, v_store⟩ :=
        logDone_ends (s := s.withoutOp op) (page := page) pages
      rw [exec_is (by rw [is_page]; decide), is_page, is_v]
      refine ⟨fun suspended => ?_, fun r ready suspended reading => ⟨_, rfl, ?_⟩⟩
      · have idles : v.idles := by
          refine ⟨?_, ?_, ?_, v_pages, .inl ⟨?_, ?_⟩⟩ <;> rw [v_store]
          exacts [waiting, dictWork, job, rfl, suspended]
        rw [finishStep_of_ended idles (v_replies.trans replies) (.inl ⟨v_phase.trans winds, v_flush.trans flush⟩)]
        have nothing_left : v.store.unfinished = [] := by
          rw [v_store, Store.unfinished]
          simp [State.withoutOp, suspended]
        rw [State.powerOn, nothing_left, List.append_nil, flash, pending]
        rfl
      · refine finishStep_resumes (v_phase.trans winds) (v_flush.trans flush) ?_ ?_ ?_ ?_ ?_ ?_ ?_ v_pages <;>
          rw [v_store]
        exacts [ready, reading, rfl, suspended, first, waiting, dictWork]
    · intro drains flush is_job pages suspended
      rw [exec_is (by rw [is_job]; decide), is_job, jobDone_of_none (s := s.withoutOp op) job]
      have idles : (s.withoutOp op).idles := ⟨waiting, dictWork, job, pages, .inl ⟨rfl, suspended⟩⟩
      have nothing_left : (s.withoutOp op).store.unfinished = [] := by
        rw [Store.unfinished]
        simp [State.withoutOp, suspended]
      rw [finishStep_of_ended idles replies (.inr ⟨drains, flush⟩), State.powerOn, nothing_left, List.append_nil]
      rfl

end Sys2Proof.Machine
end

section
/-! What the take of a stroke and its finish leave of the translator and the floor (R103 to R105, R115, R120). -/

namespace Sys2Proof.Machine

/-! ### The finish leaves the counts of the take -/

/-- The translator but for what commits, retractions and inserted notes change. -/
def Translator.asBefore (t u : Translator) : Prop :=
  t = { u with
    unitsCommitted := t.unitsCommitted
    numbers := t.numbers
    untranslatesMade := t.untranslatesMade
    untranslates := t.untranslates
    untranslatesDropped := t.untranslatesDropped
    retractions := t.retractions }

theorem Translator.asBefore.eq {t u : Translator} (before : t.asBefore u) : t = { u with
    unitsCommitted := t.unitsCommitted
    numbers := t.numbers
    untranslatesMade := t.untranslatesMade
    untranslates := t.untranslates
    untranslatesDropped := t.untranslatesDropped
    retractions := t.retractions } := before

theorem Translator.asBefore.refl (t : Translator) : t.asBefore t := rfl

theorem Translator.asBefore.trans {t u v : Translator} (second : v.asBefore u) (first : u.asBefore t) : v.asBefore t := by
  unfold Translator.asBefore at *
  rw [second, first]

theorem committed_asBefore (n : Nat) (kind : UnitKind) (outline : List Nat) (t : Translator) :
    (Translator.committed n kind outline t).asBefore t := by
  rw [Translator.asBefore, committed_trans]

theorem commitUnit_asBefore (u : TUnit) (s : State) : (commitUnit u s).trans.asBefore s.trans := by
  have step : (commitUnit u s).trans = Translator.committed u.number u.kind u.outline s.trans := by simp [commitUnit]
  rw [step]
  exact committed_asBefore _ _ _ _

theorem createUnit_asBefore (u : TUnit) (s : State) : (createUnit u s).trans.asBefore s.trans := by
  rw [Translator.asBefore, createUnit_trans]

theorem createFormed_asBefore (n : NewUnit) (s : State) : (createFormed n s).trans.asBefore s.trans := by
  unfold createFormed
  dsimp only
  split
  · exact (committed_asBefore _ _ _ _).trans (createUnit_asBefore _ _)
  · exact createUnit_asBefore _ _

theorem promoteKept_asBefore (os : List TUnit) (ns : List NewUnit) (s : State) :
    (promoteKept os ns s).trans.asBefore s.trans := by
  induction os generalizing ns s with
  | nil => cases ns <;> exact .refl _
  | cons o os ih =>
    cases ns with
    | nil => exact .refl _
    | cons n ns =>
      rw [promoteKept]
      refine (ih ns _).trans ?_
      split
      · exact commitUnit_asBefore _ _
      · exact .refl _

theorem retractFrom_trans (n : Nat) (s : State) : (retractFrom n s).trans = s.trans := by simp

/-- The state at which the units to be kept stand alone (R115 step 1). -/
def retractRest (rest : List TUnit) (s : State) : State :=
  match rest with
  | [] => s
  | u :: _ => (retractFrom u.number s).onTrans fun t => { t with retractions := t.retractions + 1 }

theorem reconcile_eq (new : List NewUnit) (s : State) :
    let old := s.script.provisionals
    let k := keptCount old new
    reconcile new s = (new.drop k).foldl (fun s n => createFormed n s)
      (promoteKept (old.take k) (new.take k) (retractRest (old.drop k) s)) := rfl

theorem retractRest_asBefore (rest : List TUnit) (s : State) : (retractRest rest s).trans.asBefore s.trans := by
  unfold retractRest
  split
  · exact .refl _
  · rw [onTrans_trans, retractFrom_trans]
    exact rfl

theorem foldl_createFormed_asBefore (new : List NewUnit) (s : State) :
    (new.foldl (fun s n => createFormed n s) s).trans.asBefore s.trans := by
  induction new generalizing s with
  | nil => exact .refl _
  | cons n new ih => exact (ih _).trans (createFormed_asBefore n s)

theorem reconcile_asBefore (new : List NewUnit) (s : State) : (reconcile new s).trans.asBefore s.trans := by
  rw [reconcile_eq]
  exact (foldl_createFormed_asBefore _ _).trans ((promoteKept_asBefore _ _ _).trans (retractRest_asBefore _ _))

/-! ### The front of the LIVE queue -/

/-- What a position has queued. -/
def State.queued (s : State) (p : Pos) : List StrokeRec × Option StrokeRec :=
  ((s.posRec p).queue, (s.posRec p).pending)

theorem queued_congr {s t : State} (floor : t.floor = s.floor) (p : Pos) : t.queued p = s.queued p := by
  rw [State.queued, State.queued, State.posRec, State.posRec, floor]

theorem cleanPass_queued (off on p : Pos) (s : State) : (cleanPass off on s).queued p = s.queued p := by
  rw [State.queued, State.posRec, cleanPass_floor]
  cases off <;> cases on <;> cases p <;> rfl

theorem cleanTest_queued (p : Pos) (s : State) : (cleanTest s).queued p = s.queued p := by
  unfold cleanTest
  (repeat' split)
  · exact cleanPass_queued _ _ p s
  all_goals rfl

theorem reportFinish_queued {s : State} (opened : s.script.session = .opened) (p : Pos) :
    (reportFinish s).queued p = s.queued p := by
  have floor := afterRest_floor_of_opened (s := cleanTest s) (by simpa using opened)
  exact (queued_congr floor p).trans (cleanTest_queued p s)

theorem reportFinish_trans (s : State) : (reportFinish s).trans = { s.trans with
    notes := (reportFinish s).trans.notes
    notesInserted := (reportFinish s).trans.notesInserted
    untranslates := (reportFinish s).trans.untranslates } := by
  have rest : (reportFinish s).trans = (insertNotes (cleanTest s)).trans := by simp [reportFinish, afterRest]
  rw [rest, insertNotes_trans]
  simp

theorem reportFinish_of_quiet {s : State} (opened : s.script.session = .opened) (none_queued : s.trans.notes = []) :
    reportFinish s = cleanTest s := by
  rw [reportFinish, afterRest, insertNotes_of_none (by simpa using none_queued),
    reportResolved_of_opened (by simpa using opened)]

/-! ### The lookups of the runs -/

/-- The runs' lookups are asked: some wait for a read, the results of the others join the stroke in flight. -/
structure Asks (s t : State) : Prop where
  kept : t = { s with
    store := { s.store with waiting := t.store.waiting }
    dict := { s.dict with lookups := t.dict.lookups, lookupsDone := t.dict.lookupsDone }
    trans := { s.trans with lookupsAsked := t.trans.lookupsAsked, inFlight := t.trans.inFlight } }
  lookups : s.dict.lookups ⊆ t.dict.lookups
  flight : ∀ x work results, s.trans.inFlight = some ⟨x, work, results⟩ →
    ∃ more, t.trans.inFlight = some ⟨x, work, results ++ more⟩

theorem Asks.refl (s : State) : Asks s s := ⟨rfl, fun _ => id, fun _ _ _ flies => ⟨[], by rw [flies, List.append_nil]⟩⟩

theorem Asks.trans {s t u : State} (first : Asks s t) (second : Asks t u) : Asks s u where
  kept := by rw [second.kept, first.kept]
  lookups := fun _ held => second.lookups (first.lookups held)
  flight := by
    intro x work results flies
    obtain ⟨more, there⟩ := first.flight x work results flies
    obtain ⟨most, later⟩ := second.flight x work _ there
    exact ⟨more ++ most, by rw [later, List.append_assoc]⟩

theorem addRunResult_asks (first last : Nat) (l : Lookup) (s : State) : Asks s (addRunResult first last l s) :=
  ⟨rfl, fun _ => id, fun x work results flies => ⟨_, by rw [addRunResult, onTrans_trans, flies]; rfl⟩⟩

theorem beginRun_asks (first last : Nat) (d : Dict) (o : List Nat) (s : State) : Asks s (beginRun first last d o s) := by
  have asked : Asks s (s.onTrans fun t => { t with lookupsAsked := t.lookupsAsked + 1 }) :=
    ⟨rfl, fun _ => id, fun x work results flies => ⟨[], by rw [onTrans_trans, List.append_nil]; exact flies⟩⟩
  have counted : ∀ u, Asks u (countLookup u) := fun u =>
    ⟨rfl, fun _ => id, fun x work results flies => ⟨[], by rw [List.append_nil]; exact flies⟩⟩
  have walks : ∀ l u, Asks u (startWalk l u) := fun l u =>
    ⟨rfl, fun _ held => List.mem_append_left _ held, fun x work results flies => ⟨[], by rw [List.append_nil]; exact flies⟩⟩
  unfold beginRun
  dsimp only
  split
  · exact asked.trans (addRunResult_asks _ _ _ _)
  split
  · exact asked.trans (walks _ _)
  · exact asked.trans ((counted _).trans (addRunResult_asks _ _ _ _))

theorem beginRunLookups_asks (work : List StrokeRec) (p : Pos) (s : State) (r : Nat × Nat) :
    Asks s (beginRunLookups work p s r) :=
  (beginRun_asks _ _ _ _ s).trans (beginRun_asks _ _ _ _ _)

theorem foldl_asks (work : List StrokeRec) (p : Pos) (runs : List (Nat × Nat)) (s : State) :
    Asks s (runs.foldl (beginRunLookups work p) s) := by
  induction runs generalizing s with
  | nil => exact .refl s
  | cons r runs ih => exact (beginRunLookups_asks work p s r).trans (ih _)

theorem beginLookups_asks (work : List StrokeRec) (p : Pos) (s : State) : Asks s (beginLookups work p s) :=
  foldl_asks _ _ _ _

/-- A stroke of the work list whose own bucket in J has a record waits for a read. -/
theorem beginLookups_waits {work : List StrokeRec} {p : Pos} {s : State} {y : StrokeRec} (within : y ∈ work)
    (ready : (s.store.region .j).state = .ready) (has : s.dict.j.headOf (bucketOf [y.keys.toNat]) ≠ none) :
    (beginLookups work p s).dict.lookups.any Lookup.isRun = true := by
  obtain ⟨i, short, is_y⟩ := List.getElem_of_mem within
  have run : (i, i) ∈ runsOf work.length := by
    simp [runsOf, short]
  obtain ⟨before, after, split_runs⟩ := List.append_of_mem run
  have outline : runOutline work i (i + 1 - i) = [y.keys.toNat] := by
    have one : i + 1 - i = 1 := by omega
    rw [runOutline, one, List.drop_eq_getElem_cons short, is_y]
    rfl
  obtain ⟨v, is_v⟩ : ∃ v, v = before.foldl (beginRunLookups work p) s := ⟨_, rfl⟩
  have kept : Asks s v := by rw [is_v]; exact foldl_asks _ _ _ _
  have walks : ∃ l ∈ (beginRun i i .j [y.keys.toNat] v).dict.lookups, l.isRun = true := by
    obtain ⟨a, head⟩ := Option.ne_none_iff_exists'.mp has
    have v_ready : v.dictReady .j = true := by
      rw [kept.kept]
      exact decide_eq_true ready
    have v_head : (v.dict.get .j).headOf (bucketOf [y.keys.toNat]) = some a := by
      rw [kept.kept]
      exact head
    refine ⟨(scanLookup v.dict (.run i i .j) .j [y.keys.toNat]).1, ?_, rfl⟩
    unfold beginRun
    dsimp only
    have asked : (v.onTrans fun t => { t with lookupsAsked := t.lookupsAsked + 1 }).dictReady .j = true := v_ready
    rw [if_neg (by rw [asked]; decide)]
    have scan : scanLookup v.dict (.run i i .j) .j [y.keys.toNat] =
        ((scanLookup v.dict (.run i i .j) .j [y.keys.toNat]).1, some a) := Prod.ext rfl v_head
    rw [onTrans_dict, scan]
    exact List.mem_append_right _ (List.mem_singleton_self _)
  obtain ⟨l, held, is_run⟩ := walks
  refine List.any_eq_true.mpr ⟨l, ?_, is_run⟩
  rw [beginLookups, split_runs, List.foldl_append, List.foldl_cons, ← is_v]
  refine (foldl_asks _ _ _ _).lookups ?_
  rw [beginRunLookups]
  dsimp only
  rw [outline]
  exact (beginRun_asks _ _ _ _ _).lookups held

end Sys2Proof.Machine
end

section
/-! STROKE_TAKE (R26, R103, R119, R120). -/

namespace Sys2Proof.Machine

/-! ### The finish of a stroke -/

section
variable {s : State}

theorem finishStroke_of_inFlight {fl : InFlight} (flies : s.trans.inFlight = some fl) :
    finishStroke s = reportFinish (finishPending
      ((reconcile (newUnits s fl) s).onTrans (Translator.finished (newUnits s fl) fl))) := by
  rw [finishStroke, flies]

theorem finishPending_strokesTaken (s : State) : (finishPending s).trans.strokesTaken = s.trans.strokesTaken := by
  unfold finishPending
  dsimp only [onTrans_trans]
  split
  · rw [onTrans_trans, resolveHold_trans]
  · rfl

theorem finishStroke_strokesTaken (s : State) : (finishStroke s).trans.strokesTaken = s.trans.strokesTaken := by
  cases flies : s.trans.inFlight with
  | none => rw [finishStroke, flies]
  | some fl =>
    rw [finishStroke_of_inFlight flies, reportFinish_trans]
    dsimp only
    rw [finishPending_strokesTaken, onTrans_trans, Translator.finished, reconcile_asBefore]

theorem finishStroke_queued (opened : s.script.session = .opened) (p : Pos) :
    (finishStroke s).queued p = s.queued p := by
  cases flies : s.trans.inFlight with
  | none => rw [finishStroke, flies]
  | some fl =>
    rw [finishStroke_of_inFlight flies, reportFinish_queued (by simpa using opened)]
    exact queued_congr (by simp) p

/-! ### The take -/

variable {x : StrokeRec}

/-- The stroke in flight, with its lookups asked (R104). -/
def State.asked (s : State) (x : StrokeRec) : State :=
  beginLookups (workList s.trans.hold x) x.pos (s.onTrans (Translator.take x))

theorem takeStroke_of_lookups (looks : ¬ (x.keys = undoValue ∧ s.trans.hold = [])) :
    takeStroke x s = finishIfDone (s.asked x) := by
  unfold takeStroke
  dsimp only
  rw [if_neg (by simpa using looks)]
  rfl

theorem takeStroke_of_undo (undo : x.keys = undoValue) (empty : s.trans.hold = []) :
    takeStroke x s = reportFinish ((undoAtTake x (s.onTrans (Translator.take x))).onTrans Translator.undone) := by
  unfold takeStroke
  dsimp only
  rw [if_pos (by simp [undo, empty])]

theorem asked_asks (s : State) (x : StrokeRec) : Asks (s.onTrans (Translator.take x)) (s.asked x) :=
  beginLookups_asks _ _ _

theorem asked_trans (s : State) (x : StrokeRec) : ∃ results, (s.asked x).trans = { s.trans with
    inFlight := some { stroke := x, work := workList s.trans.hold x, results := results }
    timer := some 0
    strokesTaken := s.trans.strokesTaken + 1
    lookupsAsked := (s.asked x).trans.lookupsAsked } := by
  obtain ⟨results, flies⟩ := (asked_asks s x).flight x (workList s.trans.hold x) [] rfl
  refine ⟨results, ?_⟩
  rw [(asked_asks s x).kept, flies]
  rfl

theorem undoAtTake_strokesTaken (x : StrokeRec) (s : State) :
    (undoAtTake x s).trans.strokesTaken = s.trans.strokesTaken := by
  unfold undoAtTake undoNewest
  (repeat' split) <;> simp [dropUntranslate]

theorem takeStroke_strokesTaken (x : StrokeRec) (s : State) :
    (takeStroke x s).trans.strokesTaken = s.trans.strokesTaken + 1 := by
  by_cases undo : x.keys = undoValue ∧ s.trans.hold = []
  · rw [takeStroke_of_undo undo.1 undo.2, reportFinish_trans]
    dsimp only [onTrans_trans]
    exact undoAtTake_strokesTaken _ _
  · obtain ⟨results, trans⟩ := asked_trans s x
    rw [takeStroke_of_lookups undo, finishIfDone]
    split
    · rw [trans]
    · rw [finishStroke_strokesTaken, trans]

theorem takeStroke_queued (opened : s.script.session = .opened) (p : Pos) :
    (takeStroke x s).queued p = s.queued p := by
  by_cases undo : x.keys = undoValue ∧ s.trans.hold = []
  · rw [takeStroke_of_undo undo.1 undo.2, reportFinish_queued (by simpa using opened)]
    exact queued_congr (by simp) p
  · have asks : (s.asked x).queued p = s.queued p := queued_congr (by simp [State.asked]) p
    rw [takeStroke_of_lookups undo, finishIfDone]
    split
    · exact asks
    · rw [finishStroke_queued (by simpa [State.asked] using opened), asks]

theorem takeStroke_storeKept (x : StrokeRec) (s : State) : (takeStroke x s).host.phase = s.host.phase ∧
    (s.script.session ≠ .closing → (takeStroke x s).log.flush = s.log.flush) := by
  refine ⟨by simp, fun open_ => ?_⟩
  by_cases undo : x.keys = undoValue ∧ s.trans.hold = []
  · rw [takeStroke_of_undo undo.1 undo.2, (reportFinish_storeKept _).flush (by simpa using open_)]
    simp
  · have log : (s.asked x).log = s.log := by simp [State.asked]
    rw [takeStroke_of_lookups undo, (finishIfDone_storeKept _).flush (by simpa [State.asked] using open_), log]

/-! ### The command -/

/-- The state in which the front stroke of the LIVE queue is taken. -/
def State.fronted (s : State) (p : Pos) : State := (insertNotes s).onPos p PosRec.takeFront

theorem takeFront_queue (r : PosRec) : r.takeFront.queue = r.queue.drop 1 ++ r.pending.toList ∧
    r.takeFront.pending = none := by
  unfold PosRec.takeFront
  split
  next none => simp [none]
  next y some => simp [some, PosRec.enqueue]

theorem fronted_queued {rest : List StrokeRec} (queue : (s.posRec x.pos).queue = x :: rest) :
    (s.fronted x.pos).queued x.pos = (rest ++ (s.posRec x.pos).pending.toList, none) := by
  have floor : (insertNotes s).floor = s.floor := by simp
  have rec_is : (s.fronted x.pos).posRec x.pos = (s.posRec x.pos).takeFront := by
    rw [State.fronted, State.posRec, State.onPos, onFloor_floor, floor]
    exact Two.get_upd_same _ _ _
  obtain ⟨taken, pending⟩ := takeFront_queue (s.posRec x.pos)
  rw [State.queued, rec_is, taken, pending, queue]
  rfl

theorem fronted_trans (s : State) (p : Pos) : (s.fronted p).trans = { s.trans with
    notes := (s.fronted p).trans.notes
    notesInserted := (s.fronted p).trans.notesInserted
    untranslates := (s.fronted p).trans.untranslates } := insertNotes_trans s

/-- The front stroke is taken, and the step ends with what the store takes up. -/
theorem exec_strokeTake {rest : List StrokeRec} (calm : s.calm) (opened : s.script.session = .opened)
    (rests : s.trans.inFlight = none) (live : s.floor.live = some x.pos) (queue : (s.posRec x.pos).queue = x :: rest) :
    exec .strokeTake s = .next (takeStroke x (s.fronted x.pos)).settled := by
  have next : nextStroke s = some x := by
    unfold nextStroke
    rw [if_pos (by simp [State.sessionOpen, opened, rests]), live]
    dsimp only
    rw [queue]
    rfl
  have is : exec .strokeTake s = .next (finishStep (takeStroke x (s.fronted x.pos))) := by
    show execStrokeTake s = _
    rw [execStrokeTake, next]
    rfl
  have notes := insertNotes_storeKept s
  obtain ⟨phase, flush⟩ := takeStroke_storeKept x (s.fronted x.pos)
  have still : (s.fronted x.pos).script.session ≠ .closing := by
    show (insertNotes s).script.session ≠ .closing
    rw [notes.session, opened]
    decide
  have same_flush : (insertNotes s).log.flush = s.log.flush := notes.flush (by rw [opened]; decide)
  rw [is, finishStep_calm _ ⟨phase.trans (notes.phase.trans calm.1), (flush still).trans (same_flush.trans calm.2)⟩]

end

end Sys2Proof.Machine
end

section
/-! STROKE_TAKE settled (R26, R103, R107, R108, R119, R120). -/

namespace Sys2Proof.Machine

section
variable {s : State} {x : StrokeRec}

/-- While a lookup of a run waits for a read the stroke stays in flight. -/
theorem takeStroke_waits {y : StrokeRec} (looks : ¬ (x.keys = undoValue ∧ s.trans.hold = []))
    (within : y ∈ workList s.trans.hold x) (ready : (s.store.region .j).state = .ready)
    (has : s.dict.j.headOf (bucketOf [y.keys.toNat]) ≠ none) : takeStroke x s = s.asked x := by
  have waits : (s.asked x).dict.lookups.any Lookup.isRun = true :=
    beginLookups_waits (s := s.onTrans (Translator.take x)) within ready has
  rw [takeStroke_of_lookups looks, finishIfDone, if_pos waits]

theorem fronted_region (s : State) (p : Pos) (d : Dict) : (s.fronted p).store.region d = s.store.region d := by
  have kept : (insertNotes s).store.butAppend = s.store.butAppend := (insertNotes_storeKept s).store
  show (insertNotes s).store.region d = _
  cases d
  · exact congrArg (fun st => st.region .j) kept
  · exact congrArg (fun st => st.region .pa) kept
  · exact congrArg (fun st => st.region .pb) kept

theorem fronted_dict (s : State) (p : Pos) : (s.fronted p).dict = s.dict := by simp [State.fronted]

/-- With no note queued only the queue has moved. -/
theorem fronted_of_none (none_queued : s.trans.notes = []) (p : Pos) :
    s.fronted p = s.onPos p PosRec.takeFront := by rw [State.fronted, insertNotes_of_none none_queued]

theorem fronted_of_held (held : s.trans.hold ≠ []) (p : Pos) : s.fronted p = s.onPos p PosRec.takeFront := by
  rw [State.fronted, insertNotes, if_neg]
  simp [Translator.atRest, held]

/-! ### The undo stroke at an empty hold list -/

/-- The undo at an empty hold list, once it is known what it does. -/
theorem takeStroke_undoes {u : State} (undo : x.keys = undoValue) (empty : s.trans.hold = [])
    (does : undoAtTake x (s.onTrans (Translator.take x)) = u)
    (session : u.script.session = .opened) (notes : u.trans.notes = []) :
    (takeStroke x s).script = u.script ∧
      (takeStroke x s).trans = { u.trans with inFlight := none, timer := none } ∧
      u.host.notices <+: (takeStroke x s).host.notices := by
  have quiet : reportFinish (u.onTrans Translator.undone) = cleanTest (u.onTrans Translator.undone) :=
    reportFinish_of_quiet session notes
  rw [takeStroke_of_undo undo empty, does, quiet]
  exact ⟨by simp, by simp [Translator.undone], (cleanTest_gains (u.onTrans Translator.undone)).notices⟩

theorem undoBlock_of_empty (empty : s.script.units = []) (p : Pos) : undoBlock s.script p = some (.empty, none) := by
  rw [undoBlock, empty]
  rfl

section
variable {u : TUnit} {p : Pos} (last : s.script.units.getLast? = some u)
include last

theorem undoBlock_of_firm (firm : u.state = .firm) : undoBlock s.script p = some (.firm, some u.number) := by
  simp [undoBlock, last, firm]

theorem undoBlock_of_other (open_ : u.state ≠ .firm) (other : u.pos ≠ some p) :
    undoBlock s.script p = some (.otherPosition, some u.number) := by
  simp [undoBlock, last, open_, other]

theorem undoBlock_of_locked (open_ : u.state ≠ .firm) (own : u.pos = some p) (locked : s.script.inLock u.number = true) :
    undoBlock s.script p = some (.locked, some u.number) := by
  simp [undoBlock, last, open_, own, locked]

theorem undoBlock_of_free (open_ : u.state ≠ .firm) (own : u.pos = some p) (free : s.script.inLock u.number = false) :
    undoBlock s.script p = none := by
  simp [undoBlock, last, open_, own, free]

/-- The newest unit is retracted (R120). -/
theorem undoAtTake_retracts (free : undoBlock s.script x.pos = none) :
    (undoAtTake x s).script = { s.script with
      units := s.script.units.filter (fun y => decide (y.number < u.number))
      unitsRetracted := (undoAtTake x s).script.unitsRetracted } ∧
      (undoAtTake x s).trans = { s.trans with
        untranslates := s.trans.untranslates.filter (fun e => decide (e.1 ≠ u.number))
        base := u.snapshot
        after := u.snapshot
        undos := s.trans.undos + 1 } := by
  rw [undoAtTake, free]
  dsimp only
  rw [undoNewest, last]
  simp [dropUntranslate, retractFrom]

end

/-- The undo is blocked (R120): nothing but its count changes, and the host is told. -/
theorem undoAtTake_blocked {reason : UndoBlock} {number : Option Nat}
    (blocks : undoBlock s.script x.pos = some (reason, number)) :
    (undoAtTake x s).script = s.script ∧
      (undoAtTake x s).trans = { s.trans with undosBlocked := s.trans.undosBlocked + 1 } ∧
      (s.host.notices.length < 32 →
        .undoBlocked x.pos x.seq reason number x.timecode ∈ (undoAtTake x s).host.notices) := by
  rw [undoAtTake, blocks]
  dsimp only
  refine ⟨by simp, by simp, fun room => ?_⟩
  rw [offerNotice_of_room (by simpa using room)]
  simp

/-! ### A stroke that no dictionary is asked for -/

theorem beginRun_of_absent {d : Dict} (absent : (s.store.region d).state ≠ .ready) (first last : Nat) (o : List Nat) :
    beginRun first last d o s = addRunResult first last (noneLookup (.run first last d) d o)
      (s.onTrans fun t => { t with lookupsAsked := t.lookupsAsked + 1 }) := by
  unfold beginRun
  dsimp only
  rw [if_pos]
  simp [State.dictReady, absent]

/-- With no dictionary READY both lookups of the only run have their result at once. -/
theorem asked_of_none (keys : x.keys ≠ undoValue) (empty : s.trans.hold = []) (j : (s.store.region .j).state ≠ .ready)
    (own : (s.store.region (personal x.pos)).state ≠ .ready) :
    s.asked x = s.onTrans fun t => { t with
      inFlight := some
        { stroke := x, work := [x]
          results := [⟨0, 0, .j, none, false⟩, ⟨0, 0, personal x.pos, none, false⟩] }
      timer := some 0
      strokesTaken := t.strokesTaken + 1
      lookupsAsked := t.lookupsAsked + 1 + 1 } := by
  have work : workList s.trans.hold x = [x] := by rw [workList, if_neg keys, empty]; rfl
  rw [State.asked, work, beginLookups]
  have runs : runsOf ([x] : List StrokeRec).length = [(0, 0)] := rfl
  rw [runs, List.foldl_cons, List.foldl_nil, beginRunLookups]
  dsimp only
  rw [beginRun_of_absent (s := s.onTrans (Translator.take x)) j]
  refine (beginRun_of_absent (s := addRunResult _ _ _ _) ?_ 0 0 _).trans ?_
  · exact own
  simp only [addRunResult, State.onTrans, Translator.take, Option.map_some, work]
  rfl

/-- The stroke alone, a number or its keys as letters, formed from BASE (R107, R108, R116). -/
def loneUnit (base : Fmt) (x : StrokeRec) : NewUnit where
  unit :=
    { number := 0
      kind := if isNumberStroke x.keys then .number else .untranslate
      state := .committed
      pos := some x.pos
      firstSeq := some x.seq
      outline := [x.keys.toNat]
      text := if isNumberStroke x.keys then numberText x.keys else stenoText x.keys
      join := base.attachNext
      paragraphStart := base.paraPending
      cls := base.cls
      speaker := base.speaker
      timecode := x.timecode
      commitTime := none
      snapshot := base
      source := if isNumberStroke x.keys then .number else .none
      suspect := x.damaged || x.held
      unlogged := x.unlogged
      edited := false
      globaled := false }
  committed := true
  strokes := [x]
  after := base.consume

theorem newUnits_of_none (s : State) (x : StrokeRec) :
    newUnits s { stroke := x, work := [x]
                 results := [⟨0, 0, .j, none, false⟩, ⟨0, 0, personal x.pos, none, false⟩] } =
      [loneUnit s.trans.base x] := by
  have no_run : longestRun [⟨0, 0, .j, none, false⟩, ⟨0, 0, personal x.pos, none, false⟩] x.pos 0
      (min Config.outlineMax (([] : List StrokeRec).length + 1)) = none := by
    cases x.pos <;> rfl
  have closed : remainderOpen [⟨0, 0, .j, none, false⟩, ⟨0, 0, personal x.pos, none, false⟩] x.pos 1 0 = false := by
    cases x.pos <;> rfl
  have parsed : parseFrom [⟨0, 0, .j, none, false⟩, ⟨0, 0, personal x.pos, none, false⟩] x.pos 1 0 [x] =
      [{ start := 0, strokes := [x], entry := if isNumberStroke x.keys then .number else .untranslate }] := by
    simp only [parseFrom, parseOne, no_run]
  unfold newUnits
  dsimp only [List.length_singleton]
  rw [parsed, markUnits, closed]
  cases number : isNumberStroke x.keys <;>
    simp [markUnits, formAll, formUnit, formText, buildUnit, loneUnit, number, Fmt.attachAfter]

/-! ### The finish while no resolution is pending -/

theorem finishPending_of_idle (idle : s.trans.hold = [] ∨ s.trans.expiryPending = false ∧ s.trans.resolvePending = false) :
    finishPending s = s.onTrans fun t => { t with expiryPending := false, resolvePending := false } := by
  unfold finishPending
  dsimp only
  rw [if_neg]
  rcases idle with empty | ⟨expiry, resolve⟩
  · simp [empty]
  · simp [expiry, resolve]

/-- The transcript and the translator after the finish of a stroke (R105), with no resolution pending and no note queued. -/
theorem finishStroke_kept {fl : InFlight} {new : List NewUnit} (flies : s.trans.inFlight = some fl)
    (is_new : newUnits s fl = new) (opened : s.script.session = .opened) (notes : s.trans.notes = [])
    (idle : holdAfter new = [] ∨ s.trans.expiryPending = false ∧ s.trans.resolvePending = false) :
    (finishStroke s).script = (reconcile new s).script ∧
      (finishStroke s).trans = { Translator.finished new fl (reconcile new s).trans with
        expiryPending := false, resolvePending := false } := by
  have before := reconcile_asBefore new s
  generalize reconciled : reconcile new s = r at before
  have session : r.script.session = .opened := by
    rw [← reconciled]
    simpa using opened
  have no_note : r.trans.notes = [] := by rw [before]; exact notes
  have pending : (r.onTrans (Translator.finished new fl)).trans.hold = [] ∨
      (r.onTrans (Translator.finished new fl)).trans.expiryPending = false ∧
        (r.onTrans (Translator.finished new fl)).trans.resolvePending = false := by
    refine idle.imp id fun ⟨expiry, resolve⟩ => ?_
    rw [onTrans_trans, Translator.finished, before]
    exact ⟨expiry, resolve⟩
  rw [finishStroke_of_inFlight flies, is_new, reconciled, finishPending_of_idle pending,
    reportFinish_of_quiet (by exact session) (by exact no_note)]
  exact ⟨by simp, by simp⟩

theorem reconcile_of_none (none_held : s.script.provisionals = []) (new : List NewUnit) :
    reconcile new s = new.foldl (fun s n => createFormed n s) s := by
  have kept : keptCount [] new = 0 := by cases new <;> rfl
  rw [reconcile_eq]
  rw [none_held, kept]
  rfl

theorem reconcile_nil (s : State) : reconcile [] s = retractRest s.script.provisionals s := by
  have kept : keptCount s.script.provisionals [] = 0 := by cases s.script.provisionals <;> rfl
  rw [reconcile_eq]
  rw [kept]
  rfl

theorem createFormed_script (n : NewUnit) (s : State) : (createFormed n s).script = (createUnit n.unit s).script := by
  unfold createFormed
  dsimp only
  split <;> simp

theorem provisionals_eq_nil {t : Transcript} (resolved : ∀ u ∈ t.units, u.state ≠ .provisional) :
    t.provisionals = [] :=
  List.filter_eq_nil_iff.mpr fun u within => by simpa [TUnit.isProvisional] using resolved u within

theorem provisionals_of_split {t : Transcript} {front old : List TUnit} (units : t.units = front ++ old)
    (firm : ∀ u ∈ front, u.state ≠ .provisional) (held : ∀ u ∈ old, u.state = .provisional) : t.provisionals = old := by
  have none_first : front.filter TUnit.isProvisional = [] :=
    List.filter_eq_nil_iff.mpr fun u within => by simpa [TUnit.isProvisional] using firm u within
  have all_then : old.filter TUnit.isProvisional = old :=
    List.filter_eq_self.mpr fun u within => by simp [TUnit.isProvisional, held u within]
  rw [Transcript.provisionals, units, List.filter_append, none_first, all_then, List.nil_append]

/-- The units from the first to leave on are retracted (R115 step 1). -/
theorem retractRest_script {front old before rest : List TUnit} (units : s.script.units = front ++ old) (rises : s.rises)
    (parts : old = before ++ rest) :
    (retractRest rest s).script.units = front ++ before ∧
      (retractRest rest s).script.nextNumber = s.script.nextNumber := by
  cases rest with
  | nil =>
    rw [parts, List.append_nil] at units
    exact ⟨units, rfl⟩
  | cons u rest =>
    rw [State.rises, units, parts, ← List.append_assoc, List.pairwise_append] at rises
    obtain ⟨-, later, below⟩ := rises
    have stay : (front ++ before).filter (fun y => decide (y.number < u.number)) = front ++ before :=
      List.filter_eq_self.mpr fun y within => decide_eq_true (below y within u (.head _))
    have leave : (u :: rest).filter (fun y => decide (y.number < u.number)) = [] := by
      refine List.filter_eq_nil_iff.mpr fun y within => ?_
      rcases List.mem_cons.mp within with rfl | among
      · simp
      · simpa using (List.rel_of_pairwise_cons later among).le
    have script : (retractRest (u :: rest) s).script.units = s.script.units.filter (fun y => decide (y.number < u.number)) ∧
        (retractRest (u :: rest) s).script.nextNumber = s.script.nextNumber := by
      simp [retractRest, retractFrom]
    rw [script.1, script.2, units, parts, ← List.append_assoc, List.filter_append, stay, leave, List.append_nil]
    exact ⟨rfl, rfl⟩

theorem holdAfter_lone (base : Fmt) (x : StrokeRec) : holdAfter [loneUnit base x] = [] := rfl

theorem baseAfter_lone (base f : Fmt) (x : StrokeRec) : baseAfter f [loneUnit base x] = base.consume := rfl

/-- With no dictionary to ask the stroke is a unit at once. -/
theorem takeStroke_lone (keys : x.keys ≠ undoValue) (empty : s.trans.hold = []) (notes : s.trans.notes = [])
    (opened : s.script.session = .opened) (j : (s.store.region .j).state ≠ .ready)
    (own : (s.store.region (personal x.pos)).state ≠ .ready) (resolved : s.script.provisionals = [])
    (no_run : s.dict.lookups.any Lookup.isRun = false) :
    (takeStroke x s).script.nextNumber = s.script.nextNumber + 1 ∧
      (∃ st, (takeStroke x s).script.units.getLast? =
        some { s.numbered (loneUnit s.trans.base x).unit with state := st }) ∧
      (takeStroke x s).trans.hold = [] ∧ (takeStroke x s).trans.inFlight = none ∧
      (takeStroke x s).trans.timer = none ∧ (takeStroke x s).trans.base = s.trans.base.consume := by
  have asked := asked_of_none keys empty j own
  have done : takeStroke x s = finishStroke (s.asked x) := by
    rw [takeStroke_of_lookups (fun both => keys both.1), finishIfDone, if_neg]
    rw [asked, onTrans_dict, no_run]
    decide
  have new : newUnits (s.asked x) { stroke := x, work := [x]
                                    results := [⟨0, 0, .j, none, false⟩, ⟨0, 0, personal x.pos, none, false⟩] } =
      [loneUnit s.trans.base x] := by
    rw [newUnits_of_none, asked]
    rfl
  have flies : (s.asked x).trans.inFlight = some
      { stroke := x, work := [x]
        results := [⟨0, 0, .j, none, false⟩, ⟨0, 0, personal x.pos, none, false⟩] } := by rw [asked]; rfl
  obtain ⟨script, trans⟩ := finishStroke_kept flies new (by rw [asked]; exact opened) (by rw [asked]; exact notes)
    (.inl (holdAfter_lone _ _))
  have made : reconcile [loneUnit s.trans.base x] (s.asked x) = createFormed (loneUnit s.trans.base x) (s.asked x) :=
    reconcile_of_none (by rw [asked]; exact resolved) _
  have unit_script : (createFormed (loneUnit s.trans.base x) (s.asked x)).script =
      (createUnit (loneUnit s.trans.base x).unit (s.asked x)).script :=
    createFormed_script _ _
  obtain ⟨next, -, last⟩ := createUnit_script (loneUnit s.trans.base x).unit (s.asked x)
  have same : (s.asked x).script = s.script ∧ (s.asked x).time = s.time := by
    rw [asked]
    exact ⟨rfl, rfl⟩
  rw [State.numbered, same.1, same.2] at last
  rw [done, script, trans, made, unit_script]
  refine ⟨by rw [next, same.1], last, ?_⟩
  simp only [Translator.finished, holdAfter_lone, baseAfter_lone, List.isEmpty_nil, if_true, and_self]

/-- The only stroke held is undone: every PROVISIONAL unit leaves (R119). -/
theorem takeStroke_undoes_all {y : StrokeRec} (undo : x.keys = undoValue) (hold : s.trans.hold = [y])
    (notes : s.trans.notes = []) (opened : s.script.session = .opened)
    (no_run : s.dict.lookups.any Lookup.isRun = false) :
    (takeStroke x s).script = (retractRest s.script.provisionals s).script ∧
      (takeStroke x s).trans.hold = [] ∧ (takeStroke x s).trans.inFlight = none ∧
      (takeStroke x s).trans.timer = none ∧ (takeStroke x s).trans.base = s.trans.base ∧
      (takeStroke x s).trans.undosInHold = s.trans.undosInHold + 1 ∧ (takeStroke x s).trans.undos = s.trans.undos := by
  have work : workList s.trans.hold x = [] := by rw [workList, if_pos undo, hold]; rfl
  have asked : s.asked x = s.onTrans (Translator.take x) := by rw [State.asked, work]; rfl
  have done : takeStroke x s = finishStroke (s.asked x) := by
    rw [takeStroke_of_lookups (fun both => by rw [hold] at both; exact absurd both.2 (by simp)), finishIfDone, if_neg]
    rw [asked, onTrans_dict, no_run]
    decide
  have flies : (s.asked x).trans.inFlight = some { stroke := x, work := [], results := [] } := by
    rw [asked, onTrans_trans, Translator.take, work]
  obtain ⟨script, trans⟩ := finishStroke_kept (new := []) flies rfl (by rw [asked]; exact opened)
    (by rw [asked]; exact notes) (.inl rfl)
  rw [done, script, trans, reconcile_nil, asked]
  have before := retractRest_asBefore s.script.provisionals (s.onTrans (Translator.take x))
  have same : (retractRest s.script.provisionals (s.onTrans (Translator.take x))).script =
      (retractRest s.script.provisionals s).script := by
    cases s.script.provisionals with
    | nil => rfl
    | cons u us => simp [retractRest, retractFrom]
  refine ⟨same, rfl, rfl, rfl, ?_, ?_, ?_⟩
  · have base := congrArg Translator.base before.eq
    exact base
  · have undos := congrArg Translator.undosInHold before.eq
    refine (if_pos undo).trans ?_
    exact congrArg (· + 1) undos
  · have undos := congrArg Translator.undos before.eq
    exact undos

end

/-- Settles O41: the stroke in flight, the stroke that no dictionary is asked for, and the undo, each from the state in
which the front stroke is taken. -/
theorem strokeTakeTakesTheFrontStroke : Obligations.StrokeTakeTakesTheFrontStroke := by
  intro x rest s calm opened rests live queue
  have front := fronted_queued queue
  have trans := fronted_trans s x.pos
  have session : (s.fronted x.pos).script.session = .opened := by simpa [State.fronted] using opened
  have hold : (s.fronted x.pos).trans.hold = s.trans.hold := by rw [trans]
  have queued := (takeStroke_queued (x := x) session x.pos).trans front
  refine ⟨_, exec_strokeTake calm opened rests live queue, ?_, ?_, ?_, ?_, ?_, ?_, ?_⟩
  · have floor : (takeStroke x (s.fronted x.pos)).settled.queued x.pos = _ :=
      (queued_congr (settled_floor _) x.pos).trans queued
    exact congrArg Prod.fst floor
  · have floor : (takeStroke x (s.fronted x.pos)).settled.queued x.pos = _ :=
      (queued_congr (settled_floor _) x.pos).trans queued
    exact congrArg Prod.snd floor
  · rw [settled_trans, takeStroke_strokesTaken, trans]
  · intro keys ready has
    have waits := takeStroke_waits (s := s.fronted x.pos) (x := x) (y := x) (fun both => keys both.1)
      (by rw [workList, if_neg keys]; simp) (by rw [fronted_region]; exact ready) (by rw [fronted_dict]; exact has)
    obtain ⟨results, asked⟩ := asked_trans (s.fronted x.pos) x
    rw [settled_trans, waits, asked, hold, workList, if_neg keys]
    exact ⟨rfl, results, rfl⟩
  · intro keys empty notes j own resolved no_run
    have is := fronted_of_none notes x.pos
    obtain ⟨next, ⟨st, last⟩, left, flight, timer, base⟩ := takeStroke_lone (s := s.fronted x.pos) (x := x) keys
      (hold.trans empty) (by rw [is]; exact notes) session (by rw [fronted_region]; exact j)
      (by rw [fronted_region]; exact own) (by rw [is]; exact provisionals_eq_nil resolved)
      (by rw [fronted_dict]; exact List.any_eq_false.mpr fun l within => by rw [no_run l within]; decide)
    have same : (s.fronted x.pos).trans = s.trans := by rw [is]; rfl
    have script : (s.fronted x.pos).script = s.script := by rw [is]; rfl
    have time : (s.fronted x.pos).time = s.time := by rw [is]; rfl
    rw [settled_trans, settled_script]
    rw [State.numbered, script, time, same] at last
    refine ⟨left, flight, timer, by rw [base, same]; rfl, by rw [next, script], _, last, rfl⟩
  · intro undo empty notes
    have is := fronted_of_none notes x.pos
    have same : (s.fronted x.pos).trans = s.trans := by rw [is]; rfl
    have script : (s.fronted x.pos).script = s.script := by rw [is]; rfl
    have host : (s.fronted x.pos).host = s.host := by rw [is]; rfl
    generalize taken : (s.fronted x.pos).onTrans (Translator.take x) = v
    have v_script : v.script = s.script := by rw [← taken]; exact script
    have v_trans : v.trans = Translator.take x s.trans := by rw [← taken, onTrans_trans, same]
    have v_host : v.host = s.host := by rw [← taken]; exact host
    rw [settled_trans, settled_script]
    refine ⟨fun u last open_ own free => ?_, ?_⟩
    · obtain ⟨retracts, back⟩ := undoAtTake_retracts (s := v) (x := x) (u := u) (by rw [v_script]; exact last)
        (undoBlock_of_free (by rw [v_script]; exact last) open_ own (by rw [v_script]; exact free))
      obtain ⟨t_script, t_trans, -⟩ := takeStroke_undoes (s := s.fronted x.pos) undo (hold.trans empty) (by rw [taken])
        (by rw [retracts, v_script]; exact opened) (by rw [back, v_trans]; exact notes)
      rw [t_script, t_trans, retracts, back, v_script, v_trans]
      exact ⟨rfl, rfl, rfl, rfl, rfl⟩
    · intro blocked
      have blocks : ∀ reason number, undoBlock s.script x.pos = some (reason, number) → blocked reason number := by
        intro reason number is_blocked
        obtain ⟨same_script, counts, told⟩ := undoAtTake_blocked (s := v) (x := x) (by rw [v_script]; exact is_blocked)
        obtain ⟨t_script, t_trans, notices⟩ := takeStroke_undoes (s := s.fronted x.pos) undo (hold.trans empty)
          (by rw [taken]) (by rw [same_script, v_script]; exact opened) (by rw [counts, v_trans]; exact notes)
        show (takeStroke x (s.fronted x.pos)).script.units = _ ∧ _
        rw [t_script, t_trans, same_script, counts, v_script, v_trans]
        refine ⟨rfl, rfl, rfl, rfl, rfl, rfl, rfl, fun room => ?_⟩
        exact mem_settled_notices (notices.subset (told (by rw [v_host]; exact room)))
      refine ⟨fun none_held => blocks _ _ (undoBlock_of_empty none_held _), fun u last => ⟨?_, ?_, ?_⟩⟩
      · exact fun firm => blocks _ _ (undoBlock_of_firm last firm)
      · exact fun open_ other => blocks _ _ (undoBlock_of_other last open_ other)
      · exact fun open_ own locked => blocks _ _ (undoBlock_of_locked last open_ own locked)
  · intro undo holds
    have is := fronted_of_held holds x.pos
    rw [settled_trans, settled_script]
    refine ⟨?_, ?_⟩
    · rintro ready ⟨y, within, has⟩
      have waits := takeStroke_waits (s := s.fronted x.pos) (x := x) (y := y)
        (fun both => holds (hold.symm.trans both.2)) (by rw [workList, if_pos undo, hold]; exact within)
        (by rw [fronted_region]; exact ready) (by rw [fronted_dict]; exact has)
      obtain ⟨results, asked⟩ := asked_trans (s.fronted x.pos) x
      have script : ((s.fronted x.pos).asked x).script = s.script := by simp [State.asked, is]
      rw [waits, script, asked, hold, workList, if_pos undo]
      exact ⟨rfl, rfl, rfl, results, rfl⟩
    · intro y front old only notes no_run units firm held rises
      obtain ⟨script, left, flight, timer, base, undos, same⟩ := takeStroke_undoes_all (s := s.fronted x.pos) (x := x)
        undo (hold.trans only) (by rw [is]; exact notes) session
        (by rw [fronted_dict]; exact List.any_eq_false.mpr fun l within => by rw [no_run l within]; decide)
      have still : (s.fronted x.pos).script = s.script ∧ (s.fronted x.pos).trans = s.trans := by
        rw [is]
        exact ⟨rfl, rfl⟩
      have provisionals : (s.fronted x.pos).script.provisionals = old := by
        rw [still.1]
        exact provisionals_of_split units firm held
      obtain ⟨kept, next⟩ := retractRest_script (s := s.fronted x.pos) (by rw [still.1]; exact units)
        (by rw [State.rises, still.1]; exact rises) (rest := old) (before := []) rfl
      rw [script, provisionals, left, flight, timer, base, undos, same, kept, next, still.1, still.2]
      exact ⟨List.append_nil _, rfl, rfl, rfl, rfl, rfl, rfl, rfl⟩

end Sys2Proof.Machine
end

section
/-! The parse of a work list, the division of an entry and the forming of a unit (R104, R106 to R114). -/

namespace Sys2Proof.Machine

/-! ### The parse (R104, R106, R109) -/

section
variable (rs : List RunResult) (p : Pos)

theorem combinedText_eq (i j : Nat) : combinedText rs p i j =
    (((resultFor rs i j .j).bind RunResult.text).map (fun t => (t, Dict.j))).or
      (((resultFor rs i j (personal p)).bind RunResult.text).map (fun t => (t, personal p))) := by
  unfold combinedText
  split
  next t is => rw [is]; rfl
  next none => rw [none]; rfl

theorem longestRun_iff (i n len : Nat) (t : Bytes) (d : Dict) :
    longestRun rs p i n = some (len, t, d) ↔
      1 ≤ len ∧ len ≤ n ∧ combinedText rs p i (i + len - 1) = some (t, d) ∧
        ∀ m, len < m → m ≤ n → combinedText rs p i (i + m - 1) = none := by
  induction n with
  | zero =>
    refine ⟨fun none => absurd none (by simp [longestRun]), fun ⟨least, most, _⟩ => absurd least (by omega)⟩
  | succ n ih =>
    have last : i + (n + 1) - 1 = i + n := by omega
    rw [longestRun]
    cases whole : combinedText rs p i (i + n) with
    | some e =>
      obtain ⟨u, c⟩ := e
      simp only [Option.some.injEq, Prod.mk.injEq]
      constructor
      · rintro ⟨rfl, rfl, rfl⟩
        exact ⟨by omega, le_refl _, by rw [last, whole], fun m above below => absurd above (by omega)⟩
      · rintro ⟨least, most, text, none_longer⟩
        have is_whole : len = n + 1 := by
          by_contra shorter
          have := none_longer (n + 1) (by omega) (le_refl _)
          rw [last, whole] at this
          exact absurd this (by simp)
        rw [is_whole, last, whole] at text
        obtain ⟨rfl, rfl⟩ := Prod.mk.inj (Option.some.inj text)
        exact ⟨is_whole.symm, rfl, rfl⟩
    | none =>
      simp only
      rw [ih]
      constructor
      · rintro ⟨least, most, text, none_longer⟩
        refine ⟨least, by omega, text, fun m above below => ?_⟩
        rcases Nat.lt_or_ge n m with full | short
        · have is_whole : m = n + 1 := by omega
          rw [is_whole, last, whole]
        · exact none_longer m above short
      · rintro ⟨least, most, text, none_longer⟩
        have shorter : len ≠ n + 1 := by
          rintro rfl
          rw [last, whole] at text
          exact absurd text (by simp)
        exact ⟨least, by omega, text, fun m above below => none_longer m above (by omega)⟩

/-- The strokes of the unit that starts here are the first ones left. -/
theorem parseOne_strokes (i : Nat) (x : StrokeRec) (rest : List StrokeRec) :
    ∃ n, 1 ≤ n ∧ n ≤ rest.length + 1 ∧ (parseOne rs p i x rest).strokes = (x :: rest).take n := by
  unfold parseOne
  split
  next len t d run =>
    obtain ⟨least, most, -⟩ := (longestRun_iff rs p _ _ _ _ _).mp run
    exact ⟨len, least, most.trans (Nat.min_le_right _ _), rfl⟩
  · exact ⟨1, le_refl _, by omega, rfl⟩

/-- More fuel than strokes makes no difference. -/
theorem parseFrom_fuel (fuel i : Nat) (work : List StrokeRec) (enough : work.length ≤ fuel) :
    parseFrom rs p fuel i work = parseFrom rs p work.length i work := by
  induction fuel using Nat.strong_induction_on generalizing i work with
  | _ fuel ih =>
    cases work with
    | nil => cases fuel <;> rfl
    | cons x rest =>
      rw [List.length_cons] at enough
      obtain ⟨fuel, rfl⟩ : ∃ k, fuel = k + 1 := ⟨fuel - 1, by omega⟩
      obtain ⟨n, least, most, strokes⟩ := parseOne_strokes rs p i x rest
      have length : (parseOne rs p i x rest).strokes.length = n := by
        rw [strokes, List.length_take, List.length_cons]
        omega
      have left : ((x :: rest).drop (parseOne rs p i x rest).strokes.length).length ≤ rest.length := by
        rw [length, List.length_drop, List.length_cons]
        omega
      rw [List.length_cons, parseFrom, parseFrom]
      rw [ih fuel (by omega) _ _ (by omega)]
      rcases Nat.lt_or_ge rest.length (fuel + 1) with less | same
      · rw [← ih rest.length (by omega) _ _ left]
      · omega

/-- The parse of the strokes left (R106). -/
def parse (k : Nat) (work : List StrokeRec) : List ParseUnit := parseFrom rs p work.length k work

theorem parse_cons (i : Nat) (x : StrokeRec) (rest : List StrokeRec) :
    parse rs p i (x :: rest) = parseOne rs p i x rest :: parse rs p (i + (parseOne rs p i x rest).strokes.length)
      ((x :: rest).drop (parseOne rs p i x rest).strokes.length) := by
  obtain ⟨n, least, most, strokes⟩ := parseOne_strokes rs p i x rest
  rw [parse, List.length_cons, parseFrom]
  rw [parse, parseFrom_fuel]
  rw [strokes, List.length_drop, List.length_take, List.length_cons]
  omega

/-- Every stroke is used once. -/
theorem parse_strokes (i : Nat) (work : List StrokeRec) : (parse rs p i work).flatMap ParseUnit.strokes = work := by
  induction length : work.length using Nat.strong_induction_on generalizing i work with
  | _ k ih =>
    cases work with
    | nil => rfl
    | cons x rest =>
      obtain ⟨n, least, most, strokes⟩ := parseOne_strokes rs p i x rest
      have taken : (parseOne rs p i x rest).strokes.length = n := by
        rw [strokes, List.length_take, List.length_cons]
        omega
      rw [parse_cons, List.flatMap_cons, taken, ih _ (by rw [← length, List.length_drop, List.length_cons]; omega) _ _ rfl,
        strokes, List.take_append_drop]

theorem markUnits_getElem (k i : Nat) (us : List ParseUnit) :
    (markUnits rs p k us)[i]? = us[i]?.map (fun u =>
      (u, (us.take (i + 1)).all (fun v => !(combinedLonger rs p v.start (k - 1) && decide (k - v.start < 8))))) := by
  induction us generalizing i with
  | nil => rfl
  | cons u us ih =>
    have is_open : remainderOpen rs p k u.start = (combinedLonger rs p u.start (k - 1) && decide (k - u.start < 8)) := rfl
    rw [markUnits, List.take_succ_cons, List.all_cons, ← is_open]
    cases remainder : remainderOpen rs p k u.start with
    | true =>
      rw [if_pos rfl, List.getElem?_map]
      rfl
    | false =>
      rw [if_neg (by decide)]
      cases i with
      | zero => simp
      | succ i => rw [List.getElem?_cons_succ, ih]; rfl

end

end Sys2Proof.Machine
end

section
/-! The division of an entry into literal bytes and commands, and the forming of a unit (R110 to R114). -/

namespace Sys2Proof.Machine

/-! ### The division of an entry (R111) -/

theorem divideText_cons (fuel : Nat) (b : Byte) (rest : Bytes) : divideText (fuel + 1) (b :: rest) =
    if b ≠ escByte then .lit b :: divideText fuel rest
    else
      match rest with
      | [] => [.bad]
      | c :: rest =>
        match simpleCmd c with
        | some k => .cmd k :: divideText fuel rest
        | none =>
          if takesArg c then
            match rest with
            | [] => [.bad]
            | a :: rest => argCmd c a :: divideText fuel rest
          else .bad :: divideText fuel rest := by
  rw [divideText.eq_def]
  rfl

theorem divideText_fuel (fuel : Nat) (t : Bytes) (enough : t.length < fuel) : divideText fuel t = pieces t := by
  induction fuel using Nat.strong_induction_on generalizing t with
  | _ fuel ih =>
    have shorter : ∀ (k : Nat) (u : Bytes), u.length < t.length → k < fuel → u.length < k →
        divideText k u = divideText t.length u := by
      intro k u less below room
      rw [ih k below u room, ih t.length enough u less]
    obtain ⟨fuel, rfl⟩ : ∃ k, fuel = k + 1 := ⟨fuel - 1, by omega⟩
    cases t with
    | nil => rfl
    | cons b rest =>
      rw [List.length_cons] at enough shorter
      have tail : divideText fuel rest = divideText (rest.length + 1) rest := shorter _ _ (by omega) (by omega) (by omega)
      rw [pieces, List.length_cons, divideText_cons, divideText_cons, tail]
      cases rest with
      | nil => rfl
      | cons c rest =>
        rw [List.length_cons] at enough shorter
        have after : divideText fuel rest = divideText (rest.length + 1 + 1) rest :=
          shorter _ _ (by omega) (by omega) (by omega)
        dsimp only [List.length_cons]
        rw [after]
        cases rest with
        | nil => rfl
        | cons a rest =>
          rw [List.length_cons] at enough shorter
          have last : divideText fuel rest = divideText (rest.length + 1 + 1 + 1) rest :=
            shorter _ _ (by omega) (by omega) (by omega)
          dsimp only [List.length_cons]
          rw [last]

theorem pieces_lit {b : Byte} (plain : b ≠ escByte) (rest : Bytes) : pieces (b :: rest) = .lit b :: pieces rest := by
  rw [pieces, List.length_cons, divideText_cons, if_pos plain]
  rfl

/-- What an escape begins. -/
theorem pieces_esc (c : Byte) (rest : Bytes) : pieces (escByte :: c :: rest) =
    match simpleCmd c with
    | some k => .cmd k :: pieces rest
    | none =>
      if takesArg c then
        match rest with
        | [] => [.bad]
        | a :: more => argCmd c a :: pieces more
      else .bad :: pieces rest := by
  rw [pieces, divideText_cons, if_neg (by simp)]
  dsimp only
  rw [divideText_fuel _ rest (by simp)]
  cases rest with
  | nil => rfl
  | cons a more =>
    dsimp only
    rw [divideText_fuel _ more (by simp; omega)]

theorem pieces_escaped (c : Byte) (rest : Bytes) : pieces (0x1B#8 :: c :: rest) =
    match c.toNat with
    | 0x43 => .cmd .capNext :: pieces rest
    | 0x4C => .cmd .lowerNext :: pieces rest
    | 0x3C => .cmd .attachLeft :: pieces rest
    | 0x3E => .cmd .attachRight :: pieces rest
    | 0x50 => .cmd .paragraph :: pieces rest
    | 0x53 => (match rest with
      | [] => [.bad]
      | a :: more =>
        (if 1 ≤ a.toNat ∧ a.toNat ≤ 32 then .cmd (.speaker a.toNat) else .bad) :: pieces more)
    | 0x4B => (match rest with
      | [] => [.bad]
      | a :: more =>
        (match a.toNat with
          | 0 => .cmd (.cls .record)
          | 1 => .cmd (.cls .bench)
          | 2 => .cmd (.cls .sealed)
          | 3 => .cmd (.cls .offRecord)
          | _ => .bad) :: pieces more)
    | _ => .bad :: pieces rest := by
  split
  next is =>
    obtain rfl : c = 0x43#8 := BitVec.eq_of_toNat_eq is
    rw [pieces_esc]
    rfl
  next is =>
    obtain rfl : c = 0x4C#8 := BitVec.eq_of_toNat_eq is
    rw [pieces_esc]
    rfl
  next is =>
    obtain rfl : c = 0x3C#8 := BitVec.eq_of_toNat_eq is
    rw [pieces_esc]
    rfl
  next is =>
    obtain rfl : c = 0x3E#8 := BitVec.eq_of_toNat_eq is
    rw [pieces_esc]
    rfl
  next is =>
    obtain rfl : c = 0x50#8 := BitVec.eq_of_toNat_eq is
    rw [pieces_esc]
    rfl
  next is =>
    obtain rfl : c = 0x53#8 := BitVec.eq_of_toNat_eq is
    rw [pieces_esc]
    cases rest <;> rfl
  next is =>
    obtain rfl : c = 0x4B#8 := BitVec.eq_of_toNat_eq is
    rw [pieces_esc]
    cases rest with
    | nil => rfl
    | cons a more =>
      show argCmd 0x4B#8 a :: pieces more = _
      rw [argCmd, if_neg (by decide)]
      congr 1
      generalize a.toNat = n
      match n with
      | 0 | 1 | 2 | 3 | n + 4 => rfl
  next c1 c2 c3 c4 c5 c6 c7 =>
    have no_cmd : simpleCmd c = none := by
      unfold simpleCmd
      split <;> simp_all
    have no_arg : takesArg c = false := by
      refine decide_eq_false fun either => ?_
      rcases either with rfl | rfl
      · exact c6 rfl
      · exact c7 rfl
    rw [pieces_esc, no_cmd, no_arg]
    rfl

theorem pieces_of_plain {t : Bytes} (plain : escByte ∉ t) : pieces t = t.map Piece.lit := by
  induction t with
  | nil => rfl
  | cons b t ih =>
    rw [List.mem_cons, not_or] at plain
    rw [pieces_lit (fun same => plain.1 same.symm), ih plain.2, List.map_cons]

/-! ### The forming of a unit (R110 to R114) -/

section
variable (capPara : Bool) (labels : List Bytes) (w : Fmt)

/-- A command's leading effect, field by field. -/
theorem lead_eq (f : Fmt) (c : Cmd) : Fmt.lead capPara f c =
    match c with
    | .capNext => { f with capNext := true, lowerNext := false }
    | .lowerNext => { f with lowerNext := true, capNext := false }
    | .paragraph =>
      { f with paraPending := true, capNext := capPara || f.capNext, lowerNext := !capPara && f.lowerNext }
    | .speaker n => { f with speaker := n }
    | .cls c => { f with cls := c }
    | .attachLeft | .attachRight => f := by
  cases c
  case paragraph => cases capPara <;> rfl
  all_goals rfl

theorem attachAfter_eq (cs : List Cmd) (f : Fmt) :
    Fmt.attachAfter cs f = { f with attachNext := f.attachNext || decide (.attachRight ∈ cs) } := by
  unfold Fmt.attachAfter
  by_cases among : Cmd.attachRight ∈ cs
  · simp [among]
  · simp [among]

theorem leading_append_trailing (ps : List Piece) : leadingCmds ps ++ trailingCmds ps = commands ps := by
  rw [leadingCmds, trailingCmds, commands, commands, commands, ← List.filterMap_append, List.takeWhile_append_dropWhile]

theorem literals_lit (t : Bytes) : literals (t.map Piece.lit) = t := by
  simp [literals, List.filterMap_map]

theorem commands_lit (t : Bytes) : commands (t.map Piece.lit) = [] := by
  simp [commands, List.filterMap_map]

/-- An entry without an escape. -/
theorem formWord_plain {t : Bytes} (plain : escByte ∉ t) (src : Source) : formWord capPara labels t src w =
    if t = [] then
      { kind := .command, text := [], join := false, paragraphStart := false, cls := w.cls, speaker := w.speaker
        source := src, after := w }
    else
      { kind := .word
        text := if w.capNext = true then mapFirst upperByte t else if w.lowerNext = true then mapFirst lowerByte t else t
        join := w.attachNext, paragraphStart := w.paraPending, cls := w.cls, speaker := w.speaker, source := src
        after := { w with capNext := false, lowerNext := false, attachNext := false, paraPending := false } } := by
  have both := leading_append_trailing (t.map Piece.lit)
  rw [commands_lit, List.append_eq_nil_iff] at both
  unfold formWord
  dsimp only
  rw [pieces_of_plain plain, commands_lit, literals_lit, both.1, both.2]
  cases t with
  | nil => rfl
  | cons b t =>
    simp [speakerOf, formText, Fmt.attachAfter, Fmt.caseText, Fmt.consume]
    rfl

/-- The last SPEAKER command of an entry. -/
theorem speakerOf_eq (cs : List Cmd) : speakerOf cs = (cs.reverse.filterMap (fun c => match c with
    | .speaker k => some k
    | _ => none)).head? := by
  have last : ∀ f : Cmd → Option Nat, (cs.reverse.filterMap f).head? = (cs.filterMap f).getLast? := fun f => by
    rw [List.filterMap_reverse, List.head?_reverse]
  exact (last _).symm

theorem speakerOf_of_none {cs : List Cmd} (no_speaker : ∀ n, .speaker n ∉ cs) : speakerOf cs = none := by
  rw [speakerOf, List.getLast?_eq_none_iff, List.filterMap_eq_nil_iff]
  intro c within
  cases c
  case speaker n => exact absurd within (no_speaker n)
  all_goals rfl

theorem labelText_eq (n : Nat) : labelText labels n =
    if labels.getD (n - 1) [] ≠ [] then labels.getD (n - 1) []
    else [0x28#8, 0x53#8, 0x70#8, 0x65#8, 0x61#8, 0x6B#8, 0x65#8, 0x72#8, 0x20#8] ++
      (if n < 10 then [byte (0x30 + n)] else [byte (0x30 + n / 10), byte (0x30 + n % 10)]) ++ [0x29#8] := by
  unfold labelText decimal
  split
  next none => rw [none]; rfl
  next l some => rw [if_pos some]

theorem formWord_label {t : Bytes} {n : Nat} (src : Source) (speaker : speakerOf (commands (pieces t)) = some n) :
    formWord capPara labels t src w = formLabel capPara labels src (commands (pieces t)) n w := by
  unfold formWord
  dsimp only
  rw [speaker]

theorem formWord_text {t : Bytes} (src : Source) (speaker : speakerOf (commands (pieces t)) = none)
    (some_literal : literals (pieces t) ≠ []) : formWord capPara labels t src w =
      formText capPara .word src true (literals (pieces t)) (leadingCmds (pieces t)) (trailingCmds (pieces t)) w := by
  unfold formWord
  dsimp only
  rw [speaker]
  dsimp only
  rw [if_neg (by simpa using some_literal)]

theorem formWord_command {t : Bytes} (src : Source) (speaker : speakerOf (commands (pieces t)) = none)
    (no_literal : literals (pieces t) = []) :
    formWord capPara labels t src w = formCommand capPara src (commands (pieces t)) w := by
  unfold formWord
  dsimp only
  rw [speaker]
  dsimp only
  rw [if_pos (by simp [no_literal])]

theorem formLabel_eq (src : Source) (cs : List Cmd) (n : Nat) : formLabel capPara labels src cs n w =
    { kind := .speakerLabel
      text := if labels.getD (n - 1) [] ≠ [] then labels.getD (n - 1) []
        else [0x28#8, 0x53#8, 0x70#8, 0x65#8, 0x61#8, 0x6B#8, 0x65#8, 0x72#8, 0x20#8] ++
          (if n < 10 then [byte (0x30 + n)] else [byte (0x30 + n / 10), byte (0x30 + n % 10)]) ++ [0x29#8]
      join := false
      paragraphStart := true
      cls := (cs.foldl (Fmt.lead capPara) w).cls
      speaker := n
      source := src
      after := { (cs.foldl (Fmt.lead capPara) w).consume with
        capNext := true
        attachNext := (cs.foldl (Fmt.lead capPara) w).consume.attachNext || decide (.attachRight ∈ cs) } } := by
  rw [formLabel, labelText_eq, attachAfter_eq]

theorem formText_eq (src : Source) (lits : Bytes) (lead trail : List Cmd) :
    formText capPara .word src true lits lead trail w =
      { kind := .word
        text := if (lead.foldl (Fmt.lead capPara) w).capNext = true then mapFirst upperByte lits
          else if (lead.foldl (Fmt.lead capPara) w).lowerNext = true then mapFirst lowerByte lits else lits
        join := (lead.foldl (Fmt.lead capPara) w).attachNext || decide (.attachLeft ∈ lead)
        paragraphStart := (lead.foldl (Fmt.lead capPara) w).paraPending
        cls := (lead.foldl (Fmt.lead capPara) w).cls
        speaker := (lead.foldl (Fmt.lead capPara) w).speaker
        source := src
        after := { trail.foldl (Fmt.trail capPara) (lead.foldl (Fmt.lead capPara) w).consume with
          attachNext := (trail.foldl (Fmt.trail capPara) (lead.foldl (Fmt.lead capPara) w).consume).attachNext ||
            decide (.attachRight ∈ lead ++ trail) } } := by
  rw [formText, attachAfter_eq]
  simp [Fmt.caseText]

theorem formCommand_eq (src : Source) (cs : List Cmd) : formCommand capPara src cs w =
    { kind := .command, text := [], join := false, paragraphStart := false
      cls := (cs.foldl (Fmt.lead capPara) w).cls
      speaker := (cs.foldl (Fmt.lead capPara) w).speaker
      source := src
      after := { cs.foldl (Fmt.lead capPara) w with
        attachNext := (cs.foldl (Fmt.lead capPara) w).attachNext || decide (.attachRight ∈ cs) } } := by
  rw [formCommand, attachAfter_eq]

/-- A number or an untranslate is not cased (R107, R108). -/
theorem formText_plain (kind : UnitKind) (src : Source) (text : Bytes) : formText capPara kind src false text [] [] w =
    { kind := kind, text := text, join := w.attachNext, paragraphStart := w.paraPending, cls := w.cls
      speaker := w.speaker, source := src
      after := { w with capNext := false, lowerNext := false, attachNext := false, paraPending := false } } := by
  rw [formText, attachAfter_eq]
  simp [Fmt.consume]

end

end Sys2Proof.Machine
end

section
/-! The reconciliation of the new units with the PROVISIONAL ones, unit by unit (R115). -/

namespace Sys2Proof.Machine

/-! ### The rows of the transcript -/

/-- What reconciliation compares and gives of a unit: its number, its fields that are shown and whether it is PROVISIONAL. -/
def TUnit.row (u : TUnit) : Nat × UnitKind × List Nat × Bytes × Cls × Bool :=
  (u.number, u.kind, u.outline, u.text, u.cls, decide (u.state = .provisional))

/-- The row of a formed unit under a number. -/
def NewUnit.row (number : Nat) (x : NewUnit) : Nat × UnitKind × List Nat × Bytes × Cls × Bool :=
  (number, x.unit.kind, x.unit.outline, x.unit.text, x.unit.cls, !x.committed)

/-- A row of a unit that is PROVISIONAL no longer. -/
def markRow (n : Nat) (r : Nat × UnitKind × List Nat × Bytes × Cls × Bool) : Nat × UnitKind × List Nat × Bytes × Cls × Bool :=
  if r.1 = n then (r.1, r.2.1, r.2.2.1, r.2.2.2.1, r.2.2.2.2.1, false) else r

theorem firmFirst_rows (k : Nat) (us : List TUnit) : (firmFirst k us).map TUnit.row = us.map TUnit.row := by
  induction us generalizing k with
  | nil => cases k <;> rfl
  | cons u us ih =>
    cases k with
    | zero => rw [firmFirst_zero]
    | succ k =>
      cases committed : u.isCommitted with
      | false => rw [firmFirst_cons_other committed, List.map_cons, List.map_cons, ih]
      | true =>
        have same : ({ u with state := .firm } : TUnit).row = u.row := by
          have state : u.state = .committed := by simpa [TUnit.isCommitted] using committed
          simp [TUnit.row, state]
        rw [firmFirst_cons_committed committed, List.map_cons, List.map_cons, ih, same]

theorem keepNewest_rows (d : Nat) (us : List TUnit) : (keepNewest d us).map TUnit.row = us.map TUnit.row := by
  rw [← firmFirst_eq_keepNewest, firmFirst_rows]

theorem commitNamed_rows (now : LocalTime) (n : Nat) (us : List TUnit) :
    (commitNamed now (fun u => decide (u.number = n)) us).map TUnit.row = (us.map TUnit.row).map (markRow n) := by
  rw [commitNamed, List.map_map, List.map_map]
  refine List.map_congr_left fun u _ => ?_
  by_cases same : u.number = n
  · by_cases provisional : u.state = .provisional
    · simp [TUnit.row, markRow, TUnit.isProvisional, same, provisional]
    · simp [TUnit.row, markRow, TUnit.isProvisional, same, provisional]
  · simp [TUnit.row, markRow, same]

theorem rows_numbers (us : List TUnit) : (us.map TUnit.row).map Prod.fst = us.map TUnit.number := by
  rw [List.map_map]
  rfl

theorem markRow_others {n : Nat} {rows : List (Nat × UnitKind × List Nat × Bytes × Cls × Bool)}
    (absent : n ∉ rows.map Prod.fst) : rows.map (markRow n) = rows := by
  refine (List.map_congr_left fun r within => ?_).trans (List.map_id rows)
  exact if_neg fun (same : r.1 = n) => absent (same ▸ List.mem_map_of_mem within)

/-! ### The kept units -/

section
variable {s : State}

theorem commitUnit_rows {o : TUnit} (rises : s.rises)
    (provisional : ∀ u ∈ s.script.units, u.number = o.number → u.isProvisional = true) :
    (commitUnit o s).script.units.map TUnit.row = (s.script.units.map TUnit.row).map (markRow o.number) := by
  rw [(commitUnit_kept o s).1, promoteUnit_units rises provisional, keepNewest_rows, commitNamed_rows]

theorem commitUnit_rises {o : TUnit} (rises : s.rises)
    (provisional : ∀ u ∈ s.script.units, u.number = o.number → u.isProvisional = true) : (commitUnit o s).rises := by
  rw [State.rises, (commitUnit_kept o s).1, promoteUnit_units rises provisional]
  exact rising_of_numbers (by rw [keepNewest_numbers, commitNamed_numbers]) rises

/-- The kept units are committed where the new list marks them so (R115 step 2). -/
theorem promoteKept_rows {os : List TUnit} {ns : List NewUnit} {first : List (Nat × UnitKind × List Nat × Bytes × Cls × Bool)}
    (rises : s.rises) (rows : s.script.units.map TUnit.row = first ++ os.map TUnit.row)
    (held : ∀ o ∈ os, o.state = .provisional) (pairs : os.length = ns.length) :
    (promoteKept os ns s).script.units.map TUnit.row = first ++ (os.zip ns).map (fun x =>
      (x.1.number, x.1.kind, x.1.outline, x.1.text, x.1.cls, !x.2.committed)) ∧
      (promoteKept os ns s).rises ∧ (promoteKept os ns s).script.nextNumber = s.script.nextNumber := by
  induction os generalizing ns s first with
  | nil => cases ns <;> exact ⟨rows, rises, rfl⟩
  | cons o os ih =>
    cases ns with
    | nil => exact absurd pairs (by simp)
    | cons n ns =>
      have distinct : (s.script.units.map TUnit.number).Nodup :=
        (List.pairwise_map.mpr rises).imp fun lt => Nat.ne_of_lt lt
      have state := held o (.head _)
      have row_o : o.row = (o.number, o.kind, o.outline, o.text, o.cls, true) := by simp [TUnit.row, state]
      rw [promoteKept, List.zip_cons_cons, List.map_cons]
      by_cases committed : n.committed = true
      · have alone := distinct
        rw [← rows_numbers, rows, List.map_append, List.map_cons, List.map_cons] at alone
        obtain ⟨-, later, apart⟩ := List.nodup_append.mp alone
        have not_first : o.number ∉ first.map Prod.fst := fun before => apart _ before _ (.head _) rfl
        have not_later : o.number ∉ (os.map TUnit.row).map Prod.fst := (List.nodup_cons.mp later).1
        have provisional : ∀ u ∈ s.script.units, u.number = o.number → u.isProvisional = true := by
          intro u within same
          have listed : u.row ∈ first ++ (o :: os).map TUnit.row := rows ▸ List.mem_map_of_mem within
          rcases List.mem_append.mp listed with before | after
          · exact absurd (List.mem_map_of_mem (f := Prod.fst) before) (by rw [← same] at not_first; exact not_first)
          rcases List.mem_cons.mp after with is_o | among
          · have flag := congrArg (fun r => r.2.2.2.2.2) (is_o.trans row_o)
            exact flag
          · exact absurd (List.mem_map_of_mem (f := Prod.fst) among) (by rw [← same] at not_later; exact not_later)
        have after : (commitUnit o s).script.units.map TUnit.row =
            (first ++ [(o.number, o.kind, o.outline, o.text, o.cls, !n.committed)]) ++ os.map TUnit.row := by
          have marked : markRow o.number o.row = (o.number, o.kind, o.outline, o.text, o.cls, !n.committed) := by
            rw [row_o, committed, markRow, if_pos rfl]
            rfl
          rw [commitUnit_rows rises provisional, rows, List.map_append, List.map_cons, List.map_cons,
            markRow_others not_first, markRow_others not_later, marked, List.append_assoc]
          rfl
        rw [if_pos committed]
        obtain ⟨rows_after, rises_after, next⟩ := ih (commitUnit_rises rises provisional) after
          (fun o within => held o (.tail _ within)) (Nat.succ.inj pairs)
        refine ⟨by rw [rows_after, List.append_assoc]; rfl, rises_after, next.trans ?_⟩
        rw [commitUnit_script]
      · rw [if_neg committed]
        have after : s.script.units.map TUnit.row =
            (first ++ [(o.number, o.kind, o.outline, o.text, o.cls, !n.committed)]) ++ os.map TUnit.row := by
          rw [rows, List.map_cons, row_o, List.append_assoc]
          simp [committed]
        obtain ⟨rows_after, rises_after, next⟩ := ih rises after
          (fun o within => held o (.tail _ within)) (Nat.succ.inj pairs)
        exact ⟨by rw [rows_after, List.append_assoc]; rfl, rises_after, next⟩

/-! ### The created units -/

/-- The numbers rise and stay below the next. -/
def State.numbersBelow (s : State) : Prop := s.rises ∧ ∀ u ∈ s.script.units, u.number < s.script.nextNumber

/-- A formed unit has the state that its mark gives it. -/
def NewUnit.marked (n : NewUnit) : Prop := n.unit.state = if n.committed then .committed else .provisional

theorem createFormed_rows {n : NewUnit} (marked : n.marked) (numbers : s.numbersBelow)
    (room : s.script.units.length < Config.unitsMax) :
    (createFormed n s).script.units.map TUnit.row =
      s.script.units.map TUnit.row ++ [n.row s.script.nextNumber] ∧
      (createFormed n s).script.nextNumber = s.script.nextNumber + 1 ∧ (createFormed n s).numbersBelow := by
  obtain ⟨rises, below⟩ := numbers
  have stays : s.withRoom = s := if_neg (Nat.not_le.mpr room)
  have made := appendUnit_script n.unit s
  have made_units : (appendUnit n.unit s).script.units = s.script.units ++ [s.numbered n.unit] := by rw [made]
  have made_rises : (appendUnit n.unit s).script.units.Pairwise (fun x y => x.number < y.number) := by
    rw [made_units, List.pairwise_append]
    exact ⟨rises, List.pairwise_singleton _ _, fun u within v is => by
      rw [List.mem_singleton.mp is]; exact below u within⟩
  have new_row : (s.numbered n.unit).row = n.row s.script.nextNumber := by
    rw [NewUnit.marked] at marked
    cases committed : n.committed <;> simp [TUnit.row, NewUnit.row, State.numbered, marked, committed]
  obtain ⟨k, is⟩ : ∃ k, (createFormed n s).script = (firmOldest k (appendUnit n.unit s)).script := by
    rw [createFormed_script, createUnit_eq, stays]
    split
    · exact ⟨_, rfl⟩
    · exact ⟨0, rfl⟩
  have script := firmOldest_script (k := k) made_rises
  rw [← is] at script
  have units : (createFormed n s).script.units = firmFirst k (s.script.units ++ [s.numbered n.unit]) := by
    rw [script, made_units]
  have next : (createFormed n s).script.nextNumber = s.script.nextNumber + 1 := by rw [script, made]
  refine ⟨?_, next, ?_, ?_⟩
  · rw [units, firmFirst_rows, List.map_append, List.map_singleton, new_row]
  · rw [State.rises, units, ← made_units]
    exact firmFirst_rising made_rises
  · intro u within
    have number : u.number ∈ (createFormed n s).script.units.map TUnit.number := List.mem_map_of_mem within
    rw [units, firmFirst_numbers, List.map_append] at number
    rw [next]
    rcases List.mem_append.mp number with old | new
    · obtain ⟨v, held, same⟩ := List.mem_map.mp old
      have := below v held
      omega
    · have is_new : u.number = s.script.nextNumber := List.mem_singleton.mp new
      omega

theorem foldl_createFormed_rows {new : List NewUnit} (marked : ∀ n ∈ new, n.marked) (numbers : s.numbersBelow)
    (room : s.script.units.length + new.length ≤ Config.unitsMax) :
    (new.foldl (fun s n => createFormed n s) s).script.units.map TUnit.row =
      s.script.units.map TUnit.row ++ new.mapIdx (fun i x => x.row (s.script.nextNumber + i)) ∧
      (new.foldl (fun s n => createFormed n s) s).script.nextNumber = s.script.nextNumber + new.length := by
  induction new generalizing s with
  | nil => simp
  | cons n new ih =>
    rw [List.length_cons] at room
    obtain ⟨rows, next, after⟩ := createFormed_rows (marked n (.head _)) numbers (by omega)
    have length : (createFormed n s).script.units.length = s.script.units.length + 1 := by
      simpa using congrArg List.length rows
    obtain ⟨rows_after, next_after⟩ := ih (fun m within => marked m (.tail _ within)) after (by omega)
    refine ⟨?_, ?_⟩
    · rw [List.foldl_cons, rows_after, rows, next, List.append_assoc, List.mapIdx_cons]
      simp [Nat.add_assoc, Nat.add_comm 1]
    · rw [List.foldl_cons, next_after, next, List.length_cons]
      omega

/-! ### The reconciliation -/

theorem sameUnit_iff (o : TUnit) (n : NewUnit) : sameUnit o n.unit = decide (n.unit =
    { o with number := n.unit.number, state := n.unit.state, commitTime := n.unit.commitTime }) := by
  rw [sameUnit, decide_eq_decide]
  exact eq_comm

theorem keptCount_eq (old : List TUnit) (new : List NewUnit) : keptCount old new =
    ((old.zip new).takeWhile (fun x => decide (x.2.unit =
      { x.1 with number := x.2.unit.number, state := x.2.unit.state, commitTime := x.2.unit.commitTime }))).length := by
  induction old generalizing new with
  | nil => cases new <;> rfl
  | cons o old ih =>
    cases new with
    | nil => rfl
    | cons n new =>
      rw [keptCount, List.zip_cons_cons, List.takeWhile_cons, ← sameUnit_iff]
      split
      · rw [ih, List.length_cons]
      · rfl

theorem keptCount_le (old : List TUnit) (new : List NewUnit) :
    keptCount old new ≤ old.length ∧ keptCount old new ≤ new.length := by
  rw [keptCount_eq]
  have fewer := (List.takeWhile_prefix (fun x : TUnit × NewUnit => decide (x.2.unit =
    { x.1 with number := x.2.unit.number, state := x.2.unit.state, commitTime := x.2.unit.commitTime }))
      (l := old.zip new)).length_le
  rw [List.length_zip] at fewer
  omega

/-- A kept unit has the fields of the new one in its place. -/
theorem kept_rows {old : List TUnit} {new : List NewUnit} :
    ((old.take (keptCount old new)).zip (new.take (keptCount old new))).map (fun x =>
      (x.1.number, x.1.kind, x.1.outline, x.1.text, x.1.cls, !x.2.committed)) =
      ((old.zip new).take (keptCount old new)).map (fun x => x.2.row x.1.number) := by
  induction old generalizing new with
  | nil => cases new <;> rfl
  | cons o old ih =>
    cases new with
    | nil => rfl
    | cons n new =>
      rw [keptCount]
      cases same : sameUnit o n.unit with
      | false => rfl
      | true =>
        have unit := of_decide_eq_true ((sameUnit_iff o n).symm.trans same)
        rw [if_pos rfl, List.take_succ_cons, List.take_succ_cons, List.zip_cons_cons, List.zip_cons_cons,
          List.take_succ_cons, List.map_cons, List.map_cons, ih, NewUnit.row, unit]

/-- What the transcript holds after the reconciliation (R115). -/
theorem reconcile_rows {new : List NewUnit} {front old : List TUnit} (units : s.script.units = front ++ old)
    (firm : ∀ u ∈ front, u.state ≠ .provisional) (held : ∀ u ∈ old, u.state = .provisional) (numbers : s.numbersBelow)
    (marked : ∀ n ∈ new, n.marked) (room : s.script.units.length + new.length ≤ Config.unitsMax) :
    (reconcile new s).script.units.map TUnit.row =
      front.map TUnit.row ++ ((old.zip new).take (keptCount old new)).map (fun x => x.2.row x.1.number) ++
        (new.drop (keptCount old new)).mapIdx (fun i x => x.row (s.script.nextNumber + i)) ∧
      (reconcile new s).script.nextNumber = s.script.nextNumber + (new.length - keptCount old new) := by
  obtain ⟨rises, below⟩ := numbers
  obtain ⟨le_old, le_new⟩ := keptCount_le old new
  have provisionals := provisionals_of_split units firm held
  have same_rows := kept_rows (old := old) (new := new)
  rw [reconcile_eq]
  rw [provisionals]
  generalize keptCount old new = k at le_old le_new same_rows ⊢
  obtain ⟨kept, kept_next⟩ := retractRest_script (s := s) units rises (List.take_append_drop k old).symm
  generalize retractRest (old.drop k) s = p at kept kept_next
  have p_rises : p.rises := by
    rw [State.rises, kept]
    rw [State.rises, units] at rises
    exact rises.sublist (List.Sublist.append_left (List.take_sublist _ _) _)
  have pairs : (old.take k).length = (new.take k).length := by
    rw [List.length_take, List.length_take]
    omega
  obtain ⟨rows, q_rises, q_next⟩ := promoteKept_rows (s := p) (first := front.map TUnit.row) p_rises
    (by rw [kept, List.map_append]) (fun o within => held o (List.mem_of_mem_take within)) pairs
  generalize promoteKept (old.take k) (new.take k) p = q at rows q_rises q_next
  have q_below : ∀ u ∈ q.script.units, u.number < q.script.nextNumber := by
    intro u within
    have number : u.number ∈ (q.script.units.map TUnit.row).map Prod.fst := by
      rw [rows_numbers]
      exact List.mem_map_of_mem within
    rw [rows, List.map_append, List.mem_append] at number
    rw [q_next, kept_next]
    rcases number with before | after
    · rw [rows_numbers] at before
      obtain ⟨v, mem, same⟩ := List.mem_map.mp before
      rw [← same]
      exact below v (by rw [units]; exact List.mem_append_left _ mem)
    · rw [List.map_map] at after
      obtain ⟨x, mem, same⟩ := List.mem_map.mp after
      rw [← same]
      exact below x.1 (by
        rw [units]
        exact List.mem_append_right _ (List.mem_of_mem_take (List.of_mem_zip mem).1))
  have length : q.script.units.length = front.length + k := by
    have count := congrArg List.length rows
    simp only [List.length_map, List.length_append, List.length_zip, List.length_take] at count
    omega
  obtain ⟨all_rows, next⟩ := foldl_createFormed_rows (s := q) (new := new.drop k)
    (fun n within => marked n (List.mem_of_mem_drop within)) ⟨q_rises, q_below⟩ (by
      rw [units, List.length_append] at room
      rw [length, List.length_drop]
      omega)
  refine ⟨?_, ?_⟩
  · rw [all_rows, rows, same_rows, q_next, kept_next]
  · rw [next, q_next, kept_next, List.length_drop]

end

end Sys2Proof.Machine
end

section
/-! The finish of a stroke settled (R104 to R115). -/

namespace Sys2Proof.Machine

theorem formAll_marked (capPara : Bool) (labels : List Bytes) (p : Pos) (us : List (ParseUnit × Bool)) (w : Fmt) :
    ∀ n ∈ formAll capPara labels p w us, n.marked := by
  induction us generalizing w with
  | nil => exact fun n within => absurd within List.not_mem_nil
  | cons u us ih =>
    intro n within
    rcases List.mem_cons.mp within with rfl | later
    · rfl
    · exact ih _ n later

/-- The walk of a lookup of a run: the record at its offset. -/
theorem readEnded_run {l : Lookup} {c : Client} {s : State} (only : s.dict.lookups = [l]) (client : l.client = c) :
    readEnded (.lookup c) s = walkStep l (s.onStore fun st => { st with reading := none }) := by
  have found : (s.onStore fun st => { st with reading := none }).dict.lookups.find?
      (fun x => decide (x.client = c)) = some l := by
    rw [onStore_dict, only, List.find?_cons_of_pos (by simp [client])]
  show lookupRead c (s.onStore fun st => { st with reading := none }) = _
  simp only [lookupRead, found]

/-- The last lookup of the stroke in flight ends its chain, and the stroke is finished (R105). -/
theorem completeLookup_last {l : Lookup} {first last : Nat} {d : Dict} {fl : InFlight} {s : State}
    (client : l.client = .run first last d) (only : ∀ x ∈ s.dict.lookups, x.client = l.client)
    (flies : s.trans.inFlight = some fl) :
    ∃ dict : Dictionary, completeLookup l false s = finishStroke
      { s with
        dict := dict
        trans := { s.trans with inFlight := some { fl with results := fl.results ++
          [{ first := first, last := last, dict := l.dict, text := l.text, longer := l.longer }] } } } := by
  have none_left : s.dict.lookups.filter (fun x => decide (x.client ≠ l.client)) = [] :=
    List.filter_eq_nil_iff.mpr fun x within => by simp [only x within]
  have done : finishIfDone (addRunResult first last l (countLookup (s.onDict (Dictionary.without l.client)))) =
      finishStroke (addRunResult first last l (countLookup (s.onDict (Dictionary.without l.client)))) := by
    refine if_neg ?_
    show ¬ (s.dict.lookups.filter (fun x => decide (x.client ≠ l.client))).any Lookup.isRun = true
    rw [none_left]
    decide
  have told : completeLookup l false s =
      finishIfDone (addRunResult first last l (countLookup (s.onDict (Dictionary.without l.client)))) := by
    rw [completeLookup, deliver]
    split
    next f k e is =>
      obtain ⟨rfl, rfl, -⟩ := Client.run.inj (client.symm.trans is)
      rfl
    next is => exact absurd (client.symm.trans is) (by simp)
    next is => exact absurd (client.symm.trans is) (by simp)
  rw [told, done]
  refine ⟨(countLookup (s.onDict (Dictionary.without l.client))).dict, congrArg finishStroke ?_⟩
  rw [addRunResult, State.onTrans]
  have same : (countLookup (s.onDict (Dictionary.without l.client))).trans = s.trans := rfl
  rw [same, flies]
  rfl

/-- What the finish makes of the transcript and the translator, with no resolution pending and no note queued. -/
theorem finish_kept {fl : InFlight} {front old : List TUnit} {new : List NewUnit} {s : State}
    (opened : s.script.session = .opened) (flies : s.trans.inFlight = some fl) (is_new : newUnits s fl = new)
    (pending : s.trans.expiryPending = false ∧ s.trans.resolvePending = false) (notes : s.trans.notes = [])
    (units : s.script.units = front ++ old) (firm : ∀ u ∈ front, u.state ≠ .provisional)
    (held : ∀ u ∈ old, u.state = .provisional) (numbers : s.numbersBelow)
    (room : s.script.units.length + new.length ≤ Config.unitsMax) :
    (finishStroke s).trans.inFlight = none ∧
      (finishStroke s).trans.hold = holdAfter new ∧
      (finishStroke s).trans.timer = (if holdAfter new = [] then none else s.trans.timer) ∧
      (finishStroke s).trans.base = baseAfter s.trans.base new ∧
      (finishStroke s).trans.badCommands = s.trans.badCommands + BitVec.ofNat 32 (finishBads fl) ∧
      (finishStroke s).trans.undosInHold =
        (if fl.stroke.keys = undoValue then s.trans.undosInHold + 1 else s.trans.undosInHold) ∧
      (finishStroke s).script.nextNumber = s.script.nextNumber + (new.length - keptCount old new) ∧
      (finishStroke s).script.units.map TUnit.row =
        front.map TUnit.row ++ ((old.zip new).take (keptCount old new)).map (fun x => x.2.row x.1.number) ++
          (new.drop (keptCount old new)).mapIdx (fun i x => x.row (s.script.nextNumber + i)) := by
  obtain ⟨script, trans⟩ := finishStroke_kept flies is_new opened notes (.inr pending)
  have before := (reconcile_asBefore new s).eq
  have marked : ∀ n ∈ new, n.marked := by
    rw [← is_new]
    exact formAll_marked _ _ _ _ _
  obtain ⟨rows, next⟩ := reconcile_rows units firm held numbers marked room
  generalize reconcile new s = r at script trans before rows next
  rw [script, trans, Translator.finished, before]
  refine ⟨rfl, rfl, ?_, rfl, rfl, rfl, next, rows⟩
  cases holdAfter new <;> rfl

/-- Settles O42: the parse, the division of an entry, the forming of a unit, and the finish by its rows. -/
theorem finishedStrokesBecomeUnits : Obligations.FinishedStrokesBecomeUnits := by
  refine ⟨combinedText_eq, longestRun_iff, ?_, markUnits_getElem, ?_, ⟨rfl, rfl, ?_, pieces_escaped, ?_⟩, ?_, ?_, ?_⟩
  · intro rs p i x rest parses
    refine ⟨parse_strokes rs p i (x :: rest), fun len t d run => ?_, fun none => ?_⟩
    · have one : parseOne rs p i x rest = { start := i, strokes := (x :: rest).take len, entry := .word t d } := by
        simp only [parseOne, Config.outlineMax, run]
      obtain ⟨-, most, -⟩ := (longestRun_iff rs p _ _ _ _ _).mp run
      have length : ((x :: rest).take len).length = len := by
        rw [List.length_take, List.length_cons]
        omega
      refine (parse_cons rs p i x rest).trans ?_
      rw [one, length]
      rfl
    · have one : parseOne rs p i x rest =
          { start := i, strokes := [x], entry := if isNumberStroke x.keys then .number else .untranslate } := by
        simp only [parseOne, Config.outlineMax, none]
      refine (parse_cons rs p i x rest).trans ?_
      rw [one]
      rfl
  · intro capPara labels w u t d entry plain
    rw [formUnit, entry]
    exact formWord_plain capPara labels w plain _
  · exact fun b rest plain => pieces_lit plain rest
  · intro u
    unfold ParseUnit.bads
    cases u.entry <;> rfl
  · intro capPara labels w u t d entry isLit cmds lits all leading trailing lead trail attached consumed
    have lead_is : lead = Fmt.lead capPara := funext fun f => funext fun c => (lead_eq capPara f c).symm
    have trail_is : trail = Fmt.trail capPara := funext fun f => funext fun c => by
      rw [Fmt.trail, ← lead_is]
    have all_is : leadingCmds (pieces t) ++ trailingCmds (pieces t) = all := leading_append_trailing (pieces t)
    have word : formUnit capPara labels w u = formWord capPara labels t (dictSource d) w := by rw [formUnit, entry]
    refine ⟨?_, fun no_speaker => ⟨?_, ?_⟩⟩
    · intro n more listed f label
      have speaker : speakerOf (commands (pieces t)) = some n := by
        rw [speakerOf_eq]
        exact congrArg List.head? listed
      have f_is : f = all.foldl (Fmt.lead capPara) w := by rw [← lead_is]
      rw [word, formWord_label capPara labels w _ speaker, formLabel_eq, f_is]
      rfl
    · intro some_literal f
      have speaker : speakerOf (commands (pieces t)) = none := speakerOf_of_none no_speaker
      have f_is : f = leading.foldl (Fmt.lead capPara) w := by rw [← lead_is]
      rw [word, formWord_text capPara labels w _ speaker some_literal, formText_eq, f_is, trail_is, all_is]
      rfl
    · intro no_literal f
      have speaker : speakerOf (commands (pieces t)) = none := speakerOf_of_none no_speaker
      have f_is : f = all.foldl (Fmt.lead capPara) w := by rw [← lead_is]
      rw [word, formWord_command capPara labels w _ speaker no_literal, formCommand_eq, f_is]
      rfl
  · intro capPara labels w u x rest strokes formed
    refine ⟨fun entry => ?_, fun entry => ?_⟩
    · rw [formUnit, entry]
      dsimp only
      rw [strokes]
      exact formText_plain capPara w _ _ _
    · rw [formUnit, entry]
      dsimp only
      rw [strokes]
      exact formText_plain capPara w _ _ _
  · intro l first last d h fl front old s calm opened reading only client header flies expiry resolve notes still units
      firm held rises below at_ kind n size bytes least_kind most_kind least most within checked ends same result new kept
      row room
    let v : State := s.onStore fun st => { st with reading := none }
    have base : v.regionBase l.dict = (h.span l.dict).start * 65536 := regionBase_of_header (s := v) header _
    have limit : v.regionEnd l.dict = (h.span l.dict).len * 65536 := regionEnd_of_header (s := v) header _
    have stands : recordAt v.flash.cells (v.regionBase l.dict) l.next (v.regionEnd l.dict) := by
      rw [base, limit]
      exact ⟨⟨least_kind, most_kind⟩, ⟨least, most⟩, within, checked⟩
    have record := (readRecord_eq_iff v.flash.cells (v.regionBase l.dict) l.next (v.regionEnd l.dict)).1 stands
    have ends_here : (recordStanding v.flash.cells (v.regionBase l.dict) l.next).link = max32 := by
      rw [base]
      exact ends
    have meets := Lookup.meet_eq (recordStanding v.flash.cells (v.regionBase l.dict) l.next)
      { l with reads := l.reads + 1 }
    generalize is_met : Lookup.meet (recordStanding v.flash.cells (v.regionBase l.dict) l.next)
      { l with reads := l.reads + 1 } = met at meets
    have client_met : met.client = .run first last d := by rw [meets]; exact client
    have walks : readEnded (.lookup (.run first last d)) s =
        completeLookup met false (v.onDict fun x => { x with recordsRead := x.recordsRead + 1 }) := by
      rw [readEnded_run only client, walkStep_of_some record, is_met]
      exact if_pos ends_here
    obtain ⟨dict, finishes⟩ := completeLookup_last (s := v.onDict fun x => { x with recordsRead := x.recordsRead + 1 })
      client_met (by
        intro x within
        have is_l : x ∈ [l] := only ▸ within
        rw [List.mem_singleton.mp is_l, client_met, client]) flies
    have is_result : ({ first := first, last := last, dict := met.dict, text := met.text, longer := met.longer } :
        RunResult) = result := by
      rw [meets, base]
      rfl
    rw [is_result] at finishes
    generalize started : ({ v.onDict (fun x => { x with recordsRead := x.recordsRead + 1 }) with
      dict := dict, trans := _ } : State) = w at finishes
    have w_script : w.script = s.script := by rw [← started]; rfl
    have w_trans : w.trans = { s.trans with
        inFlight := some { fl with results := fl.results ++ [result] } } := by rw [← started]; rfl
    have w_units : newUnits w { fl with results := fl.results ++ [result] } = new := by rw [← started]; rfl
    have w_calm : w.calm := by rw [← started]; exact calm
    obtain ⟨flight, hold, timer, base_is, bads, undos, next, rows⟩ := finish_kept (front := front) (old := old)
      (by rw [w_script]; exact opened) (by rw [w_trans]) w_units (by rw [w_trans]; exact ⟨expiry, resolve⟩)
      (by rw [w_trans]; exact notes) (by rw [w_script]; exact units) firm held
      ⟨by rw [State.rises, w_script]; exact rises, by rw [w_script]; exact below⟩ (by rw [w_script]; exact room)
    have store_kept := finishStroke_storeKept w
    have calm_after : (finishStroke w).calm :=
      ⟨store_kept.phase.trans w_calm.1,
        (store_kept.flush (by rw [w_script, opened]; decide)).trans w_calm.2⟩
    have is_kept : keptCount old new = kept := keptCount_eq old new
    have front_rows : front.map TUnit.row = front.map (fun u => (u.number, u.kind, u.outline, u.text, u.cls, false)) :=
      List.map_congr_left fun u among => by simp [TUnit.row, firm u among]
    rw [w_trans] at timer base_is bads undos
    rw [w_script, is_kept] at next rows
    rw [front_rows] at rows
    refine ⟨(finishStroke w).settled, ?_, ?_⟩
    · rw [exec_readComplete reading, walks, finishes, finishStep_calm _ calm_after]
    · rw [settled_trans, settled_script]
      refine ⟨flight, hold, ?_, base_is, bads, undos, next, rows⟩
      rw [hold]
      exact timer

end Sys2Proof.Machine
end
